-- ==== Sys2Proof/Word.lean ====
section
/-! DEFINITION. Handles, and tables of a fixed number of records indexed by a handle. -/

namespace Sys2Proof

/-- Field numbers 0 to 3 (spec/00_scope.md, 6.2). -/
abbrev FieldNo := Fin 4
/-- Lane numbers: 0 to 3 are E0 to E3, 4 and 5 are X0 and X1 (spec/00_scope.md, 6.2). -/
abbrev LaneNo := Fin 6
/-- Station numbers 0 to 3. -/
abbrev StationNo := Fin 4
/-- Car entry handles 0 to 1,023. -/
abbrev CarHandle := Fin 1024
/-- Set handles 0 to 127. -/
abbrev SetHandle := Fin 128
/-- Bays 0 to 127. -/
abbrev BayNo := Fin 128
/-- Order handles 0 to 255. -/
abbrev OrderHandle := Fin 256
/-- Trip handles 0 to 7. -/
abbrev TripHandle := Fin 8

/-- A number read as a handle of a table of `n` records, if it is one. -/
def handle? (n k : Nat) : Option (Fin n) :=
  if h : k < n then some ⟨k, h⟩ else none

/-- The record a table holds under a handle. -/
def look {α : Type} {n : Nat} (v : Vector α n) (i : Fin n) : α := v[i.val]

/-- The table with one record replaced. -/
def put {α : Type} {n : Nat} (v : Vector α n) (i : Fin n) (x : α) : Vector α n :=
  v.set i.val x i.isLt

@[simp] theorem look_put_self {α : Type} {n : Nat} (v : Vector α n) (i : Fin n) (x : α) :
    look (put v i x) i = x := by
  simp [look, put]

theorem look_put {α : Type} {n : Nat} (v : Vector α n) (i j : Fin n) (x : α) :
    look (put v i x) j = if i = j then x else look v j := by
  simp only [look, put, Vector.getElem_set, Fin.ext_iff]

@[simp] theorem look_put_ne {α : Type} {n : Nat} (v : Vector α n) {i j : Fin n} (x : α)
    (h : i ≠ j) : look (put v i x) j = look v j := by
  simp [look_put, h]

@[simp] theorem look_replicate {α : Type} {n : Nat} (x : α) (i : Fin n) :
    look (Vector.replicate n x) i = x := by
  simp [look]

/-- Tables that hold the same record under every handle are equal. -/
theorem table_ext {α : Type} {n : Nat} {v w : Vector α n} (h : ∀ i, look v i = look w i) :
    v = w := by
  apply Vector.ext
  intro i hi
  exact h ⟨i, hi⟩

@[simp] theorem handle?_of_lt {n k : Nat} (h : k < n) : handle? n k = some ⟨k, h⟩ := by
  simp [handle?, h]

@[simp] theorem handle?_of_ge {n k : Nat} (h : n ≤ k) : handle? n k = none := by
  simp [handle?, Nat.not_lt.mpr h]

end Sys2Proof
end

