-- ==== Sys2Proof/Syntax.lean ====
section
/-! DEFINITION. The commands and events of the part, one constructor per row of spec/opcode_table.json.
A host command carries its arguments as the numbers that its frame spells at their full width (R187, R188), so
that a value the width can carry but the range refuses is a command too, and is answered as its rule says. -/

namespace Sys2Proof

/-- The two loops of a lane (R44, R45). -/
inductive Loop where
  | arrival
  | pass
  deriving DecidableEq, Repr

/-- The level of a loop, raw or filtered (R44, R45). -/
inductive LoopLevel where
  | clear
  | occupied
  deriving DecidableEq, Repr

/-- One line of PLACE ORDER's arguments: item code, quantity, station, a byte each (R188). -/
structure LineArg where
  item : Nat
  quantity : Nat
  station : Nat
  deriving DecidableEq, Repr

/-- An edge of SCK: a falling one, or a rising one with the bit that stands on SDI (R172). -/
inductive SckEdge where
  | falls
  | rises (sdi : Bool)
  deriving DecidableEq, Repr

/-- What comes after the bytes of a COMMAND_FRAME_JUDGED row (R172, R174): SEL rises, at a byte boundary or off it, and
the frame is judged; or SEL stays low, with so many edges of SCK more, and the period goes on in a later row. In between
any other row, and any time, may pass. -/
inductive PeriodEnd where
  | rises (offBoundary : Bool)
  | stays (edges : List SckEdge)
  deriving DecidableEq, Repr

/-- What a PART_RESET row stands for (R186): power-on or a whole low period of RESET, or one edge of RESET. `selLow` is
whether SEL is low when RESET rises. -/
inductive ResetPart where
  | pulse (selLow : Bool)
  | falls
  | rises (selLow : Bool)
  deriving DecidableEq, Repr

/-- The commands of the port and the events of the field lines and timers. -/
inductive Instr where
  /-- CONFIGURE FIELD (0x11), R3. -/
  | configureField (field rows posts tall accessible channel signOn signOff : Nat)
  /-- CLOSE ROWS (0x12), R5. -/
  | closeRows (field mask : Nat)
  /-- OPEN ROWS (0x13), R6. -/
  | openRows (field mask : Nat)
  /-- READ FIELD (0x14), R17: row 0 asks for the summary alone. -/
  | readField (field row : Nat)
  /-- CONFIGURE TIMEBASE (0x15), R109: lock window W, gain G, jump limit J, holdover limit H. -/
  | configureTimebase (field window gain jump holdover reacquire : Nat)
  /-- READ TIMEBASE (0x16), R110. -/
  | readTimebase (field : Nat)
  /-- BEGIN PROGRAM (0x21), R68: a cutoff segment of 0xFF is NONE. -/
  | beginProgram (field ns cutoffSegment cutoffFrames leadGiven lead openCues endCues : Nat)
  /-- ADD SEGMENT (0x22), R69. -/
  | addSegment (field kind length title cues runners : Nat)
  /-- OPEN FIELD (0x23), R71. -/
  | openField (field : Nat)
  /-- START SHOW (0x24), R72. -/
  | startShow (field : Nat)
  /-- PAUSE SHOW (0x25), R75. -/
  | pauseShow (field : Nat)
  /-- RESUME SHOW (0x26), R76. -/
  | resumeShow (field : Nat)
  /-- SKIP SEGMENT (0x27), R78. -/
  | skipSegment (field : Nat)
  /-- END SHOW (0x28), R79. -/
  | endShow (field : Nat)
  /-- CLOSE FIELD (0x29), R85. -/
  | closeField (field force : Nat)
  /-- READ PROGRAM (0x2A), R88: a segment of 0xFF is none. -/
  | readProgram (field segment : Nat)
  /-- ADMIT (0x31), R48: the stall (row, post) when one is named; the plate is eight position codes. -/
  | admitCar (lane field cls party ticket : Nat) (plate : List Nat) (named : Option (Nat × Nat))
  /-- REFUSE (0x32), R50. -/
  | refuse (lane : Nat)
  /-- DEPART (0x33), R54. -/
  | depart (lane car : Nat)
  /-- LET OUT (0x34), R57. -/
  | letOut (lane : Nat)
  /-- READ LANE (0x35), R60. -/
  | readLane (lane : Nat)
  /-- CONFIGURE LANES (0x36), R59. -/
  | configureLanes (mask passTime : Nat)
  /-- READ ENTRY (0x41), R25. -/
  | readEntry (car : Nat)
  /-- LOOKUP TICKET (0x42), R26. -/
  | lookupTicket (ticket : Nat)
  /-- LOOKUP PLATE (0x43), R28. -/
  | lookupPlate (plate : List Nat)
  /-- LOOKUP STALL (0x44), R27. -/
  | lookupStall (field row post : Nat)
  /-- HOLD ENTRY (0x45), R30. -/
  | holdEntry (car : Nat)
  /-- MOVE ENTRY (0x46), R32: a target of 0xFF is none, a row of 0 names no stall. -/
  | moveEntry (car target row post : Nat)
  /-- AMEND ENTRY (0x47), R35: change flags in bits 0 (plate), 1 (class) and 2 (party). -/
  | amendEntry (car flags : Nat) (plate : List Nat) (cls party : Nat)
  /-- RELEASE ENTRY (0x48), R36. -/
  | releaseEntry (car : Nat)
  /-- RETIRE ENTRY (0x49), R37. -/
  | retireEntry (car force : Nat)
  /-- ENROL SET (0x61), R116. -/
  | enrolSet (serial : Nat)
  /-- REMOVE SET (0x62), R117. -/
  | removeSet (slot : Nat)
  /-- LEND SET (0x63), R118. -/
  | lendSet (car : Nat)
  /-- DOCK IN (0x64), R122. -/
  | dockIn (bay serial charge : Nat)
  /-- DOCK OUT (0x65), R125. -/
  | dockOut (bay : Nat)
  /-- CHARGE (0x66), R124. -/
  | charge (bay level : Nat)
  /-- SET FAULT (0x67), R126. -/
  | setFault (bay : Nat)
  /-- SERVICE SET (0x68), R127. -/
  | serviceSet (slot : Nat)
  /-- READ SET (0x69), R129. -/
  | readSet (selector number : Nat)
  /-- CONFIGURE SETS (0x6A), R115. -/
  | configureSets (readyLevel issueTime : Nat)
  /-- PLACE ORDER (0x71), R134: `count` is the line-count byte, which may differ from the lines sent. -/
  | placeOrder (car mode count : Nat) (lines : List LineArg)
  /-- CANCEL ORDER (0x72), R167. -/
  | cancelOrder (order : Nat)
  /-- STATION NEXT (0x73), R144. -/
  | stationNext (station : Nat)
  /-- LINE DONE (0x74), R145. -/
  | lineDone (order line : Nat)
  /-- READ ORDER (0x75), R152. -/
  | readOrder (order : Nat)
  /-- READ TRIP (0x76), R163. -/
  | readTrip (trip : Nat)
  /-- TRIP REPORT (0x77), R164. -/
  | tripReport (order outcome : Nat)
  /-- RECALL TRIP (0x78), R166. -/
  | recallTrip (trip : Nat)
  /-- CONFIGURE KITCHEN (0x79), R147. -/
  | configureKitchen (mask xoff xon prepLimit : Nat)
  /-- READ KITCHEN (0x7A), R153. -/
  | readKitchen
  /-- CONFIGURE TRIPS (0x7B), R157. -/
  | configureTrips (window : Nat)
  /-- READ STATUS (0xF1), R179: a select period of so many whole bytes. -/
  | readStatus (clocked : Nat)
  /-- FETCH REPLY (0xF2), R177: a select period of so many whole bytes. -/
  | fetchReply (clocked : Nat)
  /-- READ CAUSES (0xF3), R183. -/
  | readCauses
  /-- READ TOUCHED (0xF7), R42. -/
  | readTouched
  /-- IDENTIFY (0xF8), R185. -/
  | identify
  /-- CLOSE DAY (0xFA), R64. -/
  | closeDay
  /-- CLEAR CAUSES (0xF4), R184. -/
  | clearCauses (word : Nat)
  /-- SET CAUSE MASK (0xF6), R182. -/
  | setCauseMask (word : Nat)
  /-- READ TALLIES (0xFB), R62. -/
  | readTallies (group : Nat)
  /-- A taken frame whose code names no command, R175. -/
  | unknownCommand (code : Nat) (args : List Nat)
  /-- A select period, or a part of one, with the judging at its end, R172 to R174, R177: the whole bytes clocked, and what
  comes after them. SEL falls first where it is high. -/
  | commandFrameJudged (bytes : List Nat) (after : PeriodEnd)
  /-- Power-on or a low period of RESET, R186: whole, or edge by edge. -/
  | partReset (part : ResetPart)
  /-- A raw change of a loop input to a level, R45. -/
  | loopRawChange (lane : LaneNo) (loop : Loop) (level : LoopLevel)
  /-- The filtered arrival loop of a lane becomes occupied, R47. -/
  | arrivalOccupied (lane : LaneNo)
  /-- The filtered arrival loop of a lane clears, R47. -/
  | arrivalCleared (lane : LaneNo)
  /-- The filtered pass loop of a lane becomes occupied, R51, R53. -/
  | passOccupied (lane : LaneNo)
  /-- The filtered pass loop of a lane clears, R51, R55, R57. -/
  | passCleared (lane : LaneNo)
  /-- The pass timer of entry lane E0 to E3 runs out, R52. -/
  | entryPassTimerExpiry (lane : Fin 4)
  /-- The pass timer of exit lane X0 or X1 runs out, R56. -/
  | exitPassTimerExpiry (lane : Fin 2)
  /-- A rising edge of FPn, R95. -/
  | framePulse (field : FieldNo)
  /-- 1.5 nominal periods without an accepted pulse in TRACK or LOCKED, R97. -/
  | pulseOverdue (field : FieldNo)
  /-- A further nominal period in HOLDOVER, R97. -/
  | holdoverExpiry (field : FieldNo)
  /-- 1.5 nominal periods without a measuring pulse in SEEK with a reference, R101. -/
  | referenceDropped (field : FieldNo)
  /-- The accumulator reaches D, R91. -/
  | wordStrobe (field : FieldNo)
  /-- The accumulator reaches half of D after a strobe, R91. -/
  | wordClockFall (field : FieldNo)
  /-- A fall of CAROKn, R81. -/
  | carrierLoss (field : FieldNo)
  /-- A rise of CAROKn, R81. -/
  | carrierRise (field : FieldNo)
  /-- The issue timer of a set runs out, R121. -/
  | issueTimerExpiry (slot : SetHandle)
  /-- The prep timer of an order runs out, R150. -/
  | prepTimerExpiry (order : OrderHandle)
  /-- The gather timer of a trip runs out, R160. -/
  | gatherTimerExpiry (trip : TripHandle)
  deriving DecidableEq, Repr

end Sys2Proof
end

