-- ==== Sys2Proof/WellFormed.lean ====
section
/-! DEFINITION. Which commands a frame can carry: every argument within the width R187 and R188 give it. A range
that a command checks itself (and answers with BAD_ARG) is no part of this. -/

namespace Sys2Proof

/-- A number that one byte carries. -/
abbrev isByte (n : Nat) : Bool := n < 256
/-- A number that two bytes carry. -/
abbrev isWord (n : Nat) : Bool := n < 65536
/-- A number that three bytes carry. -/
abbrev isThree (n : Nat) : Bool := n < 16777216
/-- A number that four bytes carry. -/
abbrev isFour (n : Nat) : Bool := n < 4294967296
/-- A number that six bytes carry. -/
abbrev isSix (n : Nat) : Bool := n < 281474976710656
/-- A number that half a byte carries (the packed arguments of ADMIT, R187). -/
abbrev isNibble (n : Nat) : Bool := n < 16
/-- Eight positions of six bits each (R187). -/
abbrev isPlate (p : List Nat) : Bool := p.length == 8 && p.all (· < 64)
/-- Numbers that are bytes. -/
abbrev areBytes (bs : List Nat) : Bool := bs.all isByte

/-- The codes that name a command taken through a frame, in the order of R188's table. -/
def commandCodes : List Nat :=
  [0x11, 0x12, 0x13, 0x14, 0x15, 0x16, 0x21, 0x22, 0x23, 0x24, 0x25, 0x26, 0x27, 0x28, 0x29, 0x2A,
   0x31, 0x32, 0x33, 0x34, 0x35, 0x36, 0x41, 0x42, 0x43, 0x44, 0x45, 0x46, 0x47, 0x48, 0x49,
   0x61, 0x62, 0x63, 0x64, 0x65, 0x66, 0x67, 0x68, 0x69, 0x6A,
   0x71, 0x72, 0x73, 0x74, 0x75, 0x76, 0x77, 0x78, 0x79, 0x7A, 0x7B,
   0xF3, 0xF4, 0xF6, 0xF7, 0xF8, 0xFA, 0xFB]

/-- A code byte that reaches the code check of R175 and names no command: 0xF1 and 0xF2 never reach it (R173). -/
def isUnknownCode (code : Nat) : Bool :=
  isByte code && code != 0xF1 && code != 0xF2 && !commandCodes.contains code

/-- The command is one that the part's lines can carry. -/
def Instr.wellFormed : Instr → Bool
  | .configureField f r p t a c on off =>
    isByte f && isByte r && isByte p && isByte t && isByte a && isByte c && isByte on && isByte off
  | .closeRows f m => isByte f && isWord m
  | .openRows f m => isByte f && isWord m
  | .readField f r => isByte f && isByte r
  | .configureTimebase f w g j h q =>
    isByte f && isByte w && isByte g && isWord j && isByte h && isWord q
  | .readTimebase f => isByte f
  | .beginProgram f ns cs cf lg l oc ec =>
    isByte f && isWord ns && isByte cs && isThree cf && isByte lg && isWord l && isByte oc && isByte ec
  | .addSegment f k len t c r =>
    isByte f && isByte k && isThree len && isByte t && isByte c && isByte r
  | .openField f => isByte f
  | .startShow f => isByte f
  | .pauseShow f => isByte f
  | .resumeShow f => isByte f
  | .skipSegment f => isByte f
  | .endShow f => isByte f
  | .closeField f g => isByte f && isByte g
  | .readProgram f g => isByte f && isByte g
  | .admitCar l f c p t pl named =>
    isNibble l && isNibble f && isNibble c && isNibble p && isFour t && isPlate pl &&
      named.all (fun rp => isByte rp.1 && isByte rp.2)
  | .refuse l => isByte l
  | .depart l h => isByte l && isWord h
  | .letOut l => isByte l
  | .readLane l => isByte l
  | .configureLanes m t => isByte m && isByte t
  | .readEntry h => isWord h
  | .lookupTicket t => isFour t
  | .lookupPlate pl => isPlate pl
  | .lookupStall f r p => isByte f && isByte r && isByte p
  | .holdEntry h => isWord h
  | .moveEntry h f r p => isWord h && isByte f && isByte r && isByte p
  | .amendEntry h g pl c p => isWord h && isByte g && isPlate pl && isByte c && isByte p
  | .releaseEntry h => isWord h
  | .retireEntry h g => isWord h && isByte g
  | .enrolSet n => isSix n
  | .removeSet n => isByte n
  | .lendSet h => isWord h
  | .dockIn b n c => isByte b && isSix n && isByte c
  | .dockOut b => isByte b
  | .charge b c => isByte b && isByte c
  | .setFault b => isByte b
  | .serviceSet n => isByte n
  | .readSet k n => isByte k && isByte n
  | .configureSets r t => isByte r && isByte t
  | .placeOrder h m n ls =>
    isWord h && isByte m && isByte n && (0 < ls.length && ls.length ≤ 6) &&
      ls.all (fun l => isByte l.item && isByte l.quantity && isByte l.station)
  | .cancelOrder o => isByte o
  | .stationNext n => isByte n
  | .lineDone o l => isByte o && isByte l
  | .readOrder o => isByte o
  | .readTrip t => isByte t
  | .tripReport o c => isByte o && isByte c
  | .recallTrip t => isByte t
  | .configureKitchen m x n p => isByte m && isByte x && isByte n && isByte p
  | .readKitchen => true
  | .configureTrips w => isByte w
  | .readStatus n => decide (0 < n)
  | .fetchReply n => decide (0 < n)
  | .readCauses => true
  | .readTouched => true
  | .identify => true
  | .closeDay => true
  | .clearCauses w => isWord w
  | .setCauseMask w => isWord w
  | .readTallies g => isByte g
  | .unknownCommand c as => isUnknownCode c && areBytes as && isByte as.length
  | .commandFrameJudged bs _ => areBytes bs
  | .partReset _ => true
  | .loopRawChange _ _ _ => true
  | .arrivalOccupied _ => true
  | .arrivalCleared _ => true
  | .passOccupied _ => true
  | .passCleared _ => true
  | .entryPassTimerExpiry _ => true
  | .exitPassTimerExpiry _ => true
  | .framePulse _ => true
  | .pulseOverdue _ => true
  | .holdoverExpiry _ => true
  | .referenceDropped _ => true
  | .wordStrobe _ => true
  | .wordClockFall _ => true
  | .carrierLoss _ => true
  | .carrierRise _ => true
  | .issueTimerExpiry _ => true
  | .prepTimerExpiry _ => true
  | .gatherTimerExpiry _ => true

end Sys2Proof
end

