-- ==== Sys2Proof/Decode.lean ====
section
/-! DEFINITION. Frames to commands (`decodeFrame`, total on any bytes, R175 stages 2 and 3, R187, R188), commands to
frames (`Instr.frame`), and `decodeTableWord`, which answers none: no row of spec/opcode_table.json gives bits. -/

namespace Sys2Proof

/-- A number sent most significant byte first (R187). -/
def beNat (bytes : List Nat) : Nat :=
  bytes.foldl (fun acc b => acc * 256 + b) 0

/-- Two bytes of a number, most significant first (R187). -/
def be2 (n : Nat) : List Nat := [n / 256 % 256, n % 256]
/-- Three bytes of a number, most significant first (R187). -/
def be3 (n : Nat) : List Nat := [n / 65536 % 256, n / 256 % 256, n % 256]
/-- Four bytes of a number, most significant first (R187). -/
def be4 (n : Nat) : List Nat :=
  [n / 16777216 % 256, n / 65536 % 256, n / 256 % 256, n % 256]
/-- Six bytes of a number, most significant first (R187). -/
def be6 (n : Nat) : List Nat :=
  [n / 1099511627776 % 256, n / 4294967296 % 256, n / 16777216 % 256, n / 65536 % 256, n / 256 % 256, n % 256]

/-- The eight position codes of a plate's 48 bits, position 1 in the most significant six (R187). -/
def unpackPlate (n : Nat) : List Nat :=
  [n / 4398046511104 % 64, n / 68719476736 % 64, n / 1073741824 % 64, n / 16777216 % 64,
   n / 262144 % 64, n / 4096 % 64, n / 64 % 64, n % 64]

/-- The 48 bits of a plate's position codes (R187). -/
def packPlate (positions : List Nat) : Nat :=
  positions.foldl (fun acc p => acc * 64 + p) 0

/-- What the code check and the length check of R175 make of a frame. -/
inductive FrameReading where
  /-- The code names no command: answered UNKNOWN. -/
  | unknown
  /-- The length is not one of the code's: answered BAD_LENGTH. -/
  | badLength
  /-- The command the frame carries. -/
  | command (i : Instr)
  deriving DecidableEq, Repr

/-- The lines of PLACE ORDER from its argument bytes, three each (R188). -/
def linesOfBytes : List Nat → List LineArg
  | item :: quantity :: station :: rest => ⟨item, quantity, station⟩ :: linesOfBytes rest
  | _ => []

/-- The command of a code and its argument bytes (R188). -/
def decodeArgs (code : Nat) (args : List Nat) : FrameReading :=
  match code with
  | 0x11 => match args with
    | [f, r, p, t, a, c, on, off] => .command (.configureField f r p t a c on off)
    | _ => .badLength
  | 0x12 => match args with
    | [f, m1, m0] => .command (.closeRows f (beNat [m1, m0]))
    | _ => .badLength
  | 0x13 => match args with
    | [f, m1, m0] => .command (.openRows f (beNat [m1, m0]))
    | _ => .badLength
  | 0x14 => match args with
    | [f, r] => .command (.readField f r)
    | _ => .badLength
  | 0x15 => match args with
    | [f, w, g, j1, j0, h, q1, q0] =>
      .command (.configureTimebase f w g (beNat [j1, j0]) h (beNat [q1, q0]))
    | _ => .badLength
  | 0x16 => match args with
    | [f] => .command (.readTimebase f)
    | _ => .badLength
  | 0x21 => match args with
    | [f, n1, n0, cs, c2, c1, c0, lg, l1, l0, oc, ec] =>
      .command (.beginProgram f (beNat [n1, n0]) cs (beNat [c2, c1, c0]) lg (beNat [l1, l0]) oc ec)
    | _ => .badLength
  | 0x22 => match args with
    | [f, k, l2, l1, l0, t, c, r] => .command (.addSegment f k (beNat [l2, l1, l0]) t c r)
    | _ => .badLength
  | 0x23 => match args with
    | [f] => .command (.openField f)
    | _ => .badLength
  | 0x24 => match args with
    | [f] => .command (.startShow f)
    | _ => .badLength
  | 0x25 => match args with
    | [f] => .command (.pauseShow f)
    | _ => .badLength
  | 0x26 => match args with
    | [f] => .command (.resumeShow f)
    | _ => .badLength
  | 0x27 => match args with
    | [f] => .command (.skipSegment f)
    | _ => .badLength
  | 0x28 => match args with
    | [f] => .command (.endShow f)
    | _ => .badLength
  | 0x29 => match args with
    | [f, g] => .command (.closeField f g)
    | _ => .badLength
  | 0x2A => match args with
    | [f, n] => .command (.readProgram f n)
    | _ => .badLength
  | 0x31 => match args with
    | [lf, cp, t3, t2, t1, t0, p5, p4, p3, p2, p1, p0] =>
      .command (.admitCar (lf / 16) (lf % 16) (cp / 16) (cp % 16) (beNat [t3, t2, t1, t0])
        (unpackPlate (beNat [p5, p4, p3, p2, p1, p0])) none)
    | [lf, cp, t3, t2, t1, t0, p5, p4, p3, p2, p1, p0, row, post] =>
      .command (.admitCar (lf / 16) (lf % 16) (cp / 16) (cp % 16) (beNat [t3, t2, t1, t0])
        (unpackPlate (beNat [p5, p4, p3, p2, p1, p0])) (some (row, post)))
    | _ => .badLength
  | 0x32 => match args with
    | [l] => .command (.refuse l)
    | _ => .badLength
  | 0x33 => match args with
    | [l, h1, h0] => .command (.depart l (beNat [h1, h0]))
    | _ => .badLength
  | 0x34 => match args with
    | [l] => .command (.letOut l)
    | _ => .badLength
  | 0x35 => match args with
    | [l] => .command (.readLane l)
    | _ => .badLength
  | 0x36 => match args with
    | [m, t] => .command (.configureLanes m t)
    | _ => .badLength
  | 0x41 => match args with
    | [h1, h0] => .command (.readEntry (beNat [h1, h0]))
    | _ => .badLength
  | 0x42 => match args with
    | [t3, t2, t1, t0] => .command (.lookupTicket (beNat [t3, t2, t1, t0]))
    | _ => .badLength
  | 0x43 => match args with
    | [p5, p4, p3, p2, p1, p0] =>
      .command (.lookupPlate (unpackPlate (beNat [p5, p4, p3, p2, p1, p0])))
    | _ => .badLength
  | 0x44 => match args with
    | [f, r, p] => .command (.lookupStall f r p)
    | _ => .badLength
  | 0x45 => match args with
    | [h1, h0] => .command (.holdEntry (beNat [h1, h0]))
    | _ => .badLength
  | 0x46 => match args with
    | [h1, h0, f, r, p] => .command (.moveEntry (beNat [h1, h0]) f r p)
    | _ => .badLength
  | 0x47 => match args with
    | [h1, h0, g, p5, p4, p3, p2, p1, p0, c, party] =>
      .command (.amendEntry (beNat [h1, h0]) g (unpackPlate (beNat [p5, p4, p3, p2, p1, p0])) c party)
    | _ => .badLength
  | 0x48 => match args with
    | [h1, h0] => .command (.releaseEntry (beNat [h1, h0]))
    | _ => .badLength
  | 0x49 => match args with
    | [h1, h0, g] => .command (.retireEntry (beNat [h1, h0]) g)
    | _ => .badLength
  | 0x61 => match args with
    | [s5, s4, s3, s2, s1, s0] => .command (.enrolSet (beNat [s5, s4, s3, s2, s1, s0]))
    | _ => .badLength
  | 0x62 => match args with
    | [n] => .command (.removeSet n)
    | _ => .badLength
  | 0x63 => match args with
    | [h1, h0] => .command (.lendSet (beNat [h1, h0]))
    | _ => .badLength
  | 0x64 => match args with
    | [b, s5, s4, s3, s2, s1, s0, c] =>
      .command (.dockIn b (beNat [s5, s4, s3, s2, s1, s0]) c)
    | _ => .badLength
  | 0x65 => match args with
    | [b] => .command (.dockOut b)
    | _ => .badLength
  | 0x66 => match args with
    | [b, c] => .command (.charge b c)
    | _ => .badLength
  | 0x67 => match args with
    | [b] => .command (.setFault b)
    | _ => .badLength
  | 0x68 => match args with
    | [n] => .command (.serviceSet n)
    | _ => .badLength
  | 0x69 => match args with
    | [k, n] => .command (.readSet k n)
    | _ => .badLength
  | 0x6A => match args with
    | [r, t] => .command (.configureSets r t)
    | _ => .badLength
  | 0x71 => match args with
    | h1 :: h0 :: m :: n :: rest =>
      if rest.length % 3 = 0 ∧ 3 ≤ rest.length ∧ rest.length ≤ 18 then
        .command (.placeOrder (beNat [h1, h0]) m n (linesOfBytes rest))
      else .badLength
    | _ => .badLength
  | 0x72 => match args with
    | [o] => .command (.cancelOrder o)
    | _ => .badLength
  | 0x73 => match args with
    | [n] => .command (.stationNext n)
    | _ => .badLength
  | 0x74 => match args with
    | [o, l] => .command (.lineDone o l)
    | _ => .badLength
  | 0x75 => match args with
    | [o] => .command (.readOrder o)
    | _ => .badLength
  | 0x76 => match args with
    | [t] => .command (.readTrip t)
    | _ => .badLength
  | 0x77 => match args with
    | [o, c] => .command (.tripReport o c)
    | _ => .badLength
  | 0x78 => match args with
    | [t] => .command (.recallTrip t)
    | _ => .badLength
  | 0x79 => match args with
    | [m, xoff, xon, p] => .command (.configureKitchen m xoff xon p)
    | _ => .badLength
  | 0x7A => match args with
    | [] => .command .readKitchen
    | _ => .badLength
  | 0x7B => match args with
    | [w] => .command (.configureTrips w)
    | _ => .badLength
  | 0xF3 => match args with
    | [] => .command .readCauses
    | _ => .badLength
  | 0xF4 => match args with
    | [w1, w0] => .command (.clearCauses (beNat [w1, w0]))
    | _ => .badLength
  | 0xF6 => match args with
    | [w1, w0] => .command (.setCauseMask (beNat [w1, w0]))
    | _ => .badLength
  | 0xF7 => match args with
    | [] => .command .readTouched
    | _ => .badLength
  | 0xF8 => match args with
    | [] => .command .identify
    | _ => .badLength
  | 0xFA => match args with
    | [] => .command .closeDay
    | _ => .badLength
  | 0xFB => match args with
    | [g] => .command (.readTallies g)
    | _ => .badLength
  | _ => .unknown

/-- The command of a well-formed frame: the code byte, the length byte, the arguments (R175, R188). Whether the
length byte counts the arguments is judged before (R174); its place in the frame is passed over here. -/
def decodeFrame : List Nat → FrameReading
  | code :: _ :: args => decodeArgs code args
  | _ => .unknown

/-- A frame: the code byte, the length byte, the argument bytes (R188). -/
def frameOf (code : Nat) (args : List Nat) : List Nat :=
  code :: args.length :: args

/-- The bytes of PLACE ORDER's lines (R188). -/
def bytesOfLines (lines : List LineArg) : List Nat :=
  lines.flatMap (fun l => [l.item, l.quantity, l.station])

/-- The frame that carries a command, as R187 and R188 lay it out; no bytes for an event of a line or timer, and
none for the select periods that are no frames. -/
def Instr.frame : Instr → List Nat
  | .configureField f r p t a c on off => frameOf 0x11 [f, r, p, t, a, c, on, off]
  | .closeRows f m => frameOf 0x12 (f :: be2 m)
  | .openRows f m => frameOf 0x13 (f :: be2 m)
  | .readField f r => frameOf 0x14 [f, r]
  | .configureTimebase f w g j h q => frameOf 0x15 ([f, w, g] ++ be2 j ++ [h] ++ be2 q)
  | .readTimebase f => frameOf 0x16 [f]
  | .beginProgram f ns cs cf lg l oc ec =>
    frameOf 0x21 ([f] ++ be2 ns ++ [cs] ++ be3 cf ++ [lg] ++ be2 l ++ [oc, ec])
  | .addSegment f k len t c r => frameOf 0x22 ([f, k] ++ be3 len ++ [t, c, r])
  | .openField f => frameOf 0x23 [f]
  | .startShow f => frameOf 0x24 [f]
  | .pauseShow f => frameOf 0x25 [f]
  | .resumeShow f => frameOf 0x26 [f]
  | .skipSegment f => frameOf 0x27 [f]
  | .endShow f => frameOf 0x28 [f]
  | .closeField f g => frameOf 0x29 [f, g]
  | .readProgram f n => frameOf 0x2A [f, n]
  | .admitCar l f c p t pl named =>
    frameOf 0x31 ([l * 16 + f, c * 16 + p] ++ be4 t ++ be6 (packPlate pl) ++
      match named with
      | none => []
      | some rp => [rp.1, rp.2])
  | .refuse l => frameOf 0x32 [l]
  | .depart l h => frameOf 0x33 (l :: be2 h)
  | .letOut l => frameOf 0x34 [l]
  | .readLane l => frameOf 0x35 [l]
  | .configureLanes m t => frameOf 0x36 [m, t]
  | .readEntry h => frameOf 0x41 (be2 h)
  | .lookupTicket t => frameOf 0x42 (be4 t)
  | .lookupPlate pl => frameOf 0x43 (be6 (packPlate pl))
  | .lookupStall f r p => frameOf 0x44 [f, r, p]
  | .holdEntry h => frameOf 0x45 (be2 h)
  | .moveEntry h f r p => frameOf 0x46 (be2 h ++ [f, r, p])
  | .amendEntry h g pl c p => frameOf 0x47 (be2 h ++ [g] ++ be6 (packPlate pl) ++ [c, p])
  | .releaseEntry h => frameOf 0x48 (be2 h)
  | .retireEntry h g => frameOf 0x49 (be2 h ++ [g])
  | .enrolSet n => frameOf 0x61 (be6 n)
  | .removeSet n => frameOf 0x62 [n]
  | .lendSet h => frameOf 0x63 (be2 h)
  | .dockIn b n c => frameOf 0x64 ([b] ++ be6 n ++ [c])
  | .dockOut b => frameOf 0x65 [b]
  | .charge b c => frameOf 0x66 [b, c]
  | .setFault b => frameOf 0x67 [b]
  | .serviceSet n => frameOf 0x68 [n]
  | .readSet k n => frameOf 0x69 [k, n]
  | .configureSets r t => frameOf 0x6A [r, t]
  | .placeOrder h m n ls => frameOf 0x71 (be2 h ++ [m, n] ++ bytesOfLines ls)
  | .cancelOrder o => frameOf 0x72 [o]
  | .stationNext n => frameOf 0x73 [n]
  | .lineDone o l => frameOf 0x74 [o, l]
  | .readOrder o => frameOf 0x75 [o]
  | .readTrip t => frameOf 0x76 [t]
  | .tripReport o c => frameOf 0x77 [o, c]
  | .recallTrip t => frameOf 0x78 [t]
  | .configureKitchen m xoff xon p => frameOf 0x79 [m, xoff, xon, p]
  | .readKitchen => frameOf 0x7A []
  | .configureTrips w => frameOf 0x7B [w]
  | .readCauses => frameOf 0xF3 []
  | .clearCauses w => frameOf 0xF4 (be2 w)
  | .setCauseMask w => frameOf 0xF6 (be2 w)
  | .readTouched => frameOf 0xF7 []
  | .identify => frameOf 0xF8 []
  | .closeDay => frameOf 0xFA []
  | .readTallies g => frameOf 0xFB [g]
  | .unknownCommand c as => frameOf c as
  | .readStatus _ | .fetchReply _ | .commandFrameJudged _ _ | .partReset _ | .loopRawChange _ _ _
  | .arrivalOccupied _ | .arrivalCleared _ | .passOccupied _ | .passCleared _
  | .entryPassTimerExpiry _ | .exitPassTimerExpiry _ | .framePulse _ | .pulseOverdue _
  | .holdoverExpiry _ | .referenceDropped _ | .wordStrobe _ | .wordClockFall _ | .carrierLoss _
  | .carrierRise _ | .issueTimerExpiry _ | .prepTimerExpiry _ | .gatherTimerExpiry _ => []

/-- A row that is a command frame of the host: one that has bytes (R188). -/
def Instr.isFrame (i : Instr) : Bool := !i.frame.isEmpty

/-- The command that a word spells by the bits of spec/opcode_table.json. Every row there has an empty list of
bit fields and no fixed bits, so no word spells any: the frames of R188 are read by `decodeFrame`. -/
def decodeTableWord (_nbits _w : Nat) : Option Instr := none

end Sys2Proof
end

