-- ==== Sys2Proof/Config.lean ====
section
/-! DEFINITION. What the manual leaves open: free values without a body, so that nothing can be proved of
their value. Each is applied to the plain counter `freeCount` of the state. -/

namespace Sys2Proof

/-- How long the work of a taken command takes. R175 says only that completion comes within 50 µs of the rise
of SEL; the bound is kept where the value is used (`workCycles`). Log entry 2. -/
opaque Config.workTime : Nat → Nat

/-- Which of the events that fall in one MCLK cycle is taken first. The manual says what each event finds after
the other and leaves the order open (R97, R121, R150, R160, R175). Log entry 3. -/
opaque Config.eventChoice : Nat → Nat

end Sys2Proof
end

