-- ==== Sys2Proof/Machine/State.lean ====
section
/-! DEFINITION. The state of the part: every record, list, counter, mode and pin the manual gives it, as plain
data, and its value after part reset. INVENTORY.md lists each with its rule. -/

namespace Sys2Proof.Machine

/-! ### Field units (chapter 1) -/

/-- A stall (row, post): rows 1 to 16 and posts 1 to 32, held by their places counted from 0. -/
structure Stall where
  rowIx : Fin 16
  postIx : Fin 32
  deriving DecidableEq, Repr

/-- The stall classes of cars (R4). -/
inductive StallClass where
  | standard
  | tall
  | accessible
  deriving DecidableEq, Repr

/-- One field unit: configuration (R2), closed rows (R5), stall map (R7), full sign (R16). -/
structure FieldUnit where
  /-- R, 0 while the field is unconfigured. -/
  rows : Nat := 0
  /-- P. -/
  posts : Nat := 0
  /-- T, the tall-row boundary. -/
  tall : Nat := 0
  /-- A, the accessible posts. -/
  accessible : Nat := 0
  channel : Option Nat := none
  signOn : Nat := 0
  signOff : Nat := 0
  /-- Closed rows, bit 0 for row 1. -/
  closed : BitVec 16 := 0
  /-- The stall map, each place free or with the handle it holds, at `Stall.index`. -/
  stalls : Vector (Option CarHandle) 512 := Vector.replicate 512 none
  /-- The level of FULLn. -/
  full : Bool := false
  deriving DecidableEq, Repr

/-! ### Lot register (chapter 2) -/

/-- One position of a plate: one of 37 symbols, BLANK or UNREAD (R24). -/
inductive PlatePos where
  | symbol (code : Fin 37)
  | blank
  | unread
  deriving DecidableEq, Repr

/-- The states of a live entry (R20); an entry that is not live is VACANT. -/
inductive CarState where
  | arriving
  | present
  | leaving
  deriving DecidableEq, Repr

/-- The mark on an entry's set (R20, R114). -/
inductive SetMark where
  | issuing
  | lent
  deriving DecidableEq, Repr

/-- What a live car entry holds (R20). -/
structure Car where
  state : CarState
  field : FieldNo
  stall : Stall
  cls : StallClass
  ticket : Nat
  /-- Eight positions, or absent. -/
  plate : Option (List PlatePos)
  party : Nat
  /-- The entry lane that admitted the car, 0 to 3. -/
  lane : Nat
  /-- The admission serial stamped on the entry (R23). -/
  serial : Nat
  /-- The set lent or being issued to the car. -/
  lent : Option (SetHandle × SetMark) := none
  /-- Open orders in placement order. -/
  orders : List OrderHandle := []
  held : Bool := false
  deriving DecidableEq, Repr

/-- One slot of the lot register: VACANT when it holds no car (R20). -/
structure Entry where
  car : Option Car := none
  touched : Bool := false
  deriving DecidableEq, Repr

/-! ### Lanes (chapter 3) -/

/-- The states of a lane; an exit lane is never REFUSED (R44). -/
inductive LaneState where
  | idle
  | waiting
  | opened
  | refused
  deriving DecidableEq, Repr

/-- A loop input: its filtered level, its raw level, and the milliseconds left until the raw level passes the
filter, when it differs (R45). -/
structure LoopInput where
  level : LoopLevel := .clear
  raw : LoopLevel := .clear
  filter : Option Nat := none
  deriving DecidableEq, Repr

/-- One lane record (R44). -/
structure Lane where
  state : LaneState := .idle
  arrival : LoopInput := {}
  pass : LoopInput := {}
  /-- The barrier line BARn: raised is the line high. -/
  barrier : Bool := false
  /-- Seconds. -/
  passTime : Nat := 20
  /-- Milliseconds that remain while the pass timer runs. -/
  timer : Option Nat := none
  served : Option CarHandle := none
  begun : Bool := false
  deriving DecidableEq, Repr

/-! ### Show programs (chapter 4) -/

/-- The kinds of segments (R66). -/
inductive SegmentKind where
  | picture
  | intermission
  deriving DecidableEq, Repr

/-- One segment of a program (R66). -/
structure Segment where
  kind : SegmentKind
  length : Nat
  title : Nat
  cues : BitVec 4
  runners : Bool
  deriving DecidableEq, Repr

/-- The header of a program (R66). -/
structure Header where
  /-- Samples per frame N_s. -/
  ns : Nat
  /-- The cutoff segment, or NONE. -/
  cutoffSegment : Option Nat
  cutoffFrames : Nat
  /-- The intermission lead in frames. -/
  lead : Nat
  openCues : BitVec 4
  endCues : BitVec 4
  deriving DecidableEq, Repr

/-- The program record in its three conditions (R67). -/
inductive ProgramRecord where
  | empty
  | draft (header : Header) (segments : List Segment)
  | loaded (header : Header) (segments : List Segment)
  deriving DecidableEq, Repr

/-- Why a field is PAUSED (R70). -/
inductive PauseReason where
  | host
  | stall
  deriving DecidableEq, Repr

/-- The states of a field; a pause reason stands only in PAUSED (R70). -/
inductive FieldState where
  | dark
  | opened
  | running
  | paused (reason : PauseReason)
  | ended
  deriving DecidableEq, Repr

/-- One program unit (R66, R70, R80, R81). -/
structure ProgramUnit where
  record : ProgramRecord := .empty
  state : FieldState := .dark
  /-- The segment index. -/
  segment : Nat := 0
  /-- The frame in segment. -/
  frame : Nat := 0
  /-- The levels of CUEn.0 to CUEn.3. -/
  cues : BitVec 4 := 0
  /-- TXENn. -/
  txen : Bool := false
  /-- The level of the input CAROKn. -/
  carrier : Bool := false
  deriving DecidableEq, Repr

/-! ### Timebases (chapter 5) -/

/-- The states of a timebase (R90, R93). -/
inductive TimebaseState where
  | stopped
  | free
  | seek
  | track
  | locked
  | holdover
  | lost
  deriving DecidableEq, Repr

/-- The five settings of a timebase and their defaults (R109). -/
structure LockSettings where
  /-- W -/
  window : Nat := 8
  /-- G -/
  gain : Nat := 4
  /-- J -/
  jump : Nat := 64
  /-- H -/
  holdover : Nat := 12
  reacquire : Nat := 96
  deriving DecidableEq, Repr

/-- One timebase record (R90) with the levels of its two output lines (R91, R92). -/
structure Timebase where
  state : TimebaseState := .stopped
  /-- D -/
  divisor : Nat := 131072
  /-- A -/
  accumulator : Nat := 0
  /-- P_nom -/
  nominal : Nat := 0
  reference : Bool := false
  /-- MCLK cycles since the last accepted pulse. -/
  gap : Nat := 0
  /-- S, word strobes since the last accepted pulse. -/
  strobes : Nat := 0
  /-- Word strobes since SEEK began, modulo N_s. -/
  marker : Nat := 0
  /-- E -/
  slip : Int := 0
  run : Nat := 0
  missed : Nat := 0
  /-- The reacquire count, or inactive. -/
  reacquire : Option Nat := none
  /-- RANGE -/
  range : Bool := false
  lastGap : Nat := 0
  lastStrobes : Nat := 0
  settings : LockSettings := {}
  /-- The level of WCKn. -/
  wordClock : Bool := false
  /-- The level of FMKn. -/
  marked : Bool := false
  deriving DecidableEq, Repr

/-! ### Receiver sets (chapter 6) -/

/-- The states of a set slot (R112). -/
inductive SetState where
  | unenrolled
  | absent
  | charging
  | ready
  | issuing
  | lent
  | lost
  | faulty
  deriving DecidableEq, Repr

/-- One set slot (R112). An UNENROLLED slot holds no serial, which is written 0: serials run from 1. -/
structure SetSlot where
  state : SetState := .unenrolled
  serial : Nat := 0
  bay : Option BayNo := none
  charge : Nat := 0
  car : Option CarHandle := none
  channel : Option Nat := none
  /-- Milliseconds that remain while the issue timer runs. -/
  timer : Option Nat := none
  deriving DecidableEq, Repr

/-! ### Orders, stations and trips (chapters 7 and 8) -/

/-- Release modes (R131). -/
inductive ReleaseMode where
  | now
  | atIntermission
  deriving DecidableEq, Repr

/-- The stages of an order (R131). -/
inductive Stage where
  | parked
  | queued
  | preparing
  | ready
  | onTrip
  deriving DecidableEq, Repr

/-- The states of a line (R131). -/
inductive LineState where
  | waiting
  | started
  | finished
  deriving DecidableEq, Repr

/-- One line of an order (R131). -/
structure OrderLine where
  item : Nat
  quantity : Nat
  station : StationNo
  state : LineState
  deriving DecidableEq, Repr

/-- One order (R131). -/
structure Order where
  car : Option CarHandle
  field : FieldNo
  mode : ReleaseMode
  stage : Stage
  due : Bool
  cancelPending : Bool
  late : Bool
  /-- The placement serial. -/
  serial : Nat
  trip : Option TripHandle
  /-- Milliseconds that remain while the prep timer runs. -/
  timer : Option Nat
  lines : List OrderLine
  deriving DecidableEq, Repr

/-- One prep station: its queue of (order, line number), oldest first, and its thresholds (R143, R147). -/
structure Station where
  queue : List (OrderHandle × Nat) := []
  xoff : Nat := 40
  xon : Nat := 24
  deriving DecidableEq, Repr

/-- The states of a trip (R155). -/
inductive TripState where
  | idle
  | gathering
  | fieldHold
  | out
  deriving DecidableEq, Repr

/-- One runner trip (R155). -/
structure Trip where
  state : TripState := .idle
  field : Option FieldNo := none
  /-- In joining order. -/
  orders : List OrderHandle := []
  /-- Milliseconds that remain while the gather timer runs. -/
  timer : Option Nat := none
  deriving DecidableEq, Repr

/-! ### Attention unit and port (chapter 9) -/

/-- The kinds of ORDER notes (R181). -/
inductive NoteKind where
  | late
  | cancelSettled
  | tooLate
  deriving DecidableEq, Repr

/-- The causes, their details and the mask (R180 to R182). The cause word's bit numbers are R189's. -/
structure Attention where
  causes : BitVec 10 := 0
  mask : BitVec 10 := BitVec.allOnes 10
  /-- One flag per lane. -/
  tailgate : BitVec 6 := 0
  /-- One flag per field. -/
  segment : BitVec 4 := 0
  /-- One flag per field. -/
  sound : BitVec 4 := 0
  /-- Bit 0 TIMEOUT, 1 REMOVAL, 2 FOREIGN. -/
  setKinds : BitVec 3 := 0
  /-- One dispatch flag per trip. -/
  dispatched : BitVec 8 := 0
  /-- Bit 0 FRAME_ERROR, 1 BUSY_FRAME, 2 REPLY_DISCARDED. -/
  portKinds : BitVec 3 := 0
  /-- ORDER notes, oldest first. -/
  notes : List (OrderHandle × NoteKind) := []
  overflow : Bool := false
  deriving DecidableEq, Repr

/-- A frame that has been taken and whose command has not completed (R175): its bytes, and the MCLK cycles left
to its completion. -/
structure TakenFrame where
  bytes : List Nat
  left : Nat
  deriving DecidableEq, Repr

/-- A select period under way (R172, R174, R177). -/
structure Period where
  /-- The whole bytes received. -/
  bytes : List Nat := []
  /-- The bits received of the byte under way, most significant first. -/
  bits : List Bool := []
  /-- The byte SDO carries through the byte under way. -/
  out : Nat := 0
  /-- The level SDO is at since SEL fell or SCK last fell. -/
  level : Bool := false
  /-- Whether SCK is high, from its first edge of the period on: its level at the fall of SEL decides nothing. -/
  sckHigh : Option Bool := none
  /-- BUSY as it stood at the last bit of the last whole byte. -/
  busyAtLastBit : Bool := false
  /-- The reply that was held at the end of the first byte of a FETCH REPLY. -/
  fetched : Option (List Nat) := none
  deriving DecidableEq, Repr

/-- The select line as the port sees it (R172, R186). -/
inductive SelectLine where
  /-- SEL is high: no select period. -/
  | high
  /-- SEL is low: a select period is under way. -/
  | low (period : Period)
  /-- SEL is low since before RESET rose: the period is set aside whole. -/
  | aside
  /-- RESET is low: the port takes no select period. -/
  | inReset
  deriving DecidableEq, Repr

/-- The command port (R172 to R177). BUSY is the presence of `taken`, REPLY_READY that of `reply`. -/
structure Port where
  taken : Option TakenFrame := none
  /-- The reply frame held. -/
  reply : Option (List Nat) := none
  /-- The select line, and with it whether RESET is low (R172, R186). -/
  select : SelectLine := .high
  /-- The whole bytes SDO has carried in the select period under way, or in the last one (R172). -/
  sdo : List Nat := []
  deriving DecidableEq, Repr

/-! ### The state -/

/-- The state of the part, and the queue of the commands that wait. -/
structure State where
  fieldUnits : Vector FieldUnit 4
  entries : Vector Entry 1024
  /-- The admission serial counter (R23). -/
  serialCounter : Nat
  lanes : Vector Lane 6
  /-- The 64 tallies (R61), at `Tally.index`. -/
  tallies : Vector Nat 64
  programs : Vector ProgramUnit 4
  timebases : Vector Timebase 4
  sets : Vector SetSlot 128
  /-- The bay map (R113). -/
  bays : Vector (Option SetHandle) 128
  /-- Percent (R115). -/
  readyLevel : Nat
  /-- Seconds (R115). -/
  issueTime : Nat
  orders : Vector (Option Order) 256
  /-- The parked list, oldest first (R136). -/
  parked : List OrderHandle
  /-- The placement counter (R135). -/
  placement : Nat
  stations : Vector Station 4
  /-- Minutes (R147). -/
  prepLimit : Nat
  /-- The kitchen is in HOLD, KHOLD high (R148). -/
  hold : Bool
  trips : Vector Trip 8
  /-- The ready list, oldest first (R156). -/
  readyList : List OrderHandle
  /-- The gather window in seconds (R157). -/
  window : Nat
  attention : Attention
  port : Port
  /-- MCLK cycles of the present millisecond (R1). -/
  phase : Nat
  /-- The model's own: how many free values have been drawn. -/
  freeCount : Nat
  /-- The commands that wait, first in first out. -/
  pending : List Instr
  deriving DecidableEq, Repr

/-- Nothing in the manual stops the part: a command it turns away is answered with a result code (R178), and an
event that finds nothing to change is ignored (spec/00_scope.md, 6.6). So no fault has a name. -/
inductive Fault where
  deriving DecidableEq, Repr

/-- Why the model has no next state. -/
inductive Refusal where
  /-- Raised by `exec` for a command that has no meaning yet; no arm raises it. Safe: the model stops where the
  part goes on. -/
  | notModelled (mnemonic : String)
  deriving DecidableEq, Repr

/-- The part right after part reset: R2, R18, R43, R44, R65, R89, R111, R130, R154, R171, R186. The input pins and
the millisecond phase are log entries 5 and 6. -/
def State.reset : State where
  fieldUnits := Vector.replicate 4 {}
  entries := Vector.replicate 1024 {}
  serialCounter := 0
  lanes := Vector.replicate 6 {}
  tallies := Vector.replicate 64 0
  programs := Vector.replicate 4 {}
  timebases := Vector.replicate 4 {}
  sets := Vector.replicate 128 {}
  bays := Vector.replicate 128 none
  readyLevel := 80
  issueTime := 45
  orders := Vector.replicate 256 none
  parked := []
  placement := 0
  stations := Vector.replicate 4 {}
  prepLimit := 12
  hold := false
  trips := Vector.replicate 8 {}
  readyList := []
  window := 30
  attention := {}
  port := {}
  phase := 0
  freeCount := 0
  pending := []

end Sys2Proof.Machine
end

