-- ==== Sys2Proof/Machine/Ops.lean ====
section
/-! DEFINITION. The named reads and writes of the state's records. Every meaning reaches a table through these. -/

namespace Sys2Proof.Machine

/-- The field unit of a field. -/
def State.unit (s : State) (f : FieldNo) : FieldUnit := look s.fieldUnits f
/-- Writes a field unit. -/
def State.setUnit (s : State) (f : FieldNo) (u : FieldUnit) : State :=
  { s with fieldUnits := put s.fieldUnits f u }

/-- The slot of the lot register under a handle. -/
def State.entry (s : State) (h : CarHandle) : Entry := look s.entries h
/-- Writes a slot of the lot register. -/
def State.setEntry (s : State) (h : CarHandle) (e : Entry) : State :=
  { s with entries := put s.entries h e }
/-- The live entry under a handle, if the slot is not VACANT. -/
def State.car (s : State) (h : CarHandle) : Option Car := (s.entry h).car
/-- Writes the live entry of a slot, or makes it VACANT; the touched flag stands. -/
def State.setCar (s : State) (h : CarHandle) (c : Option Car) : State :=
  s.setEntry h { s.entry h with car := c }
/-- Changes a live entry; a VACANT slot stands as it is. -/
def State.modCar (s : State) (h : CarHandle) (g : Car → Car) : State :=
  s.setCar h ((s.car h).map g)

/-- A lane record. -/
def State.lane (s : State) (l : LaneNo) : Lane := look s.lanes l
/-- Writes a lane record. -/
def State.setLane (s : State) (l : LaneNo) (x : Lane) : State :=
  { s with lanes := put s.lanes l x }

/-- The program unit of a field. -/
def State.program (s : State) (f : FieldNo) : ProgramUnit := look s.programs f
/-- Writes a program unit. -/
def State.setProgram (s : State) (f : FieldNo) (p : ProgramUnit) : State :=
  { s with programs := put s.programs f p }

/-- The timebase of a field. -/
def State.timebase (s : State) (f : FieldNo) : Timebase := look s.timebases f
/-- Writes a timebase. -/
def State.setTimebase (s : State) (f : FieldNo) (t : Timebase) : State :=
  { s with timebases := put s.timebases f t }

/-- A set slot. -/
def State.slot (s : State) (h : SetHandle) : SetSlot := look s.sets h
/-- Writes a set slot. -/
def State.setSlot (s : State) (h : SetHandle) (x : SetSlot) : State :=
  { s with sets := put s.sets h x }
/-- What the bay map holds for a bay. -/
def State.bay (s : State) (b : BayNo) : Option SetHandle := look s.bays b
/-- Writes the bay map at a bay. -/
def State.setBay (s : State) (b : BayNo) (x : Option SetHandle) : State :=
  { s with bays := put s.bays b x }

/-- The order in a slot of the book, if the slot is not free. -/
def State.order (s : State) (o : OrderHandle) : Option Order := look s.orders o
/-- Writes a slot of the book. -/
def State.setOrder (s : State) (o : OrderHandle) (x : Option Order) : State :=
  { s with orders := put s.orders o x }
/-- Changes an order; a free slot stands as it is. -/
def State.modOrder (s : State) (o : OrderHandle) (g : Order → Order) : State :=
  s.setOrder o ((s.order o).map g)

/-- A station. -/
def State.station (s : State) (n : StationNo) : Station := look s.stations n
/-- Writes a station. -/
def State.setStation (s : State) (n : StationNo) (x : Station) : State :=
  { s with stations := put s.stations n x }
/-- The backlog of a station: the lines in its queue (R143). -/
def State.backlog (s : State) (n : StationNo) : Nat := (s.station n).queue.length

/-- A trip. -/
def State.trip (s : State) (t : TripHandle) : Trip := look s.trips t
/-- Writes a trip. -/
def State.setTrip (s : State) (t : TripHandle) (x : Trip) : State :=
  { s with trips := put s.trips t x }

/-- The lowest-numbered handle that a test picks out (spec/00_scope.md, 6.2). -/
def lowest {n : Nat} (p : Fin n → Bool) : Option (Fin n) := (List.finRange n).find? p

/-- How many handles a test picks out. -/
def countOf {n : Nat} (p : Fin n → Bool) : Nat := (List.finRange n).countP p

/-- A state change made for each item of a list in turn. -/
def State.forEach {α : Type} (s : State) (xs : List α) (g : α → State → State) : State :=
  xs.foldl (fun acc x => g x acc) s

/-- Inserts an item behind every item of the same or a lower rank. -/
def insertByRank {α : Type} (rank : α → Nat) (x : α) : List α → List α
  | [] => [x]
  | y :: rest => if rank y ≤ rank x then y :: insertByRank rank x rest else x :: y :: rest

/-- A list in ascending rank; items of equal rank keep their order. -/
def sortByRank {α : Type} (rank : α → Nat) (xs : List α) : List α :=
  xs.foldl (fun acc x => insertByRank rank x acc) []

/-- A milliseconds count that runs goes down by one and holds at 0, where its expiry is due (R1). -/
def countDown (timer : Option Nat) : Option Nat := timer.map (· - 1)

/-- The lane number of an entry lane E0 to E3 (spec/00_scope.md, 6.2). -/
def entryLane (l : Fin 4) : LaneNo := ⟨l.val, by omega⟩
/-- The lane number of an exit lane X0 or X1 (spec/00_scope.md, 6.2). -/
def exitLane (l : Fin 2) : LaneNo := ⟨4 + l.val, by omega⟩
/-- Lanes 0 to 3 are of kind ENTRY (R44). -/
def isEntryLane (l : LaneNo) : Bool := l.val < 4

end Sys2Proof.Machine
end

