-- ==== Sys2Proof/Machine/Flags.lean ====
section
/-! DEFINITION. Tallies, causes, touched flags, the day-open indication and the status byte. -/

namespace Sys2Proof.Machine

/-! ### The tally bank (R61) -/

/-- The tallies of one field, in the order of spec/10, tally groups. -/
inductive FieldTally where
  | carsAdmitted
  | personsAdmitted
  | departed
  | withdrawn
  | lockLosses
  | reacquireFailures
  | pulseGlitches
  | carrierLosses
  deriving DecidableEq, Repr

/-- The tallies of one lane. -/
inductive LaneTally where
  | balks
  | tailgates
  | noPass
  deriving DecidableEq, Repr

/-- The kitchen tallies. -/
inductive KitchenTally where
  | placed
  | delivered
  | undeliverable
  | cancelled
  | late
  | wasteLines
  | stationDeferrals
  deriving DecidableEq, Repr

/-- The set tallies. -/
inductive SetTally where
  | lends
  | returns
  | issueTimeouts
  | unlawfulRemovals
  | lost
  deriving DecidableEq, Repr

/-- The 64 tallies of the bank. -/
inductive Tally where
  | field (f : FieldNo) (k : FieldTally)
  | lane (l : LaneNo) (k : LaneTally)
  | unidentifiedExits (x : Fin 2)
  | kitchen (k : KitchenTally)
  | sets (k : SetTally)
  deriving DecidableEq, Repr

/-- The place of a field tally in its group. -/
def fieldTallyIx : FieldTally → Fin 8
  | .carsAdmitted => 0
  | .personsAdmitted => 1
  | .departed => 2
  | .withdrawn => 3
  | .lockLosses => 4
  | .reacquireFailures => 5
  | .pulseGlitches => 6
  | .carrierLosses => 7

/-- The place of a lane tally among its lane's. -/
def laneTallyIx : LaneTally → Fin 3
  | .balks => 0
  | .tailgates => 1
  | .noPass => 2

/-- The place of a kitchen tally in its group. -/
def kitchenTallyIx : KitchenTally → Fin 7
  | .placed => 0
  | .delivered => 1
  | .undeliverable => 2
  | .cancelled => 3
  | .late => 4
  | .wasteLines => 5
  | .stationDeferrals => 6

/-- The place of a set tally in its group. -/
def setTallyIx : SetTally → Fin 5
  | .lends => 0
  | .returns => 1
  | .issueTimeouts => 2
  | .unlawfulRemovals => 3
  | .lost => 4

/-- The place of a tally in the bank: four field groups of 8, the lane group of 20, the kitchen group of 7 and the
set group of 5, each in the order R190 reads them. -/
def Tally.index : Tally → Fin 64
  | .field f k => ⟨f.val * 8 + (fieldTallyIx k).val, by omega⟩
  | .lane l k => ⟨32 + l.val * 3 + (laneTallyIx k).val, by omega⟩
  | .unidentifiedExits x => ⟨50 + x.val, by omega⟩
  | .kitchen k => ⟨52 + (kitchenTallyIx k).val, by omega⟩
  | .sets k => ⟨59 + (setTallyIx k).val, by omega⟩

/-- The value of a tally. -/
def State.tally (s : State) (t : Tally) : Nat := look s.tallies t.index

/-- Adds to a tally, which stays at 65,535 once it gets there (R61). -/
def State.count (s : State) (t : Tally) (n : Nat := 1) : State :=
  { s with tallies := put s.tallies t.index (min 65535 (s.tally t + n)) }

/-! ### Causes (R180 to R182) -/

/-- The ten causes. -/
inductive Cause where
  | lane
  | tailgate
  | segment
  | sound
  | sets
  | trip
  | order
  | kitchen
  | touched
  | port
  deriving DecidableEq, Repr

/-- The bit of a cause in the cause word (R189). -/
def causeBit : Cause → Nat
  | .lane => 0
  | .tailgate => 1
  | .segment => 2
  | .sound => 3
  | .sets => 4
  | .trip => 5
  | .order => 6
  | .kitchen => 7
  | .touched => 8
  | .port => 9

/-- The kinds of the SET detail (R180, R189). -/
inductive SetKind where
  | timeout
  | removal
  | foreign
  deriving DecidableEq, Repr

/-- The bit of a SET kind in its detail (R189). -/
def setKindBit : SetKind → Nat
  | .timeout => 0
  | .removal => 1
  | .foreign => 2

/-- The port flags (R174, R175, R180). -/
inductive PortKind where
  | frameError
  | busyFrame
  | replyDiscarded
  deriving DecidableEq, Repr

/-- The bit of a port flag in the PORT detail (R189). -/
def portKindBit : PortKind → Nat
  | .frameError => 0
  | .busyFrame => 1
  | .replyDiscarded => 2

/-- A flag word with one flag set. -/
def setFlag {w : Nat} (v : BitVec w) (i : Nat) : BitVec w := v ||| BitVec.twoPow w i

/-- The attention unit with a cause raised: a flag already set stays set (R180). -/
def Attention.withCause (a : Attention) (c : Cause) : Attention :=
  { a with causes := setFlag a.causes (causeBit c) }

/-- Whether a cause is set. -/
def State.raised (s : State) (c : Cause) : Bool := s.attention.causes.getLsbD (causeBit c)

/-- Raises LANE, KITCHEN or TOUCHED, which have no detail. -/
def State.raise (s : State) (c : Cause) : State :=
  { s with attention := s.attention.withCause c }
/-- Raises TAILGATE for a lane. -/
def State.raiseTailgate (s : State) (l : LaneNo) : State :=
  { s with attention := { s.attention.withCause .tailgate with tailgate := setFlag s.attention.tailgate l.val } }
/-- Raises SEGMENT for a field. -/
def State.raiseSegment (s : State) (f : FieldNo) : State :=
  { s with attention := { s.attention.withCause .segment with segment := setFlag s.attention.segment f.val } }
/-- Raises SOUND for a field. -/
def State.raiseSound (s : State) (f : FieldNo) : State :=
  { s with attention := { s.attention.withCause .sound with sound := setFlag s.attention.sound f.val } }
/-- Raises SET with its kind. -/
def State.raiseSet (s : State) (k : SetKind) : State :=
  { s with attention := { s.attention.withCause .sets with setKinds := setFlag s.attention.setKinds (setKindBit k) } }
/-- Raises TRIP for a trip. -/
def State.raiseTrip (s : State) (t : TripHandle) : State :=
  { s with attention := { s.attention.withCause .trip with dispatched := setFlag s.attention.dispatched t.val } }
/-- Raises PORT with its flag. -/
def State.raisePort (s : State) (k : PortKind) : State :=
  { s with attention := { s.attention.withCause .port with portKinds := setFlag s.attention.portKinds (portKindBit k) } }
/-- Raises ORDER with a note; the ninth note sets the overflow mark and is not kept (R181). -/
def State.raiseOrder (s : State) (o : OrderHandle) (k : NoteKind) : State :=
  let a := s.attention.withCause .order
  { s with
    attention :=
      if a.notes.length < 8 then { a with notes := a.notes ++ [(o, k)] } else { a with overflow := true } }

/-- The level of ATTN (R182). -/
def State.attn (s : State) : Bool := s.attention.causes &&& s.attention.mask != 0

/-- Clears the causes flagged in a word, each with all its detail (R184). -/
def Attention.clear (a : Attention) (w : BitVec 10) : Attention :=
  let gone (c : Cause) : Bool := w.getLsbD (causeBit c)
  { a with
    causes := a.causes &&& ~~~w
    tailgate := if gone .tailgate then 0 else a.tailgate
    segment := if gone .segment then 0 else a.segment
    sound := if gone .sound then 0 else a.sound
    setKinds := if gone .sets then 0 else a.setKinds
    dispatched := if gone .trip then 0 else a.dispatched
    portKinds := if gone .port then 0 else a.portKinds
    notes := if gone .order then [] else a.notes
    overflow := if gone .order then false else a.overflow }

/-- Marks an entry touched, which raises TOUCHED whether or not the flag was set (R40, R41). -/
def State.touch (s : State) (h : CarHandle) : State :=
  (s.setEntry h { s.entry h with touched := true }).raise .touched

/-! ### The day and the status byte -/

/-- Whether a set slot is ISSUING. -/
def State.isIssuing (s : State) (h : SetHandle) : Bool := (s.slot h).state == .issuing

/-- The number of sets ISSUING (R118). -/
def State.issuingCount (s : State) : Nat := countOf s.isIssuing

/-- Whether the day is open (R63). -/
def State.dayOpen (s : State) : Bool :=
  (List.finRange 4).any (fun f => (s.program f).state != .dark) ||
  (List.finRange 256).any (fun o => (s.order o).isSome) ||
  (List.finRange 8).any (fun t => (s.trip t).state != .idle) ||
  (List.finRange 128).any s.isIssuing

/-- A flag as a number. -/
def flag (b : Bool) (weight : Nat := 1) : Nat := if b then weight else 0

/-- The status byte (R179, R189). -/
def State.statusByte (s : State) : Nat :=
  flag s.port.taken.isSome 128 + flag s.port.reply.isSome 64 + flag s.attn 32 + flag s.hold 16 + flag s.dayOpen 8

end Sys2Proof.Machine
end

