-- ==== Sys2Proof/Machine/Operands.lean ====
section
/-! DEFINITION. Result codes and replies (R178, R189), the reading of arguments (R187) and the codes by which replies
show what the records hold. -/

namespace Sys2Proof.Machine

/-! ### Result codes and replies -/

/-- The result codes (R178). -/
inductive ResultCode where
  | ok
  | unknown
  | badLength
  | badArg
  | notFound
  | state
  | full
  | duplicate
  | cutoff
  | noStall
  | badStall
  | editing
  | setOut
  | crossField
  | occupied
  | orderLimit
  | noSet
  | issueLimit
  | unknownSet
  | badProgram
  | showOver
  | dayOpen
  | cancelled
  | pending
  deriving DecidableEq, Repr

/-- The value of a result code (R178). -/
def codeValue : ResultCode → Nat
  | .ok => 0x00
  | .unknown => 0x01
  | .badLength => 0x02
  | .badArg => 0x03
  | .notFound => 0x04
  | .state => 0x05
  | .full => 0x06
  | .duplicate => 0x07
  | .cutoff => 0x08
  | .noStall => 0x09
  | .badStall => 0x0A
  | .editing => 0x0B
  | .setOut => 0x0C
  | .crossField => 0x0D
  | .occupied => 0x0E
  | .orderLimit => 0x0F
  | .noSet => 0x10
  | .issueLimit => 0x11
  | .unknownSet => 0x12
  | .badProgram => 0x13
  | .showOver => 0x14
  | .dayOpen => 0x15
  | .cancelled => 0x16
  | .pending => 0x17

/-- What a command's work answers: the state it leaves, the result code, the reply bytes. -/
structure Answer where
  state : State
  code : ResultCode
  bytes : List Nat
  deriving DecidableEq, Repr

/-- A reply frame: result code byte, length byte, reply bytes (R189). -/
def replyFrame (code : ResultCode) (bytes : List Nat) : List Nat :=
  codeValue code :: bytes.length :: bytes

/-- An answer OK with its reply bytes. -/
def State.ok (s : State) (bytes : List Nat := []) : Answer := ⟨s, .ok, bytes⟩
/-- A refusal: no reply bytes, the state as it stands (R189, spec/00_scope.md 6.6). -/
def State.deny (s : State) (code : ResultCode) : Answer := ⟨s, code, []⟩

/-- The code of the first check that fails, in the order in which the checks are made (spec/00_scope.md, 6.6). -/
def firstFailure : List (Bool × ResultCode) → Option ResultCode
  | [] => none
  | (holds, code) :: rest => if holds then firstFailure rest else some code

/-- Work done behind a command's checks: the first that fails refuses it. -/
def State.checked (s : State) (checks : List (Bool × ResultCode)) (work : Answer) : Answer :=
  match firstFailure checks with
  | some code => s.deny code
  | none => work

/-- Work on the record that a number names: a number that names none is refused with BAD_ARG. -/
def State.withHandle (s : State) (n k : Nat) (work : Fin n → Answer) : Answer :=
  match handle? n k with
  | some i => work i
  | none => s.deny .badArg

/-! ### Reading arguments (R187) -/

/-- `lo ≤ k ≤ hi`. -/
abbrev within (lo hi k : Nat) : Bool := lo ≤ k && k ≤ hi

/-- A one-byte flag argument holds 0 or 1. -/
abbrev isFlag (n : Nat) : Bool := n ≤ 1

/-- Bit `i` of a mask argument. -/
abbrev maskBit (n i : Nat) : Bool := n.testBit i

/-- The class codes. -/
def classOf : Nat → Option StallClass
  | 0 => some .standard
  | 1 => some .tall
  | 2 => some .accessible
  | _ => none

/-- A position code of the 39 kinds (R24, R187). -/
def platePosOf (n : Nat) : Option PlatePos :=
  if h : n < 37 then some (.symbol ⟨n, h⟩)
  else if n = 37 then some .blank
  else if n = 38 then some .unread
  else none

/-- The eight positions of a plate argument, if each code is of the 39 kinds. -/
def plateOf (codes : List Nat) : Option (List PlatePos) :=
  if codes.length = 8 then codes.mapM platePosOf else none

/-- A plate as the register stores it: one whose positions are all UNREAD is absent (R24). -/
def storedPlate (positions : List PlatePos) : Option (List PlatePos) :=
  if positions.all (· == .unread) then none else some positions

/-- The stall that a row in 1 to 16 and a post in 1 to 32 name. -/
def stallOf (row post : Nat) : Option Stall :=
  match handle? 16 (row - 1), handle? 32 (post - 1) with
  | some r, some p => if 1 ≤ row ∧ 1 ≤ post then some ⟨r, p⟩ else none
  | _, _ => none

/-- A byte that may be 0xFF for none (R187). -/
def sentinel (n : Nat) : Option Nat := if n = 0xFF then none else some n

/-- The segment kind codes. -/
def segmentKindOf : Nat → Option SegmentKind
  | 0 => some .picture
  | 1 => some .intermission
  | _ => none

/-- The release mode codes. -/
def releaseModeOf : Nat → Option ReleaseMode
  | 0 => some .now
  | 1 => some .atIntermission
  | _ => none

/-! ### Codes in replies (R187, R190) -/

/-- The row number of a stall. -/
def Stall.row (st : Stall) : Nat := st.rowIx.val + 1
/-- The post number of a stall. -/
def Stall.post (st : Stall) : Nat := st.postIx.val + 1

/-- The class code. -/
def classCode : StallClass → Nat
  | .standard => 0
  | .tall => 1
  | .accessible => 2

/-- The position code (R187). -/
def platePosCode : PlatePos → Nat
  | .symbol c => c.val
  | .blank => 0x25
  | .unread => 0x26

/-- The six bytes of a plate: an absent plate is reported as eight positions of UNREAD (R187). -/
def plateBytes (plate : Option (List PlatePos)) : List Nat :=
  be6 (packPlate ((plate.getD (List.replicate 8 .unread)).map platePosCode))

/-- The entry state code of a live entry. -/
def carStateCode : CarState → Nat
  | .arriving => 1
  | .present => 2
  | .leaving => 3

/-- The field state code. -/
def fieldStateCode : FieldState → Nat
  | .dark => 0
  | .opened => 1
  | .running => 2
  | .paused _ => 3
  | .ended => 4

/-- The pause reason code. -/
def pauseReasonCode : FieldState → Nat
  | .paused .host => 1
  | .paused .stall => 2
  | _ => 0

/-- The timebase state code. -/
def timebaseStateCode : TimebaseState → Nat
  | .stopped => 0
  | .free => 1
  | .seek => 2
  | .track => 3
  | .locked => 4
  | .holdover => 5
  | .lost => 6

/-- The lane state code. -/
def laneStateCode : LaneState → Nat
  | .idle => 0
  | .waiting => 1
  | .opened => 2
  | .refused => 3

/-- The set state code. -/
def setStateCode : SetState → Nat
  | .unenrolled => 0
  | .absent => 1
  | .charging => 2
  | .ready => 3
  | .issuing => 4
  | .lent => 5
  | .lost => 6
  | .faulty => 7

/-- The set mark code. -/
def setMarkCode : SetMark → Nat
  | .issuing => 0
  | .lent => 1

/-- The segment kind code. -/
def segmentKindCode : SegmentKind → Nat
  | .picture => 0
  | .intermission => 1

/-- The release mode code. -/
def releaseModeCode : ReleaseMode → Nat
  | .now => 0
  | .atIntermission => 1

/-- The order stage code. -/
def stageCode : Stage → Nat
  | .parked => 0
  | .queued => 1
  | .preparing => 2
  | .ready => 3
  | .onTrip => 4

/-- The line state code. -/
def lineStateCode : LineState → Nat
  | .waiting => 0
  | .started => 1
  | .finished => 2

/-- The trip state code. -/
def tripStateCode : TripState → Nat
  | .idle => 0
  | .gathering => 1
  | .fieldHold => 2
  | .out => 3

/-- The ORDER note kind code. -/
def noteKindCode : NoteKind → Nat
  | .late => 0
  | .cancelSettled => 1
  | .tooLate => 2

/-- A one-byte handle or number, 0xFF when absent. -/
def optByte (n : Option Nat) : Nat := n.getD 0xFF
/-- A two-byte car handle, 0xFFFF when absent. -/
def optCar (h : Option CarHandle) : List Nat := be2 ((h.map Fin.val).getD 0xFFFF)
/-- Two bytes of remaining time, all ones while the timer is stopped (R189). -/
def timeBytes2 (t : Option Nat) : List Nat := be2 (t.getD 0xFFFF)
/-- Three bytes of remaining time, all ones while the timer is stopped (R189). -/
def timeBytes3 (t : Option Nat) : List Nat := be3 (t.getD 0xFFFFFF)
/-- A signed number in two's complement on two bytes (R187). -/
def signed2 (e : Int) : List Nat := be2 (e % 65536).toNat

end Sys2Proof.Machine
end

