-- ==== Sys2Proof/Machine/Stalls.lean ====
section
/-! DEFINITION. The field unit's own work: kinds of stalls (R4), counts (R9), allocation (R10 to R14), the stall
operations (R15) and the full sign (R16). -/

namespace Sys2Proof.Machine

/-- The place of a stall in the map. -/
def Stall.index (st : Stall) : Fin 512 := ⟨st.rowIx.val * 32 + st.postIx.val, by omega⟩

/-- The handle a stall holds, or none when it is free. -/
def FieldUnit.at (u : FieldUnit) (st : Stall) : Option CarHandle := look u.stalls st.index
/-- Writes a stall. -/
def FieldUnit.setStall (u : FieldUnit) (st : Stall) (h : Option CarHandle) : FieldUnit :=
  { u with stalls := put u.stalls st.index h }

/-- A field is configured when R is not 0 (R2). -/
def FieldUnit.configured (u : FieldUnit) : Bool := u.rows != 0
/-- The stall exists: row at most R and post at most P (R7, R14). -/
def FieldUnit.has (u : FieldUnit) (st : Stall) : Bool := st.row ≤ u.rows && st.post ≤ u.posts
/-- The accessible stalls are (1,1) to (1,A) (R4). -/
def FieldUnit.isAccessible (u : FieldUnit) (st : Stall) : Bool := st.row == 1 && st.post ≤ u.accessible
/-- A stall in a row numbered T or higher (R4). -/
def FieldUnit.inTallRow (u : FieldUnit) (st : Stall) : Bool := u.tall ≤ st.row
/-- The stall's row is open (R5, R6). -/
def FieldUnit.rowOpen (u : FieldUnit) (st : Stall) : Bool := !u.closed.getLsbD st.rowIx.val
/-- The stall is free. -/
def FieldUnit.isFree (u : FieldUnit) (st : Stall) : Bool := (u.at st).isNone

/-- Whether a stall fits a class; whether its row is closed does not enter (R4). -/
def FieldUnit.fits (u : FieldUnit) (cls : StallClass) (st : Stall) : Bool :=
  match cls with
  | .standard => !u.isAccessible st
  | .tall => !u.isAccessible st && u.inTallRow st
  | .accessible => true

/-- Every stall of the field, row by row (R7). -/
def FieldUnit.allStalls (u : FieldUnit) : List Stall :=
  (List.finRange 16).flatMap fun r =>
    ((List.finRange 32).map fun p => (⟨r, p⟩ : Stall)).filter u.has

/-- Stalls holding a handle (R9). -/
def FieldUnit.occupancy (u : FieldUnit) : Nat := u.allStalls.countP (fun st => !u.isFree st)
/-- Free stalls in open rows that are not accessible (R9). -/
def FieldUnit.standardFree (u : FieldUnit) : Nat :=
  u.allStalls.countP (fun st => u.isFree st && u.rowOpen st && !u.isAccessible st)
/-- Free stalls in open tall rows that are not accessible (R9). -/
def FieldUnit.tallFree (u : FieldUnit) : Nat :=
  u.allStalls.countP (fun st => u.isFree st && u.rowOpen st && u.inTallRow st && !u.isAccessible st)
/-- Free accessible stalls, counted while row 1 is open (R9). -/
def FieldUnit.accessibleFree (u : FieldUnit) : Nat :=
  u.allStalls.countP (fun st => u.isFree st && u.rowOpen st && u.isAccessible st)

/-- The key of a post: its distance from the centre of the row in half-posts (R10). -/
def postKey (posts post : Nat) : Nat := (2 * (post : Int) - ((posts : Int) + 1)).natAbs

/-- The posts 1 to P of a row in ascending key, and of equal keys the lower number first (R10). -/
def centreOut (posts : Nat) : List Nat :=
  (List.range posts).flatMap fun key => (List.range' 1 posts).filter fun post => postKey posts post == key

/-- The stalls of rows `first` to `last`, front row first, centre-out within each row (R10). -/
def FieldUnit.rowsInOrder (u : FieldUnit) (first last : Nat) : List Stall :=
  (List.range' first (last + 1 - first)).flatMap fun row =>
    (centreOut u.posts).filterMap fun post => stallOf row post

/-- A stall that may be offered: free, in an open row, not accessible. -/
def FieldUnit.isCandidate (u : FieldUnit) (st : Stall) : Bool :=
  u.isFree st && u.rowOpen st && !u.isAccessible st

/-- The stalls in the order a STANDARD car is offered them: rows 1 to T - 1, then rows T to R (R11). -/
def FieldUnit.standardOffers (u : FieldUnit) : List Stall :=
  (u.rowsInOrder 1 (u.tall - 1) ++ u.rowsInOrder u.tall u.rows).filter u.isCandidate

/-- The stalls in the order a TALL car is offered them: rows T to R (R12). -/
def FieldUnit.tallOffers (u : FieldUnit) : List Stall :=
  (u.rowsInOrder u.tall u.rows).filter u.isCandidate

/-- The accessible stalls (1,1) to (1,A) that are free while row 1 is open, in post order (R13). -/
def FieldUnit.accessibleOffers (u : FieldUnit) : List Stall :=
  ((List.range' 1 u.accessible).filterMap fun post => stallOf 1 post).filter fun st =>
    u.isFree st && u.rowOpen st

/-- The stalls offered to a car of a class without a named stall (R11 to R13). -/
def FieldUnit.offers (u : FieldUnit) : StallClass → List Stall
  | .standard => u.standardOffers
  | .tall => u.tallOffers
  | .accessible => u.accessibleOffers ++ u.standardOffers

/-- The named-stall rule (R14). -/
def FieldUnit.takesNamed (u : FieldUnit) (cls : StallClass) (st : Stall) : Bool :=
  u.has st && u.rowOpen st && u.isFree st && u.fits cls st

/-- The stall a request gets: by the allocation order of the class, or the named one (R10 to R14). -/
def FieldUnit.choose (u : FieldUnit) (cls : StallClass) (named : Option Stall) :
    Except ResultCode Stall :=
  match named with
  | none =>
    match (u.offers cls).head? with
    | some st => .ok st
    | none => .error .noStall
  | some st => if u.takesNamed cls st then .ok st else .error .badStall

/-- The full sign after an evaluation (R16). -/
def FieldUnit.evaluateSign (u : FieldUnit) : FieldUnit :=
  { u with
    full :=
      if u.standardFree ≤ u.signOn then true
      else if u.signOff ≤ u.standardFree then false
      else u.full }

/-- Writes a stall of a field's map. -/
def State.setStall (s : State) (f : FieldNo) (st : Stall) (h : Option CarHandle) : State :=
  s.setUnit f ((s.unit f).setStall st h)

/-- Evaluates the full sign of a field (R16). -/
def State.evaluateSign (s : State) (f : FieldNo) : State :=
  s.setUnit f (s.unit f).evaluateSign

/-- Evaluates the full sign unless the field is DARK (R5, R6, R16). -/
def State.evaluateSignIfLit (s : State) (f : FieldNo) : State :=
  if (s.program f).state == .dark then s else s.evaluateSign f

end Sys2Proof.Machine
end

