-- ==== Sys2Proof/Machine/Programs.lean ====
section
/-! DEFINITION. The program unit's questions (R83, R84, R138), cue levels (R80) and the arithmetic of the position
(R73). -/

namespace Sys2Proof.Machine

/-- The segments of a record; an EMPTY record has none (R67). -/
def ProgramRecord.segments : ProgramRecord → List Segment
  | .empty => []
  | .draft _ segs => segs
  | .loaded _ segs => segs

/-- The header of a record that has one (R67). -/
def ProgramRecord.header? : ProgramRecord → Option Header
  | .empty => none
  | .draft h _ => some h
  | .loaded h _ => some h

/-- The condition code (R187). -/
def ProgramRecord.code : ProgramRecord → Nat
  | .empty => 0
  | .draft _ _ => 1
  | .loaded _ _ => 2

/-- The header of the LOADED program: the record the other blocks read (R67). -/
def ProgramUnit.program? (p : ProgramUnit) : Option Header :=
  match p.record with
  | .loaded h _ => some h
  | _ => none

/-- Samples per frame of the LOADED program, 0 when the field holds no program (R110). -/
def ProgramUnit.ns (p : ProgramUnit) : Nat := (p.program?.map Header.ns).getD 0

/-- The segment in which the position stands, if the program has not run to its end. -/
def ProgramUnit.current? (p : ProgramUnit) : Option Segment := p.record.segments[p.segment]?

/-- The field is RUNNING or PAUSED: its show is under way. -/
def FieldState.inShow : FieldState → Bool
  | .running => true
  | .paused _ => true
  | _ => false

/-- The field admits cars: OPEN, RUNNING or PAUSED (R34, R48). -/
def FieldState.admits : FieldState → Bool
  | .opened => true
  | .running => true
  | .paused _ => true
  | _ => false

/-- Whether the field is past its entry cutoff (R83). -/
def ProgramUnit.pastCutoff (p : ProgramUnit) : Bool :=
  p.state.inShow &&
    match p.program? with
    | none => false
    | some h =>
      match h.cutoffSegment with
      | none => false
      | some c => decide (c < p.segment) || (p.segment == c && decide (h.cutoffFrames ≤ p.frame))

/-- Whether runners may walk the field (R84). -/
def ProgramUnit.runnersAllowed (p : ProgramUnit) : Bool :=
  match p.state with
  | .dark => true
  | .opened => true
  | .ended => true
  | .running => (p.current?.map Segment.runners).getD false
  | .paused _ => (p.current?.map Segment.runners).getD false

/-- The cue levels that a state and position call for (R80). -/
def ProgramUnit.cueLevels (p : ProgramUnit) : BitVec 4 :=
  match p.state with
  | .dark => 0
  | .opened => (p.program?.map Header.openCues).getD 0
  | .ended => (p.program?.map Header.endCues).getD 0
  | .running => (p.current?.map Segment.cues).getD 0
  | .paused _ => (p.current?.map Segment.cues).getD 0

/-- The cue lines take the levels of the new state and position (R80). -/
def ProgramUnit.withCues (p : ProgramUnit) : ProgramUnit := { p with cues := p.cueLevels }

/-- The lengths of the segments before the first INTERMISSION segment, if there is one (R138). -/
def framesBeforeIntermission : List Segment → Option Nat
  | [] => none
  | seg :: rest =>
    match seg.kind with
    | .intermission => some 0
    | .picture => (framesBeforeIntermission rest).map (seg.length + ·)

/-- The frames to the next intermission: what is left of the current segment, and the segments between it and the
first INTERMISSION segment after it. None when no INTERMISSION segment lies after the current one (R138). -/
def ProgramUnit.framesToIntermission (p : ProgramUnit) : Option Nat :=
  match p.current? with
  | none => none
  | some seg =>
    (framesBeforeIntermission (p.record.segments.drop (p.segment + 1))).map
      (seg.length - p.frame + ·)

/-- The due rule for a release mode, at the field's present position (R137). -/
def ProgramUnit.isDue (p : ProgramUnit) (mode : ReleaseMode) : Bool :=
  match mode with
  | .now => true
  | .atIntermission =>
    p.state == .ended ||
    (p.current?.map Segment.kind == some .intermission) ||
    match p.framesToIntermission with
    | none => true
    | some n => decide (n ≤ (p.program?.map Header.lead).getD 0)

/-- Where an advance leaves the position: the segment index, the frame in segment, whether a segment was entered,
and whether the program has run out. -/
structure Advance where
  segment : Nat
  frame : Nat
  entered : Bool
  ranOut : Bool
  deriving DecidableEq, Repr

/-- The advance of `k` frames from frame `frame` of the first segment of a list, whose index is `ix` (R73). -/
def advanceFrom : List Segment → Nat → Nat → Nat → Bool → Advance
  | [], ix, _, _, entered => ⟨ix, 0, entered, true⟩
  | seg :: rest, ix, frame, k, entered =>
    if k < seg.length - frame then ⟨ix, frame + k, entered, false⟩
    else advanceFrom rest (ix + 1) 0 (k - (seg.length - frame)) (entered || !rest.isEmpty)

/-- The advance of a program unit by `k` frames (R73). -/
def ProgramUnit.advance (p : ProgramUnit) (k : Nat) : Advance :=
  advanceFrom (p.record.segments.drop p.segment) p.segment p.frame k false

end Sys2Proof.Machine
end

