-- ==== Sys2Proof/Machine/Kitchen.lean ====
section
/-! DEFINITION. The kitchen: HOLD (R148), due checks (R137, R139), release passes (R140 to R142) and what a fall in a
backlog brings about (R149). -/

namespace Sys2Proof.Machine

/-- Some station's backlog is at or above its xoff (R148). -/
def State.anyAtXoff (s : State) : Bool :=
  (List.finRange 4).any fun n => decide ((s.station n).xoff ≤ s.backlog n)
/-- Every station's backlog is at or below its xon (R148). -/
def State.allAtXon (s : State) : Bool :=
  (List.finRange 4).all fun n => decide (s.backlog n ≤ (s.station n).xon)

/-- HOLD is evaluated; a change raises KITCHEN (R148). -/
def State.evaluateHold (s : State) : State :=
  let hold := if s.anyAtXoff then true else if s.allAtXon then false else s.hold
  if hold == s.hold then s else { s with hold := hold }.raise .kitchen

/-- An order that a due check may mark: PARKED, not yet due, and due by the rule at its field's position (R137). -/
def State.fallsDue (s : State) (ord : Order) : Bool :=
  ord.stage == .parked && !ord.due && (s.program ord.field).isDue ord.mode

/-- The due check of the parked orders that a test picks out (R137, R139). -/
def State.markDue (s : State) (which : Order → Bool) : State :=
  s.forEach s.parked fun o acc =>
    match acc.order o with
    | some ord => if which ord && acc.fallsDue ord then acc.setOrder o (some { ord with due := true }) else acc
    | none => acc

/-- A due check of the parked orders that a test picks out would set at least one mark. -/
def State.someFallsDue (s : State) (which : Order → Bool) : Bool :=
  s.parked.any fun o => (s.order o).any fun ord => which ord && s.fallsDue ord

/-- The number of an order's lines at a station. -/
def Order.linesAt (ord : Order) (n : StationNo) : Nat := ord.lines.countP (fun l => l.station == n)

/-- The fit test: at every station the order's lines name, the backlog and the new lines make at most 255 (R141). -/
def State.fitsQueues (s : State) (ord : Order) : Bool :=
  (List.finRange 4).all fun n => ord.linesAt n == 0 || decide (s.backlog n + ord.linesAt n ≤ 255)

/-- The lines of an order that stand at a station, in line order. -/
def Order.linesFor (ord : Order) (o : OrderHandle) (n : StationNo) : List (OrderHandle × Nat) :=
  (ord.lines.zipIdx.filter (fun l => l.1.station == n)).map (fun l => (o, l.2))

/-- The release of an order (R142): it leaves the parked list, its lines join their queues, it becomes QUEUED and
its prep timer starts. -/
def State.release (s : State) (o : OrderHandle) (ord : Order) : State :=
  let queued := s.forEach (List.finRange 4) fun n acc =>
    acc.setStation n { acc.station n with queue := (acc.station n).queue ++ ord.linesFor o n }
  { queued.setOrder o (some { ord with stage := .queued, due := false, timer := some (s.prepLimit * 60000) }) with
    parked := queued.parked.erase o }

/-- The walk of a release pass over the parked orders, oldest first (R140, R141). -/
def releaseWalk : List OrderHandle → State → State
  | [], s => s
  | o :: rest, s =>
    match s.order o with
    | none => releaseWalk rest s
    | some ord =>
      if !ord.due then releaseWalk rest s
      else if !s.fitsQueues ord then releaseWalk rest (s.count (.kitchen .stationDeferrals))
      else
        let released := (s.release o ord).evaluateHold
        if released.hold then released else releaseWalk rest released

/-- A release pass: nothing while the kitchen is in HOLD (R140). -/
def State.releasePass (s : State) : State := if s.hold then s else releaseWalk s.parked s

/-- A due check, and a release pass when it set at least one mark (R139, R140). -/
def State.dueCheck (s : State) (which : Order → Bool) : State :=
  if s.someFallsDue which then (s.markDue which).releasePass else s

/-- The due check of a field's parked orders (R139). -/
def State.dueCheckField (s : State) (f : FieldNo) : State := s.dueCheck (fun ord => ord.field == f)

/-- HOLD is evaluated after a change; when the kitchen leaves HOLD every parked order is due-checked (R148,
R149). -/
def State.evaluateHoldAndDue (s : State) : State :=
  let held := s.evaluateHold
  if s.hold && !held.hold then held.markDue (fun _ => true) else held

/-- What follows a fall in a station's backlog: HOLD is evaluated, and one release pass runs, after the due check
if the kitchen has left HOLD (R140, R148, R149; one pass: log entry 10). In the cascade of a forced CLOSE FIELD too the due
check and the pass reach the parked orders of every field, where R154 has the orders of other fields stand: that the model
follows R140, R149, R151 and R170 is its reading (log entry 31). -/
def State.afterFall (s : State) : State := s.evaluateHoldAndDue.releasePass

/-- What follows CONFIGURE KITCHEN: HOLD is evaluated, and a release pass runs if the kitchen has left HOLD (R147,
R149). R65 has the configuration commands leave the tally bank as it is, R140, R141 and R149 have this pass count its
station deferrals: that the model counts them is its reading (log entry 28). -/
def State.afterThresholds (s : State) : State :=
  let after := s.evaluateHoldAndDue
  if s.hold && !after.hold then after.releasePass else after

/-- Takes the lines that a test picks out from every queue; the others keep their order (R143). -/
def State.withdrawLines (s : State) (gone : OrderHandle × Nat → Bool) : State :=
  s.forEach (List.finRange 4) fun n acc =>
    acc.setStation n { acc.station n with queue := (acc.station n).queue.filter (fun l => !gone l) }

/-- Some queue holds a line that a test picks out. -/
def State.anyLine (s : State) (p : OrderHandle × Nat → Bool) : Bool :=
  (List.finRange 4).any fun n => (s.station n).queue.any p

end Sys2Proof.Machine
end

