-- ==== Sys2Proof/Machine/Trips.lean ====
section
/-! DEFINITION. The trip table: gathering (R158, R159), closing (R160), dispatch (R161, R162), the route order
(R163). -/

namespace Sys2Proof.Machine

/-- A trip that gathers or is held for its field, and is not full, takes joins (R155). -/
def Trip.takesJoins (x : Trip) : Bool :=
  (x.state == .gathering || x.state == .fieldHold) && decide (x.orders.length < 6)

/-- Dispatch: the trip is OUT, its timer stopped, its orders ON_TRIP, TRIP raised with its flag (R162). -/
def State.dispatch (s : State) (t : TripHandle) : State :=
  let out := s.setTrip t { s.trip t with state := .out, timer := none }
  (out.forEach (s.trip t).orders fun o acc => acc.modOrder o fun ord => { ord with stage := .onTrip }).raiseTrip t

/-- The close of a GATHERING trip: OUT if runners may walk its field, FIELD_HOLD if not (R160). -/
def State.closeTrip (s : State) (t : TripHandle) : State :=
  match (s.trip t).field with
  | none => s
  | some f =>
    if (s.program f).runnersAllowed then s.dispatch t
    else s.setTrip t { s.trip t with state := .fieldHold, timer := none }

/-- Orders join a trip in list order: a join restarts the timer of a GATHERING trip, and a sixth order closes it
(R158, R159, R160). -/
def State.joinTrip (s : State) (t : TripHandle) (os : List OrderHandle) : State :=
  let x := s.trip t
  let members := x.orders ++ os
  let gathers := x.state == .gathering && !os.isEmpty
  let joined := s.setTrip t { x with orders := members, timer := if gathers then some (s.window * 1000) else x.timer }
  let marked := joined.forEach os fun o acc => acc.modOrder o fun ord => { ord with trip := some t }
  if gathers && members.length == 6 then marked.closeTrip t else marked

/-- A trip is formed: GATHERING, with the field of its first order and these orders as its members (R158, R159). -/
def State.formTrip (s : State) (t : TripHandle) (f : FieldNo) (os : List OrderHandle) : State :=
  (s.setTrip t { state := .gathering, field := some f, orders := [], timer := none }).joinTrip t os

/-- A newly READY order joins a trip of its field, forms a trip, or joins the ready list (R158). -/
def State.placeReady (s : State) (o : OrderHandle) (f : FieldNo) : State :=
  match lowest (fun t => (s.trip t).takesJoins && (s.trip t).field == some f) with
  | some t => s.joinTrip t [o]
  | none =>
    match lowest (fun t => (s.trip t).state == .idle) with
    | some t => s.formTrip t f [o]
    | none => { s with readyList := s.readyList ++ [o] }

/-- The first orders of the ready list that belong to a field, so many at most. -/
def State.readyOf (s : State) (f : FieldNo) (n : Nat) : List OrderHandle :=
  (s.readyList.filter fun o => (s.order o).any fun ord => ord.field == f).take n

/-- The ready list without these orders. -/
def State.withoutReady (s : State) (os : List OrderHandle) : State :=
  { s with readyList := s.readyList.filter fun o => !os.contains o }

/-- A trip that has become IDLE is formed again from the ready list, if it holds an order: the oldest order gives
the field, and the further orders of that field join up to six (R159). -/
def State.reformTrip (s : State) (t : TripHandle) : State :=
  match s.readyList with
  | [] => s
  | first :: _ =>
    match s.order first with
    | none => s
    | some ord =>
      let members := s.readyOf ord.field 6
      (s.withoutReady members).formTrip t ord.field members

/-- Ready orders of the trip's field join a GATHERING or FIELD_HOLD trip that has lost an order (R159). -/
def State.refillTrip (s : State) (t : TripHandle) : State :=
  match (s.trip t).field with
  | none => s
  | some f =>
    let more := s.readyOf f (6 - (s.trip t).orders.length)
    (s.withoutReady more).joinTrip t more

/-- An order leaves its trip: an emptied trip becomes IDLE and is formed again; a GATHERING or FIELD_HOLD trip that
still holds orders takes ready orders of its field (R159, R164, R169). In a forced CLOSE FIELD too the orders that form
the emptied trip again may be another field's, where R171 has the trips and ready orders of other fields stand: that the
model follows R159 is its reading (log entry 30). -/
def State.leaveTrip (s : State) (t : TripHandle) (o : OrderHandle) : State :=
  let x := s.trip t
  let rest := x.orders.erase o
  if rest.isEmpty then (s.setTrip t {}).reformTrip t
  else
    let left := s.setTrip t { x with orders := rest }
    if x.state == .fieldHold || x.state == .gathering then left.refillTrip t else left

/-- At a field change every FIELD_HOLD trip of the field goes OUT, in ascending handle, if runners are allowed
(R161). -/
def State.releaseFieldHold (s : State) (f : FieldNo) : State :=
  if (s.program f).runnersAllowed then
    s.forEach (List.finRange 8) fun t acc =>
      if (acc.trip t).state == .fieldHold && (acc.trip t).field == some f then acc.dispatch t else acc
  else s

/-- The stall of an order's car, read from the lot register now (R163). -/
def State.stallOfOrder (s : State) (o : OrderHandle) : Option (FieldNo × Stall) :=
  (s.order o).bind fun ord => ord.car.bind fun h => (s.car h).map fun c => (c.field, c.stall)

/-- The rank of a stall in the route order: row ascending, then post ascending (R163). -/
def routeRank (x : Option (FieldNo × Stall)) : Nat :=
  match x with
  | some (_, st) => st.index.val
  | none => 512

/-- The route order of a trip: by stall, and orders of one stall, and orders whose car is gone, in joining order
(R163). -/
def State.routeOrder (s : State) (t : TripHandle) : List OrderHandle :=
  sortByRank (fun o => routeRank (s.stallOfOrder o)) (s.trip t).orders

end Sys2Proof.Machine
end

