-- ==== Sys2Proof/Machine/Orders.lean ====
section
/-! DEFINITION. The life of an order after its release: retirement (R151), finish (R146), cancellation at every stage
(R167 to R169) and at a car's retirement (R170). -/

namespace Sys2Proof.Machine

/-- The sum of the quantities of an order's DONE lines, the waste of a cancel that settles in the kitchen (R146). -/
def Order.waste (ord : Order) : Nat :=
  ((ord.lines.filter fun l => l.state == .finished).map OrderLine.quantity).sum

/-- The sum of the quantities of an order's lines, the waste of an order whose preparation is over (R165, R169). -/
def Order.quantities (ord : Order) : Nat := (ord.lines.map OrderLine.quantity).sum

/-- An order's handle leaves the list of its car, if it has one; the others keep their order (R133). -/
def State.unlistOrder (s : State) (o : OrderHandle) (car : Option CarHandle) : State :=
  match car with
  | none => s
  | some h => s.modCar h fun c => { c with orders := c.orders.erase o }

/-- The entry of an order's car is marked touched, if it has one (R40, R133). -/
def State.touchCar (s : State) (car : Option CarHandle) : State :=
  match car with
  | none => s
  | some h => s.touch h

/-- The retirement of an order (R151): the prep timer goes with the slot; the handle leaves the parked list, or the
ready list if it stood there (R156); its lines leave their queues; it leaves its trip; it leaves its car's list; the
slot becomes free; and if a backlog fell, HOLD is evaluated and a release pass runs. -/
def State.retireOrder (s : State) (o : OrderHandle) : State :=
  match s.order o with
  | none => s
  | some ord =>
    let fell := s.anyLine fun l => l.1 == o
    let unlisted := { s with parked := s.parked.erase o, readyList := s.readyList.erase o }
    let withdrawn := unlisted.withdrawLines fun l => l.1 == o
    let offTrip :=
      match ord.trip with
      | none => withdrawn
      | some t => withdrawn.leaveTrip t o
    let freed := (offTrip.unlistOrder o ord.car).setOrder o none
    if fell then freed.afterFall else freed

/-- The pending cancel of an order settles: counted with its waste, ORDER raised, the order retired, and its car
touched (R146). -/
def State.settleCancel (s : State) (o : OrderHandle) (ord : Order) : State :=
  ((((s.count (.kitchen .cancelled)).count (.kitchen .wasteLines) ord.waste).raiseOrder o .cancelSettled).touchCar
    ord.car).retireOrder o

/-- An order of which no line stands in a queue finishes (R146). -/
def State.finishOrder (s : State) (o : OrderHandle) : State :=
  match s.order o with
  | none => s
  | some ord =>
    if ord.cancelPending then s.settleCancel o ord
    else (s.setOrder o (some { ord with stage := .ready, timer := none })).placeReady o ord.field

/-- Whether some line of an order stands in a queue. -/
def State.inQueues (s : State) (o : OrderHandle) : Bool := s.anyLine fun l => l.1 == o

/-- The state of a line of an order. -/
def Order.lineState (ord : Order) (n : Nat) : Option LineState := ord.lines[n]?.map OrderLine.state

/-- The cancellation of a PREPARING order without cancel pending (R168): its WAITING lines leave their queues, cancel
pending is set and the timer stops; if no line of it is left in a queue it finishes. -/
def State.cancelPreparing (s : State) (o : OrderHandle) (ord : Order) : State :=
  let waits (l : OrderHandle × Nat) : Bool := l.1 == o && ord.lineState l.2 == some .waiting
  let fell := s.anyLine waits
  let marked := (s.withdrawLines waits).setOrder o (some { ord with cancelPending := true, timer := none })
  let settled := if marked.inQueues o then marked else marked.finishOrder o
  if fell then settled.afterFall else settled

/-- The cancellation of an order without cancel pending, by its stage (R167, R168, R169). -/
def State.cancelAtStage (s : State) (o : OrderHandle) (ord : Order) : State :=
  match ord.stage with
  | .parked => ((s.count (.kitchen .cancelled)).touchCar ord.car).retireOrder o
  | .queued => ((s.count (.kitchen .cancelled)).touchCar ord.car).retireOrder o
  | .preparing => s.cancelPreparing o ord
  | .ready =>
    (((s.count (.kitchen .cancelled)).count (.kitchen .wasteLines) ord.quantities).touchCar ord.car).retireOrder o
  | .onTrip => s.setOrder o (some { ord with cancelPending := true })

/-- What a car's retirement does to one of its orders (R170): the car reference goes; an ON_TRIP order and one with
cancel pending stay; every other is cancelled as at its stage, with no car to touch. That a READY order with cancel pending
stays too, where R166 has it settled by the retirement, is log entry 26. -/
def State.orderLosesCar (s : State) (o : OrderHandle) : State :=
  match s.order o with
  | none => s
  | some ord =>
    let gone := { ord with car := none }
    let without := s.setOrder o (some gone)
    if ord.stage == .onTrip || ord.cancelPending then without else without.cancelAtStage o gone

/-- The order book is told, in list order, that these orders' car is retired (R170). -/
def State.ordersLoseCar (s : State) (os : List OrderHandle) : State := s.forEach os fun o acc => acc.orderLosesCar o

end Sys2Proof.Machine
end

