-- ==== Sys2Proof/Machine/Sets.lean ====
section
/-! DEFINITION. The set pool's own work: the state of a docked set (R123), the cancellation of an issue (R120), the
undocking of a set (R122), sets at a car's retirement (R128). -/

namespace Sys2Proof.Machine

/-- The state of a docked set "by charge" (R120, R123). -/
def State.byCharge (s : State) (charge : Nat) : SetState :=
  if s.readyLevel ≤ charge then .ready else .charging

/-- The set field of a car's entry is written (R114). -/
def State.setCarSet (s : State) (car : Option CarHandle) (x : Option (SetHandle × SetMark)) : State :=
  match car with
  | none => s
  | some h => s.modCar h fun c => { c with lent := x }

/-- An issue is cancelled (R120): the timer stops, the set loses its car and the car's entry its set; the set keeps
bay, channel and charge and becomes READY or CHARGING by its charge. -/
def State.cancelIssue (s : State) (n : SetHandle) : State :=
  let x := s.slot n
  (s.setSlot n { x with state := s.byCharge x.charge, car := none, timer := none }).setCarSet x.car none

/-- The set is taken out of the bay it stands in, if it stands in one: bay map and slot together (R113). -/
def State.clearBay (s : State) (n : SetHandle) : State :=
  match (s.slot n).bay with
  | none => s
  | some b => (s.setBay b none).setSlot n { s.slot n with bay := none }

/-- The set takes a bay: bay map and slot together (R113). -/
def State.takeBay (s : State) (n : SetHandle) (b : BayNo) : State :=
  (s.setBay b (some n)).setSlot n { s.slot n with bay := some b }

/-- A set found in a bay that another set is reported in has left it without a report (R122). READY, CHARGING,
ISSUING and FAULTY sets stand in bays (R113). -/
def State.displace (s : State) (n : SetHandle) : State :=
  let x := s.slot n
  match x.state with
  | .issuing =>
    let cancelled := ((s.cancelIssue n).touchCar x.car).clearBay n
    cancelled.setSlot n { cancelled.slot n with state := .absent }
  | .ready | .charging =>
    let out := s.clearBay n
    out.setSlot n { out.slot n with state := .absent }
  | .unenrolled | .absent | .lent | .lost | .faulty => s.clearBay n

/-- A LENT set whose car is retired becomes LOST and is counted (R128). -/
def State.loseSet (s : State) (n : SetHandle) : State :=
  let x := s.slot n
  ((s.setSlot n { x with state := .lost, car := none }).setCarSet x.car none).count (.sets .lost)

end Sys2Proof.Machine
end

