-- ==== Sys2Proof/Machine/Retire.lean ====
section
/-! DEFINITION. The retirement of a car entry (R38, R39), the one operation that ends it. -/

namespace Sys2Proof.Machine

/-- The causes of retirement (R39). -/
inductive RetireCause where
  | depart
  | retire
  | forceClose
  | withdrawn
  deriving DecidableEq, Repr

/-- What a retirement reports to the command that brought it about (R37, R85). -/
structure RetireReport where
  lost : Nat := 0
  issuesCancelled : Nat := 0
  orders : Nat := 0
  deriving DecidableEq, Repr

/-- Step 1 of retirement: the set pool is told of the car's set (R38, R128). -/
def State.setAtRetirement (s : State) (c : Car) : State :=
  match c.lent with
  | none => s
  | some (n, .lent) => s.loseSet n
  | some (n, .issuing) => s.cancelIssue n

/-- Step 2 of retirement: the list is emptied, and the order book is told of each order, in list order (R38, R170). -/
def State.ordersAtRetirement (s : State) (h : CarHandle) (c : Car) : State :=
  (s.modCar h fun x => { x with lent := none, orders := [] }).ordersLoseCar c.orders

/-- Step 4 of retirement: a lane that serves the entry is told that it is gone; barrier, timer and pass begun stand
(R38, R58). -/
def State.lanesLoseCar (s : State) (h : CarHandle) : State :=
  s.forEach (List.finRange 6) fun l acc =>
    if (acc.lane l).served == some h then acc.setLane l { acc.lane l with served := none } else acc

/-- The retirement of a live entry, in the order of R38's steps. The full sign is evaluated after them, except within
the force-close cascade (R19), and the entry is marked touched unless the cause is RETIRE. -/
def State.retireCar (s : State) (h : CarHandle) (cause : RetireCause) : State :=
  match s.car h with
  | none => s
  | some c =>
    let settled := (s.setAtRetirement c).ordersAtRetirement h c
    let freed := (settled.setStall c.field c.stall none).lanesLoseCar h
    let vacant := freed.setCar h none
    let signed := if cause == .forceClose then vacant else vacant.evaluateSign c.field
    if cause == .retire then signed else signed.touch h

/-- What the retirement of an entry will report. -/
def Car.report (c : Car) : RetireReport :=
  { lost := flag (c.lent.any fun x => x.2 == .lent)
    issuesCancelled := flag (c.lent.any fun x => x.2 == .issuing)
    orders := c.orders.length }

/-- The live entries of a field, in ascending handle order (R86). -/
def State.carsOf (s : State) (f : FieldNo) : List CarHandle :=
  (List.finRange 1024).filter fun h => (s.car h).any fun c => c.field == f

/-- The force-close cascade (R86): every live entry of the field is retired in ascending handle order. -/
def State.cascade (s : State) (f : FieldNo) : State :=
  s.forEach (s.carsOf f) fun h acc => acc.retireCar h .forceClose

/-- What the cascade reports in sum. -/
def State.cascadeReport (s : State) (f : FieldNo) : RetireReport :=
  let reports := (s.carsOf f).filterMap fun h => (s.car h).map Car.report
  { lost := (reports.map RetireReport.lost).sum
    issuesCancelled := (reports.map RetireReport.issuesCancelled).sum
    orders := (reports.map RetireReport.orders).sum }

end Sys2Proof.Machine
end

