-- ==== Sys2Proof/Machine/FieldChange.lean ====
section
/-! DEFINITION. Field changes and their reports (R82), the frame advance (R73), the ways a show ends (R74, R77). -/

namespace Sys2Proof.Machine

/-- A field change is reported to the attention unit, the order book and the trip table (R82, R139, R161). -/
def State.fieldChange (s : State) (f : FieldNo) : State :=
  ((s.raiseSegment f).dueCheckField f).releaseFieldHold f

/-- The timebase in FREE after a show was stopped or ended: D, E, run and RANGE keep their values (R94). -/
def Timebase.freed (t : Timebase) : Timebase :=
  { t with state := .free, reference := false, missed := 0, reacquire := none, marked := false }

/-- The timebase in SEEK at START SHOW or RESUME SHOW (R94). -/
def Timebase.sought (t : Timebase) : Timebase :=
  { t with state := .seek, reference := false, gap := 0, strobes := 0, marker := 0, run := 0, missed := 0 }

/-- The timebase in FREE at OPEN FIELD, with the nominal period of the LOADED program (R94). -/
def Timebase.opened (t : Timebase) (ns : Nat) : Timebase :=
  { t with
    state := .free, nominal := ns * 512, divisor := 131072, accumulator := 0
    reference := false, slip := 0, run := 0, missed := 0, reacquire := none, range := false }

/-- The timebase in STOPPED at CLOSE FIELD: the record cleared, the settings kept (R94). -/
def Timebase.stopped (t : Timebase) : Timebase := { settings := t.settings }

/-- The program unit in ENDED at the position where the step leaves it (R74). -/
def ProgramUnit.ended (p : ProgramUnit) : ProgramUnit := { p with state := .ended }.withCues

/-- The field enters ENDED and its timebase FREE; the change is still to be reported (R74). -/
def State.endField (s : State) (f : FieldNo) : State :=
  (s.setProgram f (s.program f).ended).setTimebase f (s.timebase f).freed

/-- A frame advance of `k` frames handed to a program unit (R73): a RUNNING field applies it; applied or not, it is
reported to the order book (R139); a segment entered or the end of the program is a field change (R82). -/
def State.frameAdvance (s : State) (f : FieldNo) (k : Nat) : State :=
  let p := s.program f
  if p.state == .running then
    let a := p.advance k
    let moved := s.setProgram f { p with segment := a.segment, frame := a.frame }.withCues
    let placed := if a.ranOut then moved.endField f else moved
    let reported := placed.dueCheckField f
    if a.entered || a.ranOut then reported.fieldChange f else reported
  else s.dueCheckField f

/-- A RUNNING field whose timebase has entered LOST becomes PAUSED (STALL) (R77). -/
def State.stallField (s : State) (f : FieldNo) : State :=
  if (s.program f).state == .running then
    (s.setProgram f { s.program f with state := .paused .stall }).fieldChange f
  else s

/-- A field in PAUSED (STALL) whose timebase accepts a pulse is RUNNING again (R77). -/
def State.endStall (s : State) (f : FieldNo) : State :=
  if (s.program f).state == .paused .stall then
    (s.setProgram f { s.program f with state := .running }).fieldChange f
  else s

end Sys2Proof.Machine
end

