-- ==== Sys2Proof/Machine/Timebases.lean ====
section
/-! DEFINITION. The timebase: word clock and frame markers (R91, R92), the limits of the gap counter (R97, R101), the
handling of a frame pulse (R95 to R107) and reacquisition (R108). -/

namespace Sys2Proof.Machine

/-- A number held within bounds. -/
def clampInt (lo hi x : Int) : Int := max lo (min hi x)

/-- The states that count strobes, markers and the gap: SEEK, TRACK, LOCKED and HOLDOVER (R91, R92). -/
def TimebaseState.counts : TimebaseState → Bool
  | .seek => true
  | .track => true
  | .locked => true
  | .holdover => true
  | _ => false

/-! ### Word clock and frame markers (R91, R92) -/

/-- So many MCLK cycles pass: the accumulator runs, and the gap counter where the state counts (R91). -/
def Timebase.elapse (t : Timebase) (cycles : Nat) : Timebase :=
  { t with
    accumulator := t.accumulator + 256 * cycles
    gap := if t.state.counts then min 4294967295 (t.gap + cycles) else t.gap }

/-- A word strobe: D leaves the accumulator, WCKn rises, and where the state counts the strobe is counted in S and in
the marker count; the strobe that brings that to N_s returns it to 0 and carries a frame marker (R91, R92). -/
def Timebase.strobe (t : Timebase) (ns : Nat) : Timebase :=
  let emitted := { t with accumulator := t.accumulator - t.divisor, wordClock := true }
  if t.state.counts then
    let counted := { emitted with strobes := min 16777215 (t.strobes + 1) }
    if ns ≤ t.marker + 1 then { counted with marker := 0, marked := true }
    else { counted with marker := t.marker + 1 }
  else emitted

/-- WCKn falls, and with it a frame marker (R91, R92). -/
def Timebase.fall (t : Timebase) : Timebase := { t with wordClock := false, marked := false }

/-- One MCLK cycle of a timebase that is not STOPPED (R91). -/
def Timebase.cycle (t : Timebase) (ns : Nat) : Timebase :=
  if t.state == .stopped then t
  else
    let next := t.elapse 1
    if next.divisor ≤ next.accumulator then next.strobe ns
    else if next.wordClock && decide (next.divisor / 2 ≤ next.accumulator) then next.fall
    else next

/-- The MCLK cycles until the accumulator, which runs by 256 a cycle, stands at a target or above it. -/
def Timebase.cyclesTo (t : Timebase) (target : Nat) : Nat := (target - t.accumulator + 255) / 256

/-! ### Limits of the gap counter -/

/-- One and a half nominal periods (R97). -/
def Timebase.overdueAt (t : Timebase) : Nat := t.nominal + t.nominal / 2
/-- The gap at which the present holdover has its next expiry (R97). -/
def Timebase.nextExpiryAt (t : Timebase) : Nat := t.missed * t.nominal + t.overdueAt

/-- TRACK or LOCKED: the states in which a pulse can fall overdue (R97). -/
def TimebaseState.tracks : TimebaseState → Bool
  | .track => true
  | .locked => true
  | _ => false

/-- The gap counter stands at a limit or beyond it: the event is the moment it gets there. -/
def Timebase.gapAtLeast (t : Timebase) (n : Nat) : Timebase := { t with gap := max t.gap n }

/-- The pulse is overdue: HOLDOVER with one missed pulse (R97). -/
def State.overduePulse (s : State) (f : FieldNo) : State :=
  let t := s.timebase f
  if t.state.tracks then
    s.setTimebase f { t.gapAtLeast t.overdueAt with state := .holdover, missed := 1 }
  else s

/-- A further expiry in HOLDOVER: one more missed pulse, or at the holdover limit LOST, with SOUND raised and the
program unit told (R97, R77). -/
def State.expireHoldover (s : State) (f : FieldNo) : State :=
  let t := s.timebase f
  if t.state == .holdover then
    let expired := t.gapAtLeast t.nextExpiryAt
    if t.missed < t.settings.holdover then s.setTimebase f { expired with missed := t.missed + 1 }
    else ((s.setTimebase f { expired with state := .lost, marked := false }).raiseSound f).stallField f
  else s

/-- The reference of a SEEK without a measuring pulse is dropped (R101). -/
def State.dropReference (s : State) (f : FieldNo) : State :=
  let t := s.timebase f
  if t.state == .seek && t.reference then
    s.setTimebase f { t with reference := false, gap := 0, strobes := 0 }
  else s

/-! ### The update (R102 to R106) -/

/-- The frames covered by the gap of a pulse taken in HOLDOVER: the gap over the nominal period, a half rounded up
(R102). -/
def Timebase.bridged (t : Timebase) : Nat := (t.gap + t.nominal / 2) / t.nominal

/-- The frequency target T (R104). -/
def frequencyTarget (gap ns k : Nat) : Nat := (gap * 256 + ns * k / 2) / (ns * k)

/-- The divisor written by a measurement, within its range (R100, R105). -/
def boundDivisor (d : Int) : Nat := (clampInt 127744 134400 d).toNat

/-- The slip moved on by the frames covered (R103). -/
def Timebase.newSlip (t : Timebase) (ns k : Nat) : Int :=
  clampInt (-32767) 32767 (t.slip + (t.strobes : Int) - (ns : Int) * (k : Int))

/-- The divisor after phase pull and jump limit, before the clamp to its range (R104, R105). -/
def Timebase.pulledDivisor (t : Timebase) (ns k : Nat) : Int :=
  let target := (frequencyTarget t.gap ns k : Int) + (t.settings.gain : Int) * t.newSlip ns k
  (t.divisor : Int) + clampInt (-(t.settings.jump : Int)) (t.settings.jump : Int) (target - (t.divisor : Int))

/-- The lock state and run that a pulse leaves, judged on the new slip (R106). -/
def Timebase.judge (t : Timebase) (slip : Int) : TimebaseState × Nat :=
  match t.state with
  | .track =>
    if slip.natAbs ≤ t.settings.window then
      if 8 ≤ t.run + 1 then (.locked, t.run + 1) else (.track, t.run + 1)
    else (.track, 0)
  | .locked => if slip.natAbs ≤ 4 * t.settings.window then (.locked, t.run) else (.track, 0)
  | _ => (.track, 0)

/-- A LOCKED timebase loses lock at a pulse with this new slip (R106). -/
def Timebase.losesLock (t : Timebase) (slip : Int) : Bool :=
  t.state == .locked && decide (4 * t.settings.window < slip.natAbs)

/-- The update of a pulse accepted in TRACK, LOCKED or HOLDOVER that covers `k` frames (R102 to R106). -/
def Timebase.update (t : Timebase) (ns k : Nat) : Timebase :=
  let slip := t.newSlip ns k
  let d := t.pulledDivisor ns k
  let judged := t.judge slip
  { t with
    slip := slip
    divisor := boundDivisor d
    range := (boundDivisor d : Int) != d
    state := judged.1
    run := judged.2
    missed := 0
    lastGap := t.gap
    lastStrobes := t.strobes
    gap := 0
    strobes := 0 }

/-- The measuring pulse of SEEK (R100). -/
def Timebase.measure (t : Timebase) (ns : Nat) : Timebase :=
  let target := frequencyTarget t.gap ns 1
  { t with
    divisor := boundDivisor target
    range := boundDivisor target != target
    slip := 0
    run := 0
    missed := 0
    state := .track
    lastGap := t.gap
    lastStrobes := t.strobes
    gap := 0
    strobes := 0 }

/-- The reference pulse of SEEK (R99). -/
def Timebase.refer (t : Timebase) : Timebase :=
  { t with reference := true, gap := 0, strobes := 0, slip := 0, missed := 0 }

/-- The pulse that leaves LOST (R98). -/
def Timebase.recover (t : Timebase) : Timebase :=
  { t with
    state := .seek, reference := true, gap := 0, strobes := 0, marker := 0, slip := 0, run := 0
    missed := 0, reacquire := some 1 }

/-- The reacquire count moved on by the frames of an accepted pulse, judged on the state after the pulse: success at
LOCKED, failure at the limit with its tally and SOUND (R108). -/
def State.countReacquire (s : State) (f : FieldNo) (k : Nat) : State :=
  let t := s.timebase f
  match t.reacquire with
  | none => s
  | some n =>
    if t.state == .locked then s.setTimebase f { t with reacquire := none }
    else if t.settings.reacquire ≤ n + k then
      ((s.setTimebase f { t with reacquire := none }).count (.field f .reacquireFailures)).raiseSound f
    else s.setTimebase f { t with reacquire := some (min 65535 (n + k)) }

/-- A pulse accepted and measured in TRACK, LOCKED or HOLDOVER (R102 to R108): update, lock loss, reacquire count,
frame advance. -/
def State.measuredPulse (s : State) (f : FieldNo) (k : Nat) : State :=
  let t := s.timebase f
  let ns := (s.program f).ns
  let updated := s.setTimebase f (t.update ns k)
  let judged :=
    if t.losesLock (t.newSlip ns k) then (updated.count (.field f .lockLosses)).raiseSound f else updated
  (judged.countReacquire f k).frameAdvance f k

/-- A pulse too soon after the last accepted one is counted and otherwise ignored (R96). -/
def Timebase.tooSoon (t : Timebase) : Bool := decide (t.gap < t.nominal / 2)

/-- A frame pulse, by the state of the timebase that takes it (R95). -/
def State.takePulse (s : State) (f : FieldNo) : State :=
  let t := s.timebase f
  match t.state with
  | .stopped => s
  | .free => s
  | .seek =>
    if !t.reference then ((s.setTimebase f t.refer).countReacquire f 1).frameAdvance f 1
    else if t.tooSoon then s.count (.field f .pulseGlitches)
    else ((s.setTimebase f (t.measure (s.program f).ns)).countReacquire f 1).frameAdvance f 1
  | .track => if t.tooSoon then s.count (.field f .pulseGlitches) else s.measuredPulse f 1
  | .locked => if t.tooSoon then s.count (.field f .pulseGlitches) else s.measuredPulse f 1
  | .holdover => s.measuredPulse f t.bridged
  | .lost => ((s.setTimebase f t.recover).endStall f).frameAdvance f 1

end Sys2Proof.Machine
end

