-- ==== Sys2Proof/Machine/LaneOps.lean ====
section
/-! DEFINITION. The lane unit's own work: opening and closing a lane (R47, R49), loop levels (R45), passes (R51, R55, R57,
R58), pass timers running out (R52, R56 to R58). -/

namespace Sys2Proof.Machine

/-- A lane opens: the barrier is raised and the pass timer starts with the lane's pass time (R49, R54, R57). -/
def Lane.openFor (x : Lane) (served : Option CarHandle) : Lane :=
  { x with
    state := .opened, served := served, begun := false, barrier := true, timer := some (x.passTime * 1000) }

/-- A lane enters WAITING, which raises LANE (R47, R180). -/
def State.laneWaits (s : State) (l : LaneNo) : State :=
  (s.setLane l { s.lane l with state := .waiting }).raise .lane

/-- A lane leaves OPEN by closing: WAITING with LANE raised if its arrival level is OCCUPIED, IDLE if it is CLEAR
(R47). -/
def State.closeLane (s : State) (l : LaneNo) : State :=
  let closed := s.setLane l
    { s.lane l with state := .idle, barrier := false, timer := none, served := none, begun := false }
  if (s.lane l).arrival.level == .occupied then closed.laneWaits l else closed

/-- A loop whose filtered level is the level its raw input has held: no change is on its way (R45). -/
def LoopInput.settled (level : LoopLevel) : LoopInput := { level := level, raw := level, filter := none }

/-- A raw change of a loop input: a level other than the filtered one starts 50 ms, the filtered level itself cancels
them; a raw input that does not change leaves them (R45). -/
def LoopInput.rawChange (x : LoopInput) (level : LoopLevel) : LoopInput :=
  if x.raw == level then x
  else { x with raw := level, filter := if x.level == level then none else some 50 }

/-- The arrival loop of a lane is recorded at a filtered level (R45, R47). -/
def State.setArrival (s : State) (l : LaneNo) (level : LoopLevel) : State :=
  s.setLane l { s.lane l with arrival := LoopInput.settled level }
/-- The pass loop of a lane is recorded at a filtered level (R45, R51). -/
def State.setPass (s : State) (l : LaneNo) (level : LoopLevel) : State :=
  s.setLane l { s.lane l with pass := LoopInput.settled level }

/-- Arrival occupied: an IDLE lane waits; in OPEN the level alone is recorded (R47). A loop that is occupied already
gives no such event (R45). -/
def State.arrivalOccupied (s : State) (l : LaneNo) : State :=
  if (s.lane l).arrival.level == .occupied then s
  else
    let noted := s.setArrival l .occupied
    if (s.lane l).state == .idle then noted.laneWaits l else noted

/-- Arrival cleared: a WAITING lane is IDLE with a balk, a REFUSED one IDLE; in OPEN the level alone is recorded
(R47). -/
def State.arrivalCleared (s : State) (l : LaneNo) : State :=
  if (s.lane l).arrival.level == .clear then s
  else
    let noted := s.setArrival l .clear
    let idle := noted.setLane l { noted.lane l with state := .idle }
    match (s.lane l).state with
    | .waiting => idle.count (.lane l .balks)
    | .refused => idle
    | .idle => noted
    | .opened => noted

/-- Pass occupied: the pass begins in OPEN, and is a tailgate in every other state (R51, R53). -/
def State.passOccupied (s : State) (l : LaneNo) : State :=
  if (s.lane l).pass.level == .occupied then s
  else
    let noted := s.setPass l .occupied
    if (s.lane l).state == .opened then noted.setLane l { noted.lane l with begun := true }
    else (noted.count (.lane l .tailgates)).raiseTailgate l

/-- The served entry of an entry lane is committed: PRESENT, touched, and counted with its party (R51). -/
def State.commitCar (s : State) (h : CarHandle) : State :=
  match s.car h with
  | none => s
  | some c =>
    (((s.setCar h (some { c with state := .present })).touch h).count (.field c.field .carsAdmitted)).count
      (.field c.field .personsAdmitted) c.party

/-- A complete pass of an open lane, before it closes: an entry lane commits the entry it serves, if any (R51, R58); a
bound exit lane retires its entry with cause DEPART, the lane's served entry cleared first, and counts a departure
(R55, R58); an unbound exit lane counts an unidentified exit (R57). -/
def State.completePass (s : State) (l : LaneNo) : State :=
  match (s.lane l).served with
  | some h =>
    if isEntryLane l then s.commitCar h
    else
      match s.car h with
      | none => s
      | some c =>
        ((s.setLane l { s.lane l with served := none }).retireCar h .depart).count (.field c.field .departed)
  | none =>
    if isEntryLane l then s
    else s.count (.unidentifiedExits ⟨l.val - 4, by omega⟩)

/-- Pass cleared: in OPEN with pass begun the pass is complete and the lane closes; else the level alone is recorded
(R51, R53, R55, R57). -/
def State.passCleared (s : State) (l : LaneNo) : State :=
  if (s.lane l).pass.level == .clear then s
  else
    let noted := s.setPass l .clear
    if (s.lane l).state == .opened && (s.lane l).begun then (noted.completePass l).closeLane l else noted

/-- An expired pass timer with the pass level OCCUPIED: the timer has run out, the pass begins, the barrier stays
(R52, R56, R57). -/
def State.beginPassAtExpiry (s : State) (l : LaneNo) : State :=
  s.setLane l { s.lane l with timer := none, begun := true }

/-- An entry lane's pass timer runs out (R52, R58): with the loop clear the served entry, if any, is withdrawn and the
no-pass counted, and the lane closes. -/
def State.entryExpiry (s : State) (l : LaneNo) : State :=
  if (s.lane l).state == .opened && (s.lane l).timer.isSome then
    if (s.lane l).pass.level == .occupied then s.beginPassAtExpiry l
    else
      let withdrawn :=
        match (s.lane l).served with
        | none => s
        | some h =>
          match s.car h with
          | none => s
          | some c =>
            ((s.setLane l { s.lane l with served := none }).retireCar h .withdrawn).count (.field c.field .withdrawn)
      (withdrawn.count (.lane l .noPass)).closeLane l
  else s

/-- An exit lane's pass timer runs out (R56, R57): with the loop clear the bound entry returns to PRESENT, touched,
the no-pass is counted, and the lane closes. -/
def State.exitExpiry (s : State) (l : LaneNo) : State :=
  if (s.lane l).state == .opened && (s.lane l).timer.isSome then
    if (s.lane l).pass.level == .occupied then s.beginPassAtExpiry l
    else
      let returned :=
        match (s.lane l).served with
        | none => s
        | some h =>
          match s.car h with
          | none => s
          | some c => (s.setCar h (some { c with state := .present })).touch h
      (returned.count (.lane l .noPass)).closeLane l
  else s

end Sys2Proof.Machine
end

