-- ==== Sys2Proof/Machine/Replies.lean ====
section
/-! DEFINITION. The reply records of R190 and the reply to READ CAUSES (R189), byte by byte. -/

namespace Sys2Proof.Machine

/-- The number of live entries (R25). -/
def State.liveCount (s : State) : Nat := countOf fun h => (s.car h).isSome

/-- Bytes 5 to 31 of the record of a live entry. -/
def liveBytes (c : Car) (touched : Bool) : List Nat :=
  [carStateCode c.state, c.field.val, c.stall.row, c.stall.post, classCode c.cls] ++ be4 c.ticket ++
    plateBytes c.plate ++ [c.party, c.lane] ++ be2 c.serial ++
    [optByte (c.lent.map fun x => x.1.val), optByte (c.lent.map fun x => setMarkCode x.2), c.orders.length] ++
    (List.range 4).map (fun i => optByte (c.orders[i]?.map Fin.val)) ++
    [flag c.held + flag touched 2]

/-- The car entry record: the register summary, then the entry; a VACANT one gives its state alone (R25). -/
def State.entryRecord (s : State) (h : CarHandle) : List Nat :=
  be2 s.serialCounter ++ be2 s.liveCount ++
    match s.car h with
    | none => [0]
    | some c => liveBytes c (s.entry h).touched

/-- The field record without a row (R17). -/
def State.fieldRecord (s : State) (f : FieldNo) : List Nat :=
  let u := s.unit f
  [flag u.configured, u.rows, u.posts, u.tall, u.accessible, optByte u.channel, u.signOn, u.signOff] ++
    be2 u.closed.toNat ++ [fieldStateCode (s.program f).state] ++ be2 u.occupancy ++ be2 u.standardFree ++
    be2 u.tallFree ++ [u.accessibleFree, flag u.full]

/-- The 32 places of a row: a handle, 0xFFFF free, 0xFFFE for a post beyond P (R17). -/
def FieldUnit.rowBytes (u : FieldUnit) (row : Fin 16) : List Nat :=
  (List.finRange 32).flatMap fun p =>
    if u.posts < p.val + 1 then be2 0xFFFE else optCar (u.at ⟨row, p⟩)

/-- The timebase record (R110). -/
def timebaseRecord (t : Timebase) (ns : Nat) : List Nat :=
  [timebaseStateCode t.state, flag t.reference + flag t.range 2 + flag t.reacquire.isSome 4] ++ be3 t.divisor ++
    signed2 t.slip ++ [t.run, t.missed] ++ be2 (t.reacquire.getD 0) ++ be3 t.nominal ++ be2 ns ++
    be4 t.lastGap ++ be3 t.lastStrobes ++ be4 t.gap ++
    [t.settings.window, t.settings.gain] ++ be2 t.settings.jump ++ [t.settings.holdover] ++ be2 t.settings.reacquire

/-- The header's ten bytes, zeros when the record is EMPTY (R88). -/
def headerBytes : Option Header → List Nat
  | none => List.replicate 10 0
  | some h =>
    be2 h.ns ++ [optByte h.cutoffSegment] ++ be3 h.cutoffFrames ++ be2 h.lead ++ [h.openCues.toNat, h.endCues.toNat]

/-- The program record without a segment (R88). -/
def ProgramUnit.bytes (p : ProgramUnit) : List Nat :=
  [p.record.code, p.record.segments.length] ++ headerBytes p.record.header? ++
    [fieldStateCode p.state, pauseReasonCode p.state, p.segment] ++ be3 p.frame ++
    [flag p.pastCutoff + flag p.runnersAllowed 2 + flag p.txen 4 + flag p.carrier 8, p.cues.toNat]

/-- The seven bytes of a segment (R88). -/
def Segment.bytes (seg : Segment) : List Nat :=
  [segmentKindCode seg.kind] ++ be3 seg.length ++ [seg.title, seg.cues.toNat, flag seg.runners]

/-- The lane record (R60). -/
def State.laneRecord (s : State) (l : LaneNo) : List Nat :=
  let x := s.lane l
  [flag (!isEntryLane l), laneStateCode x.state,
    flag (x.arrival.level == .occupied) + flag (x.pass.level == .occupied) 2 + flag x.barrier 4 + flag x.begun 8,
    x.passTime] ++ timeBytes2 x.timer ++ optCar x.served

/-- The number of slots in a state (R129). -/
def State.slotsIn (s : State) (st : SetState) : Nat := countOf fun n => (s.slot n).state == st

/-- The eight set states in state-code order. -/
def setStates : List SetState := [.unenrolled, .absent, .charging, .ready, .issuing, .lent, .lost, .faulty]

/-- The set record: the pool summary, then the slot; an UNENROLLED one gives its state alone (R129). -/
def State.setRecord (s : State) (n : SetHandle) : List Nat :=
  let x := s.slot n
  setStates.map s.slotsIn ++ [s.issuingCount, s.readyLevel, s.issueTime, setStateCode x.state] ++
    if x.state == .unenrolled then []
    else be6 x.serial ++ [x.charge, optByte (x.bay.map Fin.val)] ++ optCar x.car ++ [optByte x.channel] ++
      timeBytes3 x.timer

/-- The four bytes of a line of an order (R152). -/
def OrderLine.bytes (l : OrderLine) : List Nat := [l.item, l.quantity, l.station.val, lineStateCode l.state]

/-- The order record (R152). -/
def Order.bytes (ord : Order) : List Nat :=
  optCar ord.car ++ [ord.field.val, releaseModeCode ord.mode, stageCode ord.stage,
    flag ord.due + flag ord.cancelPending 2 + flag ord.late 4] ++ be4 ord.serial ++
    [optByte (ord.trip.map Fin.val)] ++ timeBytes3 ord.timer ++ [ord.lines.length] ++
    ord.lines.flatMap OrderLine.bytes

/-- The number of trips in a state (R163). -/
def State.tripsIn (s : State) (st : TripState) : Nat := countOf fun t => (s.trip t).state == st

/-- The seven bytes of an order on a trip (R163). -/
def State.routeBytes (s : State) (o : OrderHandle) : List Nat :=
  let ord := s.order o
  let place :=
    match s.stallOfOrder o with
    | some (f, st) => [f.val, st.row, st.post]
    | none => [0xFF, 0xFF, 0xFF]
  [o.val] ++ optCar (ord.bind Order.car) ++ place ++ [flag (ord.any Order.late) + flag (ord.any Order.cancelPending) 2]

/-- The trip record: the summary, then the trip's orders in route order (R163). -/
def State.tripRecord (s : State) (t : TripHandle) : List Nat :=
  let x := s.trip t
  [s.tripsIn .idle, s.tripsIn .gathering, s.tripsIn .fieldHold, s.tripsIn .out] ++ be2 s.readyList.length ++
    [s.window, tripStateCode x.state, optByte (x.field.map Fin.val)] ++ timeBytes3 x.timer ++ [x.orders.length] ++
    (s.routeOrder t).flatMap s.routeBytes

/-- The number of orders a test picks out (R153). -/
def State.ordersWith (s : State) (p : Order → Bool) : Nat := countOf fun o => (s.order o).any p

/-- The number of lines in a station's queue in a state (R153). -/
def State.queuedIn (s : State) (n : StationNo) (st : LineState) : Nat :=
  (s.station n).queue.countP fun l => (s.order l.1).any fun ord => ord.lineState l.2 == some st

/-- The five bytes of a station (R153). -/
def State.stationBytes (s : State) (n : StationNo) : List Nat :=
  [s.backlog n, s.queuedIn n .waiting, s.queuedIn n .started, (s.station n).xoff, (s.station n).xon]

/-- The kitchen record (R153). -/
def State.kitchenRecord (s : State) : List Nat :=
  [Stage.parked, .queued, .preparing, .ready, .onTrip].flatMap
      (fun st => be2 (s.ordersWith fun ord => ord.stage == st)) ++
    be2 (256 - s.ordersWith fun _ => true) ++ be2 s.parked.length ++
    be2 (s.parked.countP fun o => (s.order o).any Order.due) ++ be2 (s.ordersWith Order.late) ++
    be2 (s.ordersWith Order.cancelPending) ++ be4 s.placement ++ [s.prepLimit, flag s.hold] ++
    (List.finRange 4).flatMap s.stationBytes

/-- The tallies of a group in the order of R190, for the groups 0 to 6 of R62. -/
def tallyGroup (group : Nat) : Option (List Tally) :=
  match group with
  | 4 => some ((List.finRange 6).flatMap (fun l =>
      [.lane l .balks, .lane l .tailgates, .lane l .noPass]) ++ [.unidentifiedExits 0, .unidentifiedExits 1])
  | 5 => some ([KitchenTally.placed, .delivered, .undeliverable, .cancelled, .late, .wasteLines,
      .stationDeferrals].map .kitchen)
  | 6 => some ([SetTally.lends, .returns, .issueTimeouts, .unlawfulRemovals, .lost].map .sets)
  | n => (handle? 4 n).map fun f =>
      [FieldTally.carsAdmitted, .personsAdmitted, .departed, .withdrawn, .lockLosses, .reacquireFailures,
        .pulseGlitches, .carrierLosses].map (.field f)

/-- One flag per record that a test picks out, bit 0 for the first. -/
def flagsOf {n : Nat} (p : Fin n → Bool) : Nat :=
  ((List.finRange n).map fun i => flag (p i) (2 ^ i.val)).sum

/-- The reply to READ CAUSES (R183, R189). -/
def State.causesRecord (s : State) : List Nat :=
  let a := s.attention
  be2 a.causes.toNat ++ be2 a.mask.toNat ++
    [a.tailgate.toNat, a.segment.toNat + 16 * a.sound.toNat, a.setKinds.toNat, a.dispatched.toNat,
      a.portKinds.toNat, flagsOf fun l => (s.lane l).state == .waiting, flagsOf fun t => (s.trip t).state == .out,
      flag s.hold, a.notes.length + flag a.overflow 128] ++
    a.notes.flatMap fun note => [note.1.val, noteKindCode note.2]

end Sys2Proof.Machine
end

