-- ==== Sys2Proof/Machine/PortOps.lean ====
section
/-! DEFINITION. The command port: select periods (R172, R173), whole and edge by edge, the judging and taking of a frame
(R174, R175), completion (R175), replies (R177) and the output lines. -/

namespace Sys2Proof.Machine

/-- SDO carries the status byte, as it stands, on each of so many bytes (R172). -/
def State.clockStatus (s : State) (bytes : Nat) : State :=
  { s with port := { s.port with sdo := List.replicate bytes s.statusByte } }

/-- A select period that was under way when RESET rose ends: it is set aside whole (R186). That SDO is shown as carrying
nothing in it, although SEL is low, is the model's choice (log entry 23). -/
def State.setPeriodAside (s : State) : State :=
  { s with port := { s.port with select := .high, sdo := [] } }

/-- A whole select period: one that was under way when RESET rose is set aside, any other has its effect (R172, R186).
While RESET is low the port takes none (R186), and within a period no other can begin: the row changes nothing. -/
def State.selectPeriod (s : State) (effect : State → State) : State :=
  match s.port.select with
  | .high => effect s
  | .aside => s.setPeriodAside
  | .low _ => s
  | .inReset => s

/-- BUSY (R176). -/
def State.busy (s : State) : Bool := s.port.taken.isSome

/-- Stage 1 of taking a command: a held reply is discarded, REPLY_READY cleared, PORT raised (R175). -/
def State.discardReply (s : State) : State :=
  match s.port.reply with
  | none => s
  | some _ => { s with port := { s.port with reply := none } }.raisePort .replyDiscarded

/-- Completion: the reply is stored, REPLY_READY set, BUSY cleared (R175). -/
def Answer.complete (a : Answer) : State :=
  { a.state with
    port := { a.state.port with reply := some (replyFrame a.code a.bytes), taken := none } }

/-- A taken command from its taking to its completion (R175). -/
def State.runCommand (s : State) (work : State → Answer) : State := (work s.discardReply).complete

/-- The whole life of a command's frame in one step: SDO carries the status byte; a frame that ends while BUSY is
discarded with BUSY_FRAME; any other is taken, worked and answered (R172, R174, R175). Log entry 1. -/
def State.command (s : State) (i : Instr) (work : State → Answer) : State :=
  s.selectPeriod fun s =>
    let clocked := s.clockStatus i.frame.length
    if s.busy then clocked.raisePort .busyFrame else clocked.runCommand work

/-- The MCLK cycles from the taking of a command to its completion: a free value within 50 µs, 1,228 whole cycles
(R175). Log entry 2. -/
def workCycles (n : Nat) : Nat := Config.workTime n % 1228 + 1

/-- The frame ended on a byte boundary and its byte count is 2 and the length byte (R174). -/
def frameWellMade (bytes : List Nat) (offBoundary : Bool) : Bool :=
  !offBoundary &&
    match bytes with
    | _ :: len :: args => args.length == len
    | _ => false

/-- A frame is taken: BUSY is set until its completion (R175, R176). -/
def State.takeFrame (s : State) (bytes : List Nat) : State :=
  let s1 := s.discardReply
  { s1 with
    port := { s1.port with taken := some { bytes := bytes, left := workCycles s1.freeCount } }
    freeCount := s1.freeCount + 1 }

/-- The judging of a command frame at the rise of SEL, by whether it ended while BUSY (R174). -/
def State.judgeFrame (s : State) (bytes : List Nat) (offBoundary busy : Bool) : State :=
  if !frameWellMade bytes offBoundary then s.raisePort .frameError
  else if busy then s.raisePort .busyFrame
  else s.takeFrame bytes

/-- The reply frame that FETCH REPLY sends: the one held, or NOT_FOUND with length 0 (R177). -/
def State.fetchedFrame (s : State) : List Nat := s.port.reply.getD (replyFrame .notFound [])

/-- FETCH REPLY over so many whole bytes: SDO carries the status byte, the reply frame, then 0x00; a reply whose frame
was clocked whole is released (R172, R177). -/
def State.fetch (s : State) (clocked : Nat) : State :=
  let frame := s.fetchedFrame
  let sdo := ([s.statusByte] ++ frame ++ List.replicate clocked 0).take clocked
  let reply := if frame.length + 1 ≤ clocked then none else s.port.reply
  { s with port := { s.port with sdo := sdo, reply := reply } }

/-- A whole select period with nothing between its edges, by its first byte (R173): empty, READ STATUS, FETCH REPLY or a
command frame. -/
def State.wholePeriod (s : State) (bytes : List Nat) (offBoundary : Bool) : State :=
  match bytes with
  | [] => s.clockStatus 0
  | first :: _ =>
    if first = 0xF1 then s.clockStatus bytes.length
    else if first = 0xF2 then s.fetch bytes.length
    else (s.clockStatus bytes.length).judgeFrame bytes offBoundary s.busy

/-! ### A select period edge by edge (R172, R174, R177, R179) -/

/-- Eight bits make one byte, most significant bit first (R172). -/
def byteOfBits (bits : List Bool) : Nat := bits.foldl (fun n b => 2 * n + b.toNat) 0

/-- The eight bits of a byte, most significant bit first (R172). -/
def bitsOfByte (byte : Nat) : List Bool := (List.range 8).map fun k => byte.testBit (7 - k)

/-- The byte that SDO begins when SCK falls at a byte boundary: in a FETCH REPLY the reply frame that was fixed at the end
of its first byte, and 0x00 behind it; else the status byte as it now stands. Before the first byte of a period it is the
byte that SEL's fall has begun (R172, R177). -/
def State.nextOut (s : State) (p : Period) : Nat :=
  match p.bytes with
  | [] => p.out
  | first :: rest =>
    if first = 0xF2 then (p.fetched.getD (replyFrame .notFound [])).getD rest.length 0 else s.statusByte

/-- SCK falls within a select period: SDO changes to the bit that the next rising edge clocks, of a new byte at a byte
boundary (R172). That the status is sampled at the edge which puts a byte's first bit on SDO, and not at the rising edge
which clocks that bit, is the model's choice (log entry 29). -/
def State.dropSck (s : State) (p : Period) : State :=
  let out := if p.bits.isEmpty then s.nextOut p else p.out
  let changed := { p with out := out, level := out.testBit (7 - p.bits.length), sckHigh := some false }
  { s with port := { s.port with select := .low changed } }

/-- SCK rises within a select period: SDI is sampled and SDO stands (R172). The eighth bit makes the byte whole, notes
whether BUSY is set (R174) and, at the end of a first byte of FETCH REPLY, the reply held (R177). -/
def State.raiseSck (s : State) (p : Period) (sdi : Bool) : State :=
  let bits := p.bits ++ [sdi]
  if bits.length < 8 then { s with port := { s.port with select := .low { p with bits := bits, sckHigh := some true } } }
  else
    let byte := byteOfBits bits
    { s with
      port :=
        { s.port with
          sdo := s.port.sdo ++ [p.out]
          select := .low
            { p with
              bytes := p.bytes ++ [byte], bits := [], sckHigh := some true, busyAtLastBit := s.busy
              fetched := if p.bytes.isEmpty && byte == 0xF2 then s.port.reply else p.fetched } } }

/-- The end of a FETCH REPLY: a reply that was fixed at the end of its first byte and has been clocked whole is released;
a reply stored since is not (R177). -/
def State.releaseFetched (s : State) (p : Period) : State :=
  match p.fetched with
  | none => s
  | some frame =>
    if frame.length + 1 ≤ p.bytes.length then { s with port := { s.port with reply := none } } else s

/-- What the rise of SEL makes of a select period, by its first byte (R173, R174, R177). A frame ends while BUSY also
where BUSY has cleared since its last bit (R174; log entry 24). -/
def State.endPeriod (s : State) (p : Period) (offBoundary : Bool) : State :=
  match p.bytes with
  | [] => s
  | first :: _ =>
    if first = 0xF1 then s
    else if first = 0xF2 then s.releaseFetched p
    else s.judgeFrame p.bytes offBoundary (s.busy || p.busyAtLastBit)

/-- SEL falls: SDO is driven, with the first bit of the status byte as it stands (R172; log entry 29). -/
def State.selFalls (s : State) : State :=
  match s.port.select with
  | .high =>
    let begun : Period := { out := s.statusByte, level := s.statusByte.testBit 7 }
    { s with port := { s.port with select := .low begun, sdo := [] } }
  | .low _ => s
  | .aside => s
  | .inReset => s

/-- An edge of SCK: it counts in a select period alone (R172, R186), and is none on a line that stands there already. -/
def State.clockEdge (s : State) (edge : SckEdge) : State :=
  match s.port.select with
  | .low p =>
    match edge with
    | .falls => if p.sckHigh = some false then s else s.dropSck p
    | .rises sdi => if p.sckHigh = some true then s else s.raiseSck p sdi
  | .high => s
  | .aside => s
  | .inReset => s

/-- So many edges of SCK. -/
def State.clockEdges (s : State) (edges : List SckEdge) : State := edges.foldl State.clockEdge s

/-- The edges that clock bytes in: for each bit a falling edge, where SCK is not low already, and a rising one. The falling
edge that follows the last bit in clock mode 0 is the first of the next byte's edges, or a row's own (R172). -/
def edgesOfBytes (bytes : List Nat) : List SckEdge :=
  (bytes.flatMap bitsOfByte).flatMap fun sdi => [.falls, .rises sdi]

/-- SEL rises, after further bits or at once: the period ends off a byte boundary when bits of a byte are left (R172,
R186). -/
def State.selRises (s : State) (offBoundary : Bool) : State :=
  match s.port.select with
  | .low p => ({ s with port := { s.port with select := .high } }).endPeriod p (offBoundary || !p.bits.isEmpty)
  | .aside => s.setPeriodAside
  | .high => s
  | .inReset => s

/-! ### The output lines -/

/-- RESET is low (R186). -/
def State.inReset (s : State) : Bool := s.port.select == .inReset

/-- The level of SDO, or none where it is not driven: driven while SEL is low, but not in a period set aside (R172,
R186; log entry 23). -/
def State.sdoLevel (s : State) : Option Bool :=
  match s.port.select with
  | .low p => some p.level
  | .high => none
  | .aside => none
  | .inReset => none

/-- The levels of the output lines, SDO apart (spec/09, section 9.9). -/
structure Lines where
  attn : Bool := false
  barriers : Vector Bool 6 := Vector.replicate 6 false
  full : Vector Bool 4 := Vector.replicate 4 false
  cues : Vector (BitVec 4) 4 := Vector.replicate 4 0
  txen : Vector Bool 4 := Vector.replicate 4 false
  wordClock : Vector Bool 4 := Vector.replicate 4 false
  marker : Vector Bool 4 := Vector.replicate 4 false
  khold : Bool := false
  deriving DecidableEq, Repr

/-- The output lines: every one low while RESET is low, else as their owners hold them (R186). -/
def State.lines (s : State) : Lines :=
  if s.inReset then {}
  else
    { attn := s.attn
      barriers := s.lanes.map Lane.barrier
      full := s.fieldUnits.map FieldUnit.full
      cues := s.programs.map ProgramUnit.cues
      txen := s.programs.map ProgramUnit.txen
      wordClock := s.timebases.map Timebase.wordClock
      marker := s.timebases.map Timebase.marked
      khold := s.hold }

end Sys2Proof.Machine
end

