-- ==== Sys2Proof/Machine/FieldCmds.lean ====
section
/-! DEFINITION. CONFIGURE FIELD, CLOSE ROWS, OPEN ROWS, READ FIELD (chapter 1); CONFIGURE TIMEBASE, READ TIMEBASE
(chapter 5). Each command has its work, the checks and changes of its rule, and its arm's meaning: the work behind
the port. -/

namespace Sys2Proof.Machine

/-- A meaning's outcome: no rule of the manual stops the part. -/
abbrev Result := Host.Outcome State Fault Refusal

/-- No other configured field has the channel (R3). -/
def State.channelFree (s : State) (f : FieldNo) (channel : Nat) : Bool :=
  (List.finRange 4).all fun g => g == f || !((s.unit g).configured && (s.unit g).channel == some channel)

/-- The work of CONFIGURE FIELD (R3). -/
def workConfigureField (field rows posts tall accessible channel signOn signOff : Nat) (s : State) : Answer :=
  s.withHandle 4 field fun f =>
    s.checked
      [((s.program f).state == .dark, .state),
       (within 1 16 rows && within 1 32 posts, .badArg),
       (within 1 (rows + 1) tall, .badArg),
       (accessible ≤ 8 && accessible ≤ posts, .badArg),
       (channel ≤ 39, .badArg),
       (signOn ≤ 64 && within (signOn + 1) 65 signOff, .badArg),
       (s.channelFree f channel, .duplicate)]
      ((s.setUnit f
        { s.unit f with
          rows := rows, posts := posts, tall := tall, accessible := accessible, channel := some channel
          signOn := signOn, signOff := signOff, stalls := Vector.replicate 512 none }).ok (be2 (rows * posts)))

/-- CONFIGURE FIELD. -/
def execConfigureField (field rows posts tall accessible channel signOn signOff : Nat) (s : State) : Result :=
  .next (s.command (.configureField field rows posts tall accessible channel signOn signOff)
    (workConfigureField field rows posts tall accessible channel signOn signOff))

/-- The closed rows of a field are written; the full sign is evaluated once unless the field is DARK; the reply is the
whole closed-row mask (R5, R6). -/
def State.writeClosedRows (s : State) (f : FieldNo) (closed : BitVec 16) : Answer :=
  ((s.setUnit f { s.unit f with closed := closed }).evaluateSignIfLit f).ok (be2 closed.toNat)

/-- The work of CLOSE ROWS (R5). -/
def workCloseRows (field mask : Nat) (s : State) : Answer :=
  s.withHandle 4 field fun f => s.writeClosedRows f ((s.unit f).closed ||| BitVec.ofNat 16 mask)

/-- CLOSE ROWS. -/
def execCloseRows (field mask : Nat) (s : State) : Result :=
  .next (s.command (.closeRows field mask) (workCloseRows field mask))

/-- The work of OPEN ROWS (R6). -/
def workOpenRows (field mask : Nat) (s : State) : Answer :=
  s.withHandle 4 field fun f => s.writeClosedRows f ((s.unit f).closed &&& ~~~(BitVec.ofNat 16 mask))

/-- OPEN ROWS. -/
def execOpenRows (field mask : Nat) (s : State) : Result :=
  .next (s.command (.openRows field mask) (workOpenRows field mask))

/-- The work of READ FIELD (R17). -/
def workReadField (field row : Nat) (s : State) : Answer :=
  s.withHandle 4 field fun f =>
    if row = 0 then s.ok (s.fieldRecord f)
    else
      s.withHandle 16 (row - 1) fun r =>
        s.checked [((s.unit f).configured && decide (row ≤ (s.unit f).rows), .badArg)]
          (s.ok (s.fieldRecord f ++ (s.unit f).rowBytes r))

/-- READ FIELD. -/
def execReadField (field row : Nat) (s : State) : Result :=
  .next (s.command (.readField field row) (workReadField field row))

/-- The five settings' bytes (R109, R190). -/
def settingsBytes (x : LockSettings) : List Nat :=
  [x.window, x.gain] ++ be2 x.jump ++ [x.holdover] ++ be2 x.reacquire

/-- The work of CONFIGURE TIMEBASE (R109). -/
def workConfigureTimebase (field window gain jump holdover reacquire : Nat) (s : State) : Answer :=
  s.withHandle 4 field fun f =>
    s.checked
      [((s.program f).state == .dark || (s.program f).state == .opened, .state),
       (within 1 64 window && decide (gain ≤ 64) && within 1 4096 jump && within 1 48 holdover &&
          within 24 480 reacquire, .badArg)]
      (let x : LockSettings :=
          { window := window, gain := gain, jump := jump, holdover := holdover, reacquire := reacquire }
       (s.setTimebase f { s.timebase f with settings := x }).ok (settingsBytes x))

/-- CONFIGURE TIMEBASE. -/
def execConfigureTimebase (field window gain jump holdover reacquire : Nat) (s : State) : Result :=
  .next (s.command (.configureTimebase field window gain jump holdover reacquire)
    (workConfigureTimebase field window gain jump holdover reacquire))

/-- The work of READ TIMEBASE (R110). -/
def workReadTimebase (field : Nat) (s : State) : Answer :=
  s.withHandle 4 field fun f => s.ok (timebaseRecord (s.timebase f) (s.program f).ns)

/-- READ TIMEBASE. -/
def execReadTimebase (field : Nat) (s : State) : Result :=
  .next (s.command (.readTimebase field) (workReadTimebase field))

end Sys2Proof.Machine
end

