-- ==== Sys2Proof/Machine/TimebaseEvents.lean ====
section
/-! DEFINITION. The events of the timebases (chapter 5) and of the carrier inputs (R81): frame pulse, pulse overdue,
holdover expiry, reference dropped, word strobe, fall of the word clock, carrier loss, carrier rise. -/

namespace Sys2Proof.Machine

/-- A rising edge of FPn (R95). -/
def execFramePulse (field : FieldNo) (s : State) : Result := .next (s.takePulse field)

/-- One and a half nominal periods without an accepted pulse (R97). -/
def execPulseOverdue (field : FieldNo) (s : State) : Result := .next (s.overduePulse field)

/-- A further nominal period in HOLDOVER (R97). -/
def execHoldoverExpiry (field : FieldNo) (s : State) : Result := .next (s.expireHoldover field)

/-- One and a half nominal periods without a measuring pulse (R101). -/
def execReferenceDropped (field : FieldNo) (s : State) : Result := .next (s.dropReference field)

/-- The timebase runs on to its next word strobe, as the event row stands for that moment. A WCKn that is
still high, because no row has reported its fall, stays high through the row, and a frame marker on FMKn with it: the
model's choice (R91, R92, log entry 8). -/
def Timebase.runToStrobe (t : Timebase) (ns : Nat) : Timebase :=
  if t.state == .stopped then t else (t.elapse (max 1 (t.cyclesTo t.divisor))).strobe ns

/-- The accumulator of a timebase reaches D (R91). -/
def execWordStrobe (field : FieldNo) (s : State) : Result :=
  .next (s.setTimebase field ((s.timebase field).runToStrobe (s.program field).ns))

/-- The timebase runs on to the fall of its word clock; a clock that is low has none (R91, log entry 8). -/
def Timebase.runToFall (t : Timebase) : Timebase :=
  if t.state != .stopped && t.wordClock then (t.elapse (max 1 (t.cyclesTo (t.divisor / 2)))).fall else t

/-- The accumulator of a timebase reaches half of D after a strobe (R91). -/
def execWordClockFall (field : FieldNo) (s : State) : Result :=
  .next (s.setTimebase field (s.timebase field).runToFall)

/-- A fall of CAROKn: counted, and SOUND raised, while TXENn is on; an input that is low already does not fall (R81). -/
def State.loseCarrier (s : State) (f : FieldNo) : State :=
  let p := s.program f
  if p.carrier then
    let low := s.setProgram f { p with carrier := false }
    if p.txen then (low.count (.field f .carrierLosses)).raiseSound f else low
  else s

/-- A fall of CAROKn (R81). -/
def execCarrierLoss (field : FieldNo) (s : State) : Result := .next (s.loseCarrier field)

/-- A rise of CAROKn: the level alone (R81). -/
def execCarrierRise (field : FieldNo) (s : State) : Result :=
  .next (s.setProgram field { s.program field with carrier := true })

end Sys2Proof.Machine
end

