-- ==== Sys2Proof/Machine/LaneCmds.lean ====
section
/-! DEFINITION. The commands and events of the lanes (chapter 3): ADMIT, REFUSE, DEPART, LET OUT, READ LANE, CONFIGURE
LANES, the loop events and the pass timers. -/

namespace Sys2Proof.Machine

/-- The arguments of ADMIT, read and within their ranges (R48). -/
structure AdmitRequest where
  lane : Fin 4
  field : FieldNo
  cls : StallClass
  ticket : Nat
  plate : List PlatePos
  party : Nat
  named : Option Stall
  deriving DecidableEq, Repr

/-- An optional named stall: none named, or row and post in their ranges (R48). -/
def namedStallOf : Option (Nat × Nat) → Option (Option Stall)
  | none => some none
  | some rp => (stallOf rp.1 rp.2).map some

/-- The first check of ADMIT: every argument in its range (R48). -/
def admitRequest? (lane field cls party ticket : Nat) (plate : List Nat) (named : Option (Nat × Nat)) :
    Option AdmitRequest :=
  match handle? 4 lane, handle? 4 field, classOf cls, plateOf plate, namedStallOf named with
  | some l, some f, some c, some p, some st =>
    if within 1 4294967295 ticket && within 1 15 party then
      some { lane := l, field := f, cls := c, ticket := ticket, plate := p, party := party, named := st }
    else none
  | _, _, _, _, _ => none

/-- Some live entry carries the ticket (R20, R48). -/
def State.ticketInUse (s : State) (ticket : Nat) : Bool :=
  (List.finRange 1024).any fun h => (s.car h).any fun c => c.ticket == ticket

/-- The lowest-numbered VACANT entry (R22). -/
def State.vacantEntry (s : State) : Option CarHandle := lowest fun h => (s.car h).isNone

/-- The next admission serial: one more than the last, and 65,535 once it gets there (R23). -/
def State.nextSerial (s : State) : Nat := min 65535 (s.serialCounter + 1)

/-- The entry that ADMIT makes (R22). -/
def AdmitRequest.car (q : AdmitRequest) (st : Stall) (serial : Nat) : Car :=
  { state := .arriving, field := q.field, stall := st, cls := q.cls, ticket := q.ticket
    plate := storedPlate q.plate, party := q.party, lane := q.lane.val, serial := serial }

/-- The changes of ADMIT: the entry is made, the stall taken, the full sign evaluated, the lane opened (R22, R49). -/
def State.admitInto (s : State) (q : AdmitRequest) (h : CarHandle) (st : Stall) : State :=
  let made := { s.setCar h (some (q.car st s.nextSerial)) with serialCounter := s.nextSerial }
  let placed := (made.setStall q.field st (some h)).evaluateSign q.field
  placed.setLane (entryLane q.lane) ((placed.lane (entryLane q.lane)).openFor (some h))

/-- The work of ADMIT behind its first check (R48). -/
def State.admitChecked (s : State) (q : AdmitRequest) : Answer :=
  s.checked
    [((s.lane (entryLane q.lane)).state == .waiting, .state),
     ((s.program q.field).state != .ended, .showOver),
     ((s.program q.field).state.admits, .state),
     (!(s.program q.field).pastCutoff, .cutoff),
     (!s.ticketInUse q.ticket, .duplicate)]
    (match s.vacantEntry with
     | none => s.deny .full
     | some h =>
       match (s.unit q.field).choose q.cls q.named with
       | .error code => s.deny code
       | .ok st => (s.admitInto q h st).ok (be2 h.val ++ [st.row, st.post]))

/-- The work of ADMIT (R48, R49). -/
def workAdmit (lane field cls party ticket : Nat) (plate : List Nat) (named : Option (Nat × Nat)) (s : State) :
    Answer :=
  match admitRequest? lane field cls party ticket plate named with
  | none => s.deny .badArg
  | some q => s.admitChecked q

/-- ADMIT. -/
def execAdmit (lane field cls party ticket : Nat) (plate : List Nat) (named : Option (Nat × Nat)) (s : State) :
    Result :=
  .next (s.command (.admitCar lane field cls party ticket plate named)
    (workAdmit lane field cls party ticket plate named))

/-- The work of REFUSE (R50). -/
def workRefuse (lane : Nat) (s : State) : Answer :=
  s.withHandle 4 lane fun l =>
    s.checked [((s.lane (entryLane l)).state == .waiting, .state)]
      ((s.setLane (entryLane l) { s.lane (entryLane l) with state := .refused }).ok)

/-- REFUSE. -/
def execRefuse (lane : Nat) (s : State) : Result := .next (s.command (.refuse lane) (workRefuse lane))

/-- The exit lane that a lane number 4 or 5 names (R54, R57). -/
def exitLaneOf (lane : Nat) : Option LaneNo := if lane < 4 then none else handle? 6 lane

/-- The changes of DEPART: an issue is cancelled, the entry becomes LEAVING, the lane opens bound to it (R54). -/
def State.departCar (s : State) (l : LaneNo) (h : CarHandle) (c : Car) : State :=
  let settled :=
    match c.lent with
    | some (n, .issuing) => s.cancelIssue n
    | _ => s
  let leaving := settled.modCar h fun x => { x with state := .leaving, lent := none }
  leaving.setLane l ((leaving.lane l).openFor (some h))

/-- The entry is PRESENT, not held, and has no LENT set: the checks of DEPART on the car (R54). -/
def departChecks (c : Car) : List (Bool × ResultCode) :=
  [(c.state == .present, .state), (!c.held, .editing), (!c.lent.any fun x => x.2 == .lent, .setOut)]

/-- The work of DEPART (R54). -/
def workDepart (lane car : Nat) (s : State) : Answer :=
  match exitLaneOf lane, handle? 1024 car with
  | some l, some h =>
    s.checked [((s.lane l).state == .waiting, .state)]
      (match s.car h with
       | none => s.deny .state
       | some c =>
         s.checked (departChecks c)
           ((s.departCar l h c).ok [c.orders.length, flag (c.lent.any fun x => x.2 == .issuing)]))
  | _, _ => s.deny .badArg

/-- DEPART. -/
def execDepart (lane car : Nat) (s : State) : Result := .next (s.command (.depart lane car) (workDepart lane car))

/-- The work of LET OUT (R57). -/
def workLetOut (lane : Nat) (s : State) : Answer :=
  match exitLaneOf lane with
  | none => s.deny .badArg
  | some l =>
    s.checked [((s.lane l).state == .waiting, .state)] ((s.setLane l ((s.lane l).openFor none)).ok)

/-- LET OUT. -/
def execLetOut (lane : Nat) (s : State) : Result := .next (s.command (.letOut lane) (workLetOut lane))

/-- The work of READ LANE (R60). -/
def workReadLane (lane : Nat) (s : State) : Answer := s.withHandle 6 lane fun l => s.ok (s.laneRecord l)

/-- READ LANE. -/
def execReadLane (lane : Nat) (s : State) : Result := .next (s.command (.readLane lane) (workReadLane lane))

/-- Each flagged lane takes the pass time (R59). -/
def State.setPassTimes (s : State) (mask passTime : Nat) : State :=
  s.forEach (List.finRange 6) fun l acc =>
    if maskBit mask l.val then acc.setLane l { acc.lane l with passTime := passTime } else acc

/-- The work of CONFIGURE LANES (R59). -/
def workConfigureLanes (mask passTime : Nat) (s : State) : Answer :=
  s.checked [(decide (mask < 64), .badArg), (within 3 60 passTime, .badArg)]
    (let t := s.setPassTimes mask passTime
     t.ok ((List.finRange 6).map fun l => (t.lane l).passTime))

/-- CONFIGURE LANES. -/
def execConfigureLanes (mask passTime : Nat) (s : State) : Result :=
  .next (s.command (.configureLanes mask passTime) (workConfigureLanes mask passTime))

/-! ### Events of the loops and pass timers -/

/-- A raw change of a loop input (R45). -/
def execLoopRawChange (lane : LaneNo) (loop : Loop) (level : LoopLevel) (s : State) : Result :=
  let x := s.lane lane
  .next (s.setLane lane
    (match loop with
     | .arrival => { x with arrival := x.arrival.rawChange level }
     | .pass => { x with pass := x.pass.rawChange level }))

/-- Arrival occupied (R47). While RESET is low no level passes its filter (R46, R186). -/
def execArrivalOccupied (lane : LaneNo) (s : State) : Result :=
  .next (if s.inReset then s else s.arrivalOccupied lane)

/-- Arrival cleared (R47). -/
def execArrivalCleared (lane : LaneNo) (s : State) : Result := .next (s.arrivalCleared lane)

/-- Pass occupied (R51, R53). While RESET is low no level passes its filter (R46, R186). -/
def execPassOccupied (lane : LaneNo) (s : State) : Result :=
  .next (if s.inReset then s else s.passOccupied lane)

/-- Pass cleared (R51, R55, R57). -/
def execPassCleared (lane : LaneNo) (s : State) : Result := .next (s.passCleared lane)

/-- An entry lane's pass timer runs out (R52). -/
def execEntryPassTimerExpiry (lane : Fin 4) (s : State) : Result := .next (s.entryExpiry (entryLane lane))

/-- An exit lane's pass timer runs out (R56, R57). -/
def execExitPassTimerExpiry (lane : Fin 2) (s : State) : Result := .next (s.exitExpiry (exitLane lane))

end Sys2Proof.Machine
end

