-- ==== Sys2Proof/Machine/LotCmds.lean ====
section
/-! DEFINITION. The commands of the lot register (chapter 2): READ ENTRY, the lookups, HOLD ENTRY, MOVE ENTRY, AMEND ENTRY,
RELEASE ENTRY, RETIRE ENTRY, READ TOUCHED. -/

namespace Sys2Proof.Machine

/-- The work of READ ENTRY (R25). -/
def workReadEntry (car : Nat) (s : State) : Answer := s.withHandle 1024 car fun h => s.ok (s.entryRecord h)

/-- READ ENTRY. -/
def execReadEntry (car : Nat) (s : State) : Result := .next (s.command (.readEntry car) (workReadEntry car))

/-- The live entries that are not held and pass a test, in handle order (R26 to R28). -/
def State.findable (s : State) (p : Car → Bool) : List (CarHandle × Car) :=
  (List.finRange 1024).filterMap fun h =>
    match s.car h with
    | none => none
    | some c => if !c.held && p c then some (h, c) else none

/-- The work of LOOKUP TICKET (R26). -/
def workLookupTicket (ticket : Nat) (s : State) : Answer :=
  s.checked [(ticket != 0, .badArg)]
    (match (s.findable fun c => c.ticket == ticket).head? with
     | none => s.deny .notFound
     | some (h, c) => s.ok (be2 h.val ++ [carStateCode c.state, c.field.val, c.stall.row, c.stall.post]))

/-- LOOKUP TICKET. -/
def execLookupTicket (ticket : Nat) (s : State) : Result :=
  .next (s.command (.lookupTicket ticket) (workLookupTicket ticket))

/-- A position is compared when it is UNREAD on neither side (R28). -/
def isCompared (pair : PlatePos × PlatePos) : Bool := pair.1 != .unread && pair.2 != .unread

/-- The compared count of a query and a stored plate (R28). -/
def comparedCount (query plate : List PlatePos) : Nat := (query.zip plate).countP isCompared

/-- The entry matches: at least four positions compared, each equal on both sides (R28). -/
def plateMatches (query plate : List PlatePos) : Bool :=
  decide (4 ≤ comparedCount query plate) && (query.zip plate).all fun pr => !isCompared pr || pr.1 == pr.2

/-- The compared count of a car's plate, 0 when it has none. -/
def Car.compared (c : Car) (query : List PlatePos) : Nat := (c.plate.map (comparedCount query)).getD 0

/-- The matching entries, ranked: larger compared count first, then smaller serial, then smaller handle (R29). They
are found in handle order, and each of the two sorts keeps the order of what it ranks equal. -/
def State.plateRanking (s : State) (query : List PlatePos) : List (CarHandle × Car) :=
  sortByRank (fun x => 8 - x.2.compared query)
    (sortByRank (fun x => x.2.serial) (s.findable fun c => c.plate.any (plateMatches query)))

/-- The reply of LOOKUP PLATE to its ranking (R29). -/
def plateReply (query : List PlatePos) (ranking : List (CarHandle × Car)) : List Nat :=
  [min 255 ranking.length] ++ (ranking.take 4).flatMap fun x => be2 x.1.val ++ [x.2.compared query]

/-- The work of LOOKUP PLATE (R28, R29). -/
def workLookupPlate (plate : List Nat) (s : State) : Answer :=
  match plateOf plate with
  | none => s.deny .badArg
  | some query =>
    s.checked [(decide (4 ≤ query.countP (· != .unread)), .badArg)]
      (let ranking := s.plateRanking query
       if ranking.isEmpty then ⟨s, .notFound, [0]⟩ else s.ok (plateReply query ranking))

/-- LOOKUP PLATE. -/
def execLookupPlate (plate : List Nat) (s : State) : Result :=
  .next (s.command (.lookupPlate plate) (workLookupPlate plate))

/-- The handle in a stall of a configured field, if the stall lies within its rows and posts and is taken (R27). -/
def FieldUnit.parkedAt (u : FieldUnit) (st : Stall) : Option CarHandle :=
  if u.configured && u.has st then u.at st else none

/-- The work of LOOKUP STALL (R27). -/
def workLookupStall (field row post : Nat) (s : State) : Answer :=
  match handle? 4 field, stallOf row post with
  | some f, some st =>
    match (s.unit f).parkedAt st with
    | none => s.deny .notFound
    | some h =>
      match s.car h with
      | none => s.deny .notFound
      | some c =>
        if c.held then s.deny .notFound
        else s.ok (be2 h.val ++ [carStateCode c.state, classCode c.cls] ++ be4 c.ticket)
  | _, _ => s.deny .badArg

/-- LOOKUP STALL. -/
def execLookupStall (field row post : Nat) (s : State) : Result :=
  .next (s.command (.lookupStall field row post) (workLookupStall field row post))

/-- Work on a live entry; a VACANT one is refused with STATE, as one in the wrong state is. -/
def State.withCar (s : State) (h : CarHandle) (work : Car → Answer) : Answer :=
  match s.car h with
  | none => s.deny .state
  | some c => work c

/-- The work of HOLD ENTRY (R30). -/
def workHoldEntry (car : Nat) (s : State) : Answer :=
  s.withHandle 1024 car fun h =>
    s.withCar h fun c =>
      s.checked [(c.state == .present, .state), (!c.held, .editing)]
        (let t := s.setCar h (some { c with held := true })
         t.ok (t.entryRecord h))

/-- HOLD ENTRY. -/
def execHoldEntry (car : Nat) (s : State) : Result := .next (s.command (.holdEntry car) (workHoldEntry car))

/-- A car goes from its stall to another: the new stall is written, the old one freed, the entry's place rewritten, and
the full sign of each field whose map changed evaluated (R15, R33, R34). -/
def State.moveCar (s : State) (h : CarHandle) (c : Car) (f : FieldNo) (st : Stall) : State :=
  let moved := ((s.setStall f st (some h)).setStall c.field c.stall none).setCar h
    (some { c with field := f, stall := st })
  let signed := moved.evaluateSign c.field
  if f == c.field then signed else signed.evaluateSign f

/-- The checks of a move to another field (R34). -/
def State.crossChecks (s : State) (c : Car) (f : FieldNo) : List (Bool × ResultCode) :=
  [(c.lent.isNone, .crossField), (c.orders.isEmpty, .crossField), ((s.program f).state.admits, .state),
   (!(s.program f).pastCutoff, .cutoff)]

/-- A move of a held car to a stall of a field, its own or another (R33, R34). -/
def State.moveTo (s : State) (h : CarHandle) (c : Car) (f : FieldNo) (named : Option Stall) : Answer :=
  s.checked (if f == c.field then [] else s.crossChecks c f)
    (match (s.unit f).choose c.cls named with
     | .error code => s.deny code
     | .ok st => (s.moveCar h c f st).ok [f.val, st.row, st.post])

/-- The optional named stall of MOVE ENTRY: a row byte of 0 names none (R187). -/
def moveStallOf (row post : Nat) : Option (Option Stall) :=
  if row = 0 then some none else (stallOf row post).map some

/-- The optional target field of MOVE ENTRY: 0xFF is none (R187). -/
def targetOf (target : Nat) : Option (Option FieldNo) :=
  match sentinel target with
  | none => some none
  | some n => (handle? 4 n).map some

/-- The work of MOVE ENTRY (R32 to R34). -/
def workMoveEntry (car target row post : Nat) (s : State) : Answer :=
  match handle? 1024 car, targetOf target, moveStallOf row post with
  | some h, some f, some named =>
    s.withCar h fun c =>
      s.checked [(c.held, .state)] (s.moveTo h c (f.getD c.field) named)
  | _, _, _ => s.deny .badArg

/-- MOVE ENTRY. -/
def execMoveEntry (car target row post : Nat) (s : State) : Result :=
  .next (s.command (.moveEntry car target row post) (workMoveEntry car target row post))

/-- The changes that AMEND ENTRY asks for: each item only if its flag is set (R35). -/
structure Amendment where
  plate : Option (List PlatePos)
  cls : Option StallClass
  party : Option Nat
  deriving DecidableEq, Repr

/-- An item whose flag is clear is not read; one whose flag is set is in its range or refuses the command (R35). -/
def flaggedItem {α : Type} (isFlagged : Bool) (value : Option α) : Option (Option α) :=
  if isFlagged then value.map some else some none

/-- The first check of AMEND ENTRY on its items (R35). -/
def amendment? (flags : Nat) (plate : List Nat) (cls party : Nat) : Option Amendment :=
  match flaggedItem (maskBit flags 0) (plateOf plate), flaggedItem (maskBit flags 1) (classOf cls),
    flaggedItem (maskBit flags 2) (if within 1 15 party then some party else none) with
  | some p, some c, some n => if flags < 8 then some { plate := p, cls := c, party := n } else none
  | _, _, _ => none

/-- The entry with the flagged items written (R35). -/
def Amendment.apply (x : Amendment) (c : Car) : Car :=
  { c with
    plate := match x.plate with
      | none => c.plate
      | some p => storedPlate p
    cls := x.cls.getD c.cls
    party := x.party.getD c.party }

/-- The work of AMEND ENTRY (R35). -/
def workAmendEntry (car flags : Nat) (plate : List Nat) (cls party : Nat) (s : State) : Answer :=
  match handle? 1024 car, amendment? flags plate cls party with
  | some h, some x =>
    s.withCar h fun c =>
      s.checked
        [(c.held, .state),
         (x.cls.all (fun k => (s.unit c.field).fits k c.stall), .badStall)]
        (let t := s.setCar h (some (x.apply c))
         t.ok (t.entryRecord h))
  | _, _ => s.deny .badArg

/-- AMEND ENTRY. -/
def execAmendEntry (car flags : Nat) (plate : List Nat) (cls party : Nat) (s : State) : Result :=
  .next (s.command (.amendEntry car flags plate cls party) (workAmendEntry car flags plate cls party))

/-- The work of RELEASE ENTRY (R36). -/
def workReleaseEntry (car : Nat) (s : State) : Answer :=
  s.withHandle 1024 car fun h =>
    s.withCar h fun c =>
      s.checked [(c.held, .state)] ((s.setCar h (some { c with held := false })).ok)

/-- RELEASE ENTRY. -/
def execReleaseEntry (car : Nat) (s : State) : Result :=
  .next (s.command (.releaseEntry car) (workReleaseEntry car))

/-- The work of RETIRE ENTRY (R37). -/
def workRetireEntry (car force : Nat) (s : State) : Answer :=
  s.withHandle 1024 car fun h =>
    s.checked [(isFlag force, .badArg)]
      (s.withCar h fun c =>
        s.checked
          [(c.state == .present, .state), (!c.held, .editing), (force == 1 || c.lent.isNone, .setOut)]
          ((s.retireCar h .retire).ok [c.report.orders, c.report.lost + 2 * c.report.issuesCancelled]))

/-- RETIRE ENTRY. -/
def execRetireEntry (car force : Nat) (s : State) : Result :=
  .next (s.command (.retireEntry car force) (workRetireEntry car force))

/-- The touched list, in ascending handle order (R41). -/
def State.touchedList (s : State) : List CarHandle :=
  (List.finRange 1024).filter fun h => (s.entry h).touched

/-- These handles' touched flags are cleared (R42). -/
def State.clearTouched (s : State) (hs : List CarHandle) : State :=
  s.forEach hs fun h acc => acc.setEntry h { acc.entry h with touched := false }

/-- The work of READ TOUCHED (R42). -/
def workReadTouched (s : State) : Answer :=
  let hs := s.touchedList.take 32
  (s.clearTouched hs).ok
    ([hs.length, flag (decide (32 < s.touchedList.length))] ++ hs.flatMap fun h => be2 h.val)

/-- READ TOUCHED. -/
def execReadTouched (s : State) : Result := .next (s.command .readTouched workReadTouched)

end Sys2Proof.Machine
end

