-- ==== Sys2Proof/Machine/OrderCmds.lean ====
section
/-! DEFINITION. The commands and the timer of the order book and the prep stations (chapter 7, R167): PLACE ORDER, CANCEL
ORDER, STATION NEXT, LINE DONE, READ ORDER, CONFIGURE KITCHEN, READ KITCHEN, the prep timer. -/

namespace Sys2Proof.Machine

/-- The lowest-numbered free slot of the book (R135). -/
def State.freeOrder (s : State) : Option OrderHandle := lowest fun o => (s.order o).isNone

/-- A line as given, WAITING, if its quantity and station are in their ranges (R131, R134). -/
def lineOf (x : LineArg) : Option OrderLine :=
  match handle? 4 x.station with
  | some n =>
    if within 1 9 x.quantity then some { item := x.item, quantity := x.quantity, station := n, state := .waiting }
    else none
  | none => none

/-- The lines of an order, if every one is in its ranges (R134). -/
def linesOf (xs : List LineArg) : Option (List OrderLine) := xs.mapM lineOf

/-- The next placement serial: one more than the last, and 4,294,967,295 once it gets there (R135). -/
def State.nextPlacement (s : State) : Nat := min 4294967295 (s.placement + 1)

/-- The order that PLACE ORDER makes (R135, step 1). -/
def newOrder (h : CarHandle) (f : FieldNo) (mode : ReleaseMode) (serial : Nat) (lines : List OrderLine) : Order :=
  { car := some h, field := f, mode := mode, stage := .parked, due := false, cancelPending := false, late := false
    serial := serial, trip := none, timer := none, lines := lines }

/-- Steps 1 to 4 of PLACE ORDER (R135): the order in its slot, the counter, the parked list, the car's list, the
tally. -/
def State.parkOrder (s : State) (o : OrderHandle) (h : CarHandle) (f : FieldNo) (mode : ReleaseMode)
    (lines : List OrderLine) : State :=
  let stored := s.setOrder o (some (newOrder h f mode s.nextPlacement lines))
  let listed := { stored with placement := s.nextPlacement, parked := stored.parked ++ [o] }
  (listed.modCar h fun c => { c with orders := c.orders ++ [o] }).count (.kitchen .placed)

/-- Step 5 of PLACE ORDER: the new order's due check, and a release pass if it is due (R135, R139). -/
def State.placeDueCheck (s : State) (o : OrderHandle) (f : FieldNo) (mode : ReleaseMode) : State :=
  if (s.program f).isDue mode then (s.modOrder o fun ord => { ord with due := true }).releasePass else s

/-- The stage of an order, as its code; 5 once its slot is free (R145, R190). -/
def State.stageAfter (s : State) (o : OrderHandle) : Nat := ((s.order o).map fun ord => stageCode ord.stage).getD 5

/-- The first check of PLACE ORDER: handle, release mode, line count in their ranges, the count agreeing with the
length (R134, R175, R187). -/
def placeRequest? (car mode count : Nat) (lines : List LineArg) : Option (CarHandle × ReleaseMode) :=
  match handle? 1024 car, releaseModeOf mode with
  | some h, some m => if within 1 6 count && count == lines.length then some (h, m) else none
  | _, _ => none

/-- The checks of PLACE ORDER on the car's entry (R134). -/
def State.placeChecks (s : State) (c : Car) : List (Bool × ResultCode) :=
  [(c.state == .present, .state), (!c.held, .editing), ((s.program c.field).state != .ended, .showOver),
   (decide (c.orders.length < 4), .orderLimit)]

/-- The work of PLACE ORDER (R134, R135). -/
def workPlaceOrder (car mode count : Nat) (lines : List LineArg) (s : State) : Answer :=
  match placeRequest? car mode count lines with
  | none => s.deny .badArg
  | some (h, m) =>
    match s.car h with
    | none => s.deny .state
    | some c =>
      s.checked (s.placeChecks c)
        (match s.freeOrder, linesOf lines with
         | none, _ => s.deny .full
         | some _, none => s.deny .badArg
         | some o, some ls =>
           let t := (s.parkOrder o h c.field m ls).placeDueCheck o c.field m
           t.ok [o.val, t.stageAfter o, flag ((s.program c.field).isDue m)])

/-- PLACE ORDER. -/
def execPlaceOrder (car mode count : Nat) (lines : List LineArg) (s : State) : Result :=
  .next (s.command (.placeOrder car mode count lines) (workPlaceOrder car mode count lines))

/-- Work on an order: a free slot is answered NOT_FOUND. -/
def State.withOrder (s : State) (order : Nat) (work : OrderHandle → Order → Answer) : Answer :=
  s.withHandle 256 order fun o =>
    match s.order o with
    | none => s.deny .notFound
    | some ord => work o ord

/-- The work of CANCEL ORDER (R167 to R169): CANCELLED when the cancel settled at once, PENDING when it settles
later. -/
def workCancelOrder (order : Nat) (s : State) : Answer :=
  s.withOrder order fun o ord =>
    if ord.cancelPending then s.deny .pending
    else
      let t := s.cancelAtStage o ord
      if (t.order o).isNone then t.deny .cancelled else t.deny .pending

/-- CANCEL ORDER. -/
def execCancelOrder (order : Nat) (s : State) : Result :=
  .next (s.command (.cancelOrder order) (workCancelOrder order))

/-- A line of an order in a new state. -/
def Order.withLine (ord : Order) (n : Nat) (st : LineState) : Order :=
  { ord with lines := ord.lines.modify n fun l => { l with state := st } }

/-- The line of the order is WAITING. -/
def State.lineWaits (s : State) (l : OrderHandle × Nat) : Bool :=
  (s.order l.1).any fun ord => ord.lineState l.2 == some .waiting

/-- The oldest WAITING line in a station's queue (R144). -/
def State.oldestWaiting (s : State) (n : StationNo) : Option (OrderHandle × Nat) := (s.station n).queue.find? s.lineWaits

/-- A line is handed out: it is STARTED, and its order, if QUEUED, PREPARING (R144). -/
def Order.handOut (ord : Order) (n : Nat) : Order :=
  { ord.withLine n .started with stage := if ord.stage == .queued then .preparing else ord.stage }

/-- The work of STATION NEXT (R144). -/
def workStationNext (station : Nat) (s : State) : Answer :=
  s.withHandle 4 station fun n =>
    match s.oldestWaiting n with
    | none => s.deny .notFound
    | some (o, k) =>
      match s.order o with
      | none => s.deny .notFound
      | some ord =>
        match ord.lines[k]? with
        | none => s.deny .notFound
        | some l =>
          (s.setOrder o (some (ord.handOut k))).ok
            [o.val, k, l.item, l.quantity, ord.field.val, flag ord.late]

/-- STATION NEXT. -/
def execStationNext (station : Nat) (s : State) : Result :=
  .next (s.command (.stationNext station) (workStationNext station))

/-- The changes of LINE DONE (R145): the line DONE and out of its queue, the order finished if no line of it is queued,
HOLD evaluated and a release pass run. -/
def State.finishLine (s : State) (o : OrderHandle) (ord : Order) (n : Nat) : State :=
  let finished := (s.setOrder o (some (ord.withLine n .finished))).withdrawLines fun l => l == (o, n)
  let settled := if finished.inQueues o then finished else finished.finishOrder o
  settled.afterFall

/-- The work of LINE DONE (R145). -/
def workLineDone (order line : Nat) (s : State) : Answer :=
  s.checked [(decide (order < 256) && decide (line ≤ 5), .badArg)]
    (s.withOrder order fun o ord =>
      s.checked
        [(decide (line < ord.lines.length), .badArg),
         (ord.lineState line == some .started, .state)]
        (let t := s.finishLine o ord line
         t.ok [t.stageAfter o]))

/-- LINE DONE. -/
def execLineDone (order line : Nat) (s : State) : Result := .next (s.command (.lineDone order line) (workLineDone order line))

/-- The work of READ ORDER (R152). -/
def workReadOrder (order : Nat) (s : State) : Answer := s.withOrder order fun _ ord => s.ok ord.bytes

/-- READ ORDER. -/
def execReadOrder (order : Nat) (s : State) : Result := .next (s.command (.readOrder order) (workReadOrder order))

/-- Each flagged station takes the thresholds (R147). -/
def State.setThresholds (s : State) (mask xoff xon : Nat) : State :=
  s.forEach (List.finRange 4) fun n acc =>
    if maskBit mask n.val then acc.setStation n { acc.station n with xoff := xoff, xon := xon } else acc

/-- The reply of CONFIGURE KITCHEN (R147, R190): the thresholds station by station, xoff before xon (log entry 27). -/
def State.thresholdBytes (s : State) : List Nat :=
  (List.finRange 4).flatMap (fun n => [(s.station n).xoff, (s.station n).xon]) ++ [s.prepLimit, flag s.hold]

/-- The work of CONFIGURE KITCHEN (R147); where an undefined mask bit is refused is log entry 9, that the release pass
after leaving HOLD counts its deferrals log entry 28. -/
def workConfigureKitchen (mask xoff xon prepLimit : Nat) (s : State) : Answer :=
  s.checked
    [(decide (mask < 16) && within 2 255 xoff && decide (xon < xoff) && within 1 60 prepLimit, .badArg)]
    (let t := ({ s.setThresholds mask xoff xon with prepLimit := prepLimit }).afterThresholds
     t.ok t.thresholdBytes)

/-- CONFIGURE KITCHEN. -/
def execConfigureKitchen (mask xoff xon prepLimit : Nat) (s : State) : Result :=
  .next (s.command (.configureKitchen mask xoff xon prepLimit) (workConfigureKitchen mask xoff xon prepLimit))

/-- The work of READ KITCHEN (R153). -/
def workReadKitchen (s : State) : Answer := s.ok s.kitchenRecord

/-- READ KITCHEN. -/
def execReadKitchen (s : State) : Result := .next (s.command .readKitchen workReadKitchen)

/-- A prep timer runs out: the order is late, counted, and noted (R150). An order whose timer is stopped has none to
run out. -/
def State.prepExpiry (s : State) (o : OrderHandle) : State :=
  match s.order o with
  | none => s
  | some ord =>
    if ord.timer.isSome then
      ((s.setOrder o (some { ord with late := true, timer := none })).count (.kitchen .late)).raiseOrder o .late
    else s

/-- The prep timer of an order runs out (R150). -/
def execPrepTimerExpiry (order : OrderHandle) (s : State) : Result := .next (s.prepExpiry order)

end Sys2Proof.Machine
end

