-- ==== Sys2Proof/Machine/PortCmds.lean ====
section
/-! DEFINITION. The commands of the port, the attention unit and the tally bank (chapters 3 and 9): READ STATUS, FETCH
REPLY, READ CAUSES, CLEAR CAUSES, SET CAUSE MASK, IDENTIFY, CLOSE DAY, READ TALLIES, an unknown code, the judging of a
frame, part reset. -/

namespace Sys2Proof.Machine

/-- READ STATUS over so many whole bytes with nothing between: SDO carries the status byte on each, and nothing changes
(R173, R179). Where something comes between two bytes, the rows are COMMAND_FRAME_JUDGED's. -/
def execReadStatus (clocked : Nat) (s : State) : Result := .next (s.selectPeriod fun x => x.clockStatus clocked)

/-- FETCH REPLY over so many whole bytes with nothing between (R177). -/
def execFetchReply (clocked : Nat) (s : State) : Result := .next (s.selectPeriod fun x => x.fetch clocked)

/-- The work of READ CAUSES (R183). -/
def workReadCauses (s : State) : Answer := s.ok s.causesRecord

/-- READ CAUSES. -/
def execReadCauses (s : State) : Result := .next (s.command .readCauses workReadCauses)

/-- The work of CLEAR CAUSES (R184). -/
def workClearCauses (word : Nat) (s : State) : Answer :=
  s.checked [(decide (word < 1024), .badArg)]
    (let t := { s with attention := s.attention.clear (BitVec.ofNat 10 word) }
     t.ok (be2 t.attention.causes.toNat))

/-- CLEAR CAUSES. -/
def execClearCauses (word : Nat) (s : State) : Result := .next (s.command (.clearCauses word) (workClearCauses word))

/-- The work of SET CAUSE MASK (R182). -/
def workSetCauseMask (word : Nat) (s : State) : Answer :=
  s.checked [(decide (word < 1024), .badArg)]
    (let t := { s with attention := { s.attention with mask := BitVec.ofNat 10 word } }
     t.ok (be2 t.attention.mask.toNat ++ [flag t.attn]))

/-- SET CAUSE MASK. -/
def execSetCauseMask (word : Nat) (s : State) : Result := .next (s.command (.setCauseMask word) (workSetCauseMask word))

/-- The vendor byte, the part bytes and the revision letter C (R185, R190). -/
def identity : List Nat := [0x6E, 0x04, 0x12, 0x43]

/-- The work of IDENTIFY (R185). -/
def workIdentify (s : State) : Answer := s.ok identity

/-- IDENTIFY. -/
def execIdentify (s : State) : Result := .next (s.command .identify workIdentify)

/-- The work of CLOSE DAY (R64). -/
def workCloseDay (s : State) : Answer :=
  s.checked [(!s.dayOpen, .dayOpen)] (({ s with tallies := Vector.replicate 64 0, serialCounter := 0 }).ok)

/-- CLOSE DAY. -/
def execCloseDay (s : State) : Result := .next (s.command .closeDay workCloseDay)

/-- The work of READ TALLIES (R62). -/
def workReadTallies (group : Nat) (s : State) : Answer :=
  match tallyGroup group with
  | none => s.deny .badArg
  | some ts => s.ok (ts.flatMap fun t => be2 (s.tally t))

/-- READ TALLIES. -/
def execReadTallies (group : Nat) (s : State) : Result := .next (s.command (.readTallies group) (workReadTallies group))

/-- The work of a command whose code names none (R175). -/
def workUnknown (s : State) : Answer := s.deny .unknown

/-- A taken frame whose code names no command (R175). -/
def execUnknownCommand (code : Nat) (args : List Nat) (s : State) : Result :=
  .next (s.command (.unknownCommand code args) workUnknown)

/-- Bytes of a select period, and what comes after them (R172 to R174, R177): SEL falls where it is high, the bytes are
clocked, and SEL rises or stays low. A period that is whole in the row is `wholePeriod`. -/
def execCommandFrameJudged (bytes : List Nat) (after : PeriodEnd) (s : State) : Result :=
  .next
    (match after, s.port.select with
     | .rises offBoundary, .high => s.wholePeriod bytes offBoundary
     | .rises offBoundary, _ => (s.clockEdges (edgesOfBytes bytes)).selRises offBoundary
     | .stays edges, _ => s.selFalls.clockEdges (edgesOfBytes bytes ++ edges))

/-- A loop input after part reset: CLEAR, with the filter running where the input itself is OCCUPIED; its 50 ms run from
the release of RESET, since no time passes in the part before (R46). -/
def LoopInput.afterReset (x : LoopInput) : LoopInput :=
  { level := .clear, raw := x.raw, filter := if x.raw == .occupied then some 50 else none }

/-- A lane record after part reset: R44's values; the loop inputs are pins and stay as they are (R44, R46). -/
def Lane.afterReset (x : Lane) : Lane := { arrival := x.arrival.afterReset, pass := x.pass.afterReset }

/-- A program unit after part reset: R89's values; the input CAROKn is a pin and stays as it is (R81, R89). -/
def ProgramUnit.afterReset (p : ProgramUnit) : ProgramUnit := { carrier := p.carrier }

/-- Part reset: every record at its reset value, and the select line as given. The levels of the input pins stay, and the
model's queue and free-value counter are no part of the part (R186, log entries 4 and 6). -/
def State.partReset (s : State) (select : SelectLine) : State :=
  let lanes := State.reset.forEach (List.finRange 6) fun l acc => acc.setLane l (s.lane l).afterReset
  let inputs := lanes.forEach (List.finRange 4) fun f acc => acc.setProgram f (s.program f).afterReset
  { inputs with port := { select := select }, freeCount := s.freeCount, pending := s.pending }

/-- The select line as the port finds it when RESET rises: a period under way is to be set aside (R186). -/
def selectAtRelease (selLow : Bool) : SelectLine := if selLow then .aside else .high

/-- Power-on or RESET: part reset is taken while RESET is low, so at its fall, and whatever its low period has changed is
overwritten when it rises; a rise of a line that is high is none (R186). -/
def execPartReset (part : ResetPart) (s : State) : Result :=
  .next
    (match part with
     | .pulse selLow => s.partReset (selectAtRelease selLow)
     | .falls => s.partReset .inReset
     | .rises selLow => if s.inReset then s.partReset (selectAtRelease selLow) else s)

end Sys2Proof.Machine
end

