-- ==== Sys2Proof/Machine/SetCmds.lean ====
section
/-! DEFINITION. The commands and the timer of the set pool (chapter 6): ENROL SET, REMOVE SET, LEND SET, DOCK IN, DOCK
OUT, CHARGE, SET FAULT, SERVICE SET, READ SET, CONFIGURE SETS, the issue timer. -/

namespace Sys2Proof.Machine

/-- The slot is not UNENROLLED. -/
def SetSlot.enrolled (x : SetSlot) : Bool := x.state != .unenrolled

/-- The slot that holds a serial, among those that are not UNENROLLED; serials are unique there (R112). -/
def State.holderOf (s : State) (serial : Nat) : Option SetHandle :=
  lowest fun n => (s.slot n).enrolled && (s.slot n).serial == serial

/-- The lowest-numbered UNENROLLED slot (R116). -/
def State.freeSlot (s : State) : Option SetHandle := lowest fun n => !(s.slot n).enrolled

/-- The work of ENROL SET (R116). -/
def workEnrolSet (serial : Nat) (s : State) : Answer :=
  s.checked [(serial != 0, .badArg), ((s.holderOf serial).isNone, .duplicate)]
    (match s.freeSlot with
     | none => s.deny .full
     | some n => (s.setSlot n { state := .absent, serial := serial }).ok [n.val])

/-- ENROL SET. -/
def execEnrolSet (serial : Nat) (s : State) : Result := .next (s.command (.enrolSet serial) (workEnrolSet serial))

/-- The work of REMOVE SET (R117). -/
def workRemoveSet (slot : Nat) (s : State) : Answer :=
  s.withHandle 128 slot fun n =>
    s.checked
      [((s.slot n).enrolled, .notFound),
       ((s.slot n).state != .issuing && (s.slot n).state != .lent, .state)]
      (((s.clearBay n).setSlot n {}).ok)

/-- REMOVE SET. -/
def execRemoveSet (slot : Nat) (s : State) : Result := .next (s.command (.removeSet slot) (workRemoveSet slot))

/-- The fuller of two READY sets; of equal charges, the one found first, which has the lower handle (R119). -/
def fuller (s : State) (best : Option SetHandle) (n : SetHandle) : Option SetHandle :=
  if (s.slot n).state != .ready then best
  else
    match best with
    | none => some n
    | some b => if (s.slot b).charge < (s.slot n).charge then some n else some b

/-- The set that LEND SET chooses: the READY set of the highest charge, and of these the lowest handle (R119). -/
def State.chooseSet (s : State) : Option SetHandle := (List.finRange 128).foldl (fuller s) none

/-- The set becomes ISSUING for a car, with the channel of the car's field, its timer started; the entry's set field
names it, and the entry is not marked touched (R119). -/
def State.issueSet (s : State) (n : SetHandle) (h : CarHandle) (c : Car) : State :=
  (s.setSlot n
    { s.slot n with
      state := .issuing, car := some h, channel := (s.unit c.field).channel, timer := some (s.issueTime * 1000) }).setCarSet
    (some h) (some (n, .issuing))

/-- The checks of LEND SET on the car's entry (R118). -/
def State.lendChecks (s : State) (c : Car) : List (Bool × ResultCode) :=
  [(c.state == .present, .state), (!c.held, .editing), (c.lent.isNone, .setOut),
   ((s.program c.field).state != .ended, .showOver), (decide (s.issuingCount < 4), .issueLimit)]

/-- The work of LEND SET (R118, R119). -/
def workLendSet (car : Nat) (s : State) : Answer :=
  s.withHandle 1024 car fun h =>
    match s.car h with
    | none => s.deny .state
    | some c =>
      s.checked (s.lendChecks c)
        (match s.chooseSet with
         | none => s.deny .noSet
         | some n =>
           (s.issueSet n h c).ok
             [n.val, optByte ((s.slot n).bay.map Fin.val), optByte (s.unit c.field).channel, s.issueTime])

/-- LEND SET. -/
def execLendSet (car : Nat) (s : State) : Result := .next (s.command (.lendSet car) (workLendSet car))

/-- The other set that the bay map shows in a bay where this one is reported (R122). -/
def State.displacedBy (s : State) (n : SetHandle) (b : BayNo) : Option SetHandle :=
  match s.bay b with
  | none => none
  | some other => if other == n then none else some other

/-- The set is docked: its charge the reported one, its old bay empty, the reported bay taken (R123). -/
def State.dockAt (s : State) (n : SetHandle) (b : BayNo) (charge : Nat) : State :=
  let charged := s.setSlot n { s.slot n with charge := charge }
  (charged.clearBay n).takeBay n b

/-- The set is docked and takes its state by charge (R123). -/
def State.dockByCharge (s : State) (n : SetHandle) (b : BayNo) (charge : Nat) : State :=
  let docked := s.dockAt n b charge
  docked.setSlot n { docked.slot n with state := s.byCharge charge }

/-- The set arriving by DOCK IN, by its state (R123). -/
def State.arrive (s : State) (n : SetHandle) (b : BayNo) (charge : Nat) : State :=
  let x := s.slot n
  match x.state with
  | .issuing => ((s.cancelIssue n).touchCar x.car).dockByCharge n b charge
  | .lent =>
    (((s.setSlot n { x with car := none }).setCarSet x.car none).touchCar x.car).dockByCharge n b charge |>.count
      (.sets .returns)
  | .faulty => s.dockAt n b charge
  | .absent | .charging | .ready | .lost => s.dockByCharge n b charge
  | .unenrolled => s

/-- The outcome of DOCK IN by the state the arriving set was in: 0 docked, 1 moved, 2 issue cancelled, 3 returned,
4 recovered, 5 faulty docked (R123, R190). -/
def dockInOutcome (x : SetSlot) (b : BayNo) : Nat :=
  match x.state with
  | .charging | .ready => if x.bay == some b then 0 else 1
  | .issuing => 2
  | .lent => 3
  | .lost => 4
  | .faulty => 5
  | .absent | .unenrolled => 0

/-- A set found in the bay is taken as undocked (R122). -/
def State.undockFrom (s : State) (other : Option SetHandle) : State :=
  match other with
  | none => s
  | some m => s.displace m

/-- A serial read within its range, bay and charge in theirs (R122). -/
def dockInRanges (serial level : Nat) : Bool := serial != 0 && decide (level ≤ 100)

/-- The work of DOCK IN (R122, R123). -/
def workDockIn (bay serial level : Nat) (s : State) : Answer :=
  s.withHandle 128 bay fun b =>
    s.checked [(dockInRanges serial level, .badArg)]
      (match s.holderOf serial with
       | none => (s.raiseSet .foreign).deny .unknownSet
       | some n =>
         let t := (s.undockFrom (s.displacedBy n b)).arrive n b level
         t.ok [n.val, dockInOutcome (s.slot n) b, setStateCode (t.slot n).state,
           optByte ((s.displacedBy n b).map Fin.val)])

/-- DOCK IN. -/
def execDockIn (bay serial level : Nat) (s : State) : Result :=
  .next (s.command (.dockIn bay serial level) (workDockIn bay serial level))

/-- Work on the set that stands in a bay: an empty bay is answered NOT_FOUND (R124 to R126). -/
def State.withBay (s : State) (bay : Nat) (work : BayNo → SetHandle → Answer) : Answer :=
  s.withHandle 128 bay fun b =>
    match s.bay b with
    | none => s.deny .notFound
    | some n => work b n

/-- A lend completes: the set LENT with its car, its timer stopped, the entry's mark LENT, the entry touched, the lend
counted (R125). -/
def State.completeLend (s : State) (n : SetHandle) : State :=
  let x := s.slot n
  (((s.setSlot n { x with state := .lent, timer := none }).setCarSet x.car (some (n, .lent))).touchCar x.car).count
    (.sets .lends)

/-- An unlawful removal: the set ABSENT, counted, SET raised (R125). -/
def State.removeUnlawfully (s : State) (n : SetHandle) : State :=
  ((s.setSlot n { s.slot n with state := .absent }).count (.sets .unlawfulRemovals)).raiseSet .removal

/-- The bay is empty in the map, and the set found there names no bay (R113, R125). -/
def State.liftFrom (s : State) (b : BayNo) (n : SetHandle) : State :=
  (s.setBay b none).setSlot n { s.slot n with bay := none }

/-- The work of DOCK OUT (R125). Only docked sets stand in bays (R113); one of another state keeps it. -/
def workDockOut (bay : Nat) (s : State) : Answer :=
  s.withBay bay fun b n =>
    let lifted := s.liftFrom b n
    match (s.slot n).state with
    | .issuing => (lifted.completeLend n).ok ([n.val, 0] ++ optCar (s.slot n).car)
    | .ready | .charging => (lifted.removeUnlawfully n).ok ([n.val, 1] ++ optCar none)
    | .faulty | .unenrolled | .absent | .lent | .lost => lifted.ok ([n.val, 2] ++ optCar none)

/-- DOCK OUT. -/
def execDockOut (bay : Nat) (s : State) : Result := .next (s.command (.dockOut bay) (workDockOut bay))

/-- The state of a docked set after a charge reading, with the band of ten below the ready level (R124). -/
def chargedState (readyLevel level : Nat) (st : SetState) : SetState :=
  match st with
  | .charging => if readyLevel ≤ level then .ready else .charging
  | .ready => if level + 10 < readyLevel then .charging else .ready
  | other => other

/-- The work of CHARGE (R124). -/
def workCharge (bay level : Nat) (s : State) : Answer :=
  s.withHandle 128 bay fun _ =>
    s.checked [(decide (level ≤ 100), .badArg)]
      (s.withBay bay fun _ n =>
        let x := s.slot n
        let st := chargedState s.readyLevel level x.state
        (s.setSlot n { x with charge := level, state := st }).ok [n.val, level, setStateCode st])

/-- CHARGE. -/
def execCharge (bay level : Nat) (s : State) : Result := .next (s.command (.charge bay level) (workCharge bay level))

/-- The set in a bay fails its self-test: an issue is cancelled, its car's entry touched; then FAULTY (R126). -/
def State.failSet (s : State) (n : SetHandle) : State :=
  let x := s.slot n
  let ended := if x.state == .issuing then (s.cancelIssue n).touchCar x.car else s
  ended.setSlot n { ended.slot n with state := .faulty }

/-- The work of SET FAULT (R126). -/
def workSetFault (bay : Nat) (s : State) : Answer :=
  s.withBay bay fun _ n => (s.failSet n).ok [n.val, flag (s.isIssuing n)]

/-- SET FAULT. -/
def execSetFault (bay : Nat) (s : State) : Result := .next (s.command (.setFault bay) (workSetFault bay))

/-- The state of a repaired set: by its last charge where it is docked, else ABSENT (R127). -/
def State.servicedState (s : State) (x : SetSlot) : SetState := if x.bay.isSome then s.byCharge x.charge else .absent

/-- The work of SERVICE SET (R127). -/
def workServiceSet (slot : Nat) (s : State) : Answer :=
  s.withHandle 128 slot fun n =>
    s.checked [((s.slot n).state == .faulty, .state)]
      (let st := s.servicedState (s.slot n)
       (s.setSlot n { s.slot n with state := st }).ok [setStateCode st])

/-- SERVICE SET. -/
def execServiceSet (slot : Nat) (s : State) : Result := .next (s.command (.serviceSet slot) (workServiceSet slot))

/-- The work of READ SET (R129): selector 0 HANDLE, 1 BAY. -/
def workReadSet (selector number : Nat) (s : State) : Answer :=
  match selector with
  | 0 => s.withHandle 128 number fun n => s.ok (s.setRecord n)
  | 1 => s.withBay number fun _ n => s.ok (s.setRecord n)
  | _ => s.deny .badArg

/-- READ SET. -/
def execReadSet (selector number : Nat) (s : State) : Result :=
  .next (s.command (.readSet selector number) (workReadSet selector number))

/-- The work of CONFIGURE SETS (R115). -/
def workConfigureSets (readyLevel issueTime : Nat) (s : State) : Answer :=
  s.checked [(within 50 100 readyLevel && within 10 120 issueTime, .badArg)]
    (({ s with readyLevel := readyLevel, issueTime := issueTime }).ok [readyLevel, issueTime])

/-- CONFIGURE SETS. -/
def execConfigureSets (readyLevel issueTime : Nat) (s : State) : Result :=
  .next (s.command (.configureSets readyLevel issueTime) (workConfigureSets readyLevel issueTime))

/-- An issue timer runs out: the issue is cancelled, the entry touched, the timeout counted, SET raised (R121). A set
that is not ISSUING has no timer to run out. -/
def State.issueExpiry (s : State) (n : SetHandle) : State :=
  let x := s.slot n
  if x.state == .issuing && x.timer.isSome then
    (((s.cancelIssue n).touchCar x.car).count (.sets .issueTimeouts)).raiseSet .timeout
  else s

/-- The issue timer of a set runs out (R121). -/
def execIssueTimerExpiry (slot : SetHandle) (s : State) : Result := .next (s.issueExpiry slot)

end Sys2Proof.Machine
end

