-- ==== Sys2Proof/Machine/ShowCmds.lean ====
section
/-! DEFINITION. The commands of the program unit (chapter 4): BEGIN PROGRAM, ADD SEGMENT, OPEN FIELD, START SHOW, PAUSE
SHOW, RESUME SHOW, SKIP SEGMENT, END SHOW, CLOSE FIELD, READ PROGRAM. -/

namespace Sys2Proof.Machine

/-- The work of BEGIN PROGRAM (R68): a lead that is not given is not read. Where its flag and cue bytes are judged is log
entry 9. -/
def workBeginProgram (field ns cutoffSegment cutoffFrames leadGiven lead openCues endCues : Nat) (s : State) :
    Answer :=
  s.withHandle 4 field fun f =>
    s.checked
      [((s.program f).state == .dark, .state),
       ((decide (cutoffSegment ≤ 23) || cutoffSegment == 0xFF) && decide (cutoffFrames ≤ 1048575) &&
          isFlag leadGiven && (leadGiven == 0 || decide (lead ≤ 65535)) && decide (openCues < 16) &&
          decide (endCues < 16), .badArg)]
      ((s.setProgram f
        { s.program f with
          record := .draft
            { ns := ns
              cutoffSegment := sentinel cutoffSegment
              cutoffFrames := cutoffFrames
              lead := if leadGiven = 1 then lead else 8640
              openCues := BitVec.ofNat 4 openCues
              endCues := BitVec.ofNat 4 endCues } [] }).ok)

/-- BEGIN PROGRAM. -/
def execBeginProgram (field ns cutoffSegment cutoffFrames leadGiven lead openCues endCues : Nat) (s : State) :
    Result :=
  .next (s.command (.beginProgram field ns cutoffSegment cutoffFrames leadGiven lead openCues endCues)
    (workBeginProgram field ns cutoffSegment cutoffFrames leadGiven lead openCues endCues))

/-- The work of ADD SEGMENT (R69). -/
def workAddSegment (field kind length title cues runners : Nat) (s : State) : Answer :=
  s.withHandle 4 field fun f =>
    s.checked [((s.program f).state == .dark, .state)]
      (match (s.program f).record with
       | .draft header segs =>
         match segmentKindOf kind with
         | none => s.deny .badArg
         | some k =>
           s.checked
             [(within 1 1048575 length && decide (title ≤ 255) && decide (cues < 16) && isFlag runners, .badArg),
              (decide (segs.length < 24), .full)]
             ((s.setProgram f
               { s.program f with
                 record := .draft header (segs ++
                   [{ kind := k, length := length, title := title, cues := BitVec.ofNat 4 cues
                      runners := runners == 1 }]) }).ok [segs.length + 1])
       | .empty => s.deny .state
       | .loaded _ _ => s.deny .state)

/-- ADD SEGMENT. -/
def execAddSegment (field kind length title cues runners : Nat) (s : State) : Result :=
  .next (s.command (.addSegment field kind length title cues runners)
    (workAddSegment field kind length title cues runners))

/-- The validation of a draft at OPEN FIELD: a segment, a cutoff segment that exists, N_s in its range (R71). -/
def validDraft (header : Header) (segs : List Segment) : Bool :=
  !segs.isEmpty && header.cutoffSegment.all (fun c => decide (c < segs.length)) && within 1500 2500 header.ns

/-- The changes of OPEN FIELD when its checks pass (R71). -/
def State.openFieldWith (s : State) (f : FieldNo) (header : Header) (segs : List Segment) : State :=
  let p := { s.program f with
    record := .loaded header segs, state := .opened, segment := 0, frame := 0, txen := true }
  (((s.setProgram f p.withCues).setTimebase f ((s.timebase f).opened header.ns)).evaluateSign f).fieldChange f

/-- The work of OPEN FIELD (R71). -/
def workOpenField (field : Nat) (s : State) : Answer :=
  s.withHandle 4 field fun f =>
    s.checked
      [((s.program f).state == .dark, .state),
       ((s.unit f).configured, .state)]
      (match (s.program f).record with
       | .draft header segs => s.checked [(validDraft header segs, .badProgram)] (s.openFieldWith f header segs).ok
       | .empty => s.deny .badProgram
       | .loaded _ _ => s.deny .badProgram)

/-- OPEN FIELD. -/
def execOpenField (field : Nat) (s : State) : Result :=
  .next (s.command (.openField field) (workOpenField field))

/-- The work of START SHOW (R72). -/
def workStartShow (field : Nat) (s : State) : Answer :=
  s.withHandle 4 field fun f =>
    s.checked [((s.program f).state == .opened, .state)]
      ((((s.setProgram f { s.program f with state := .running, segment := 0, frame := 0 }.withCues).setTimebase f
        (s.timebase f).sought).fieldChange f).ok)

/-- START SHOW. -/
def execStartShow (field : Nat) (s : State) : Result :=
  .next (s.command (.startShow field) (workStartShow field))

/-- The work of PAUSE SHOW (R75). -/
def workPauseShow (field : Nat) (s : State) : Answer :=
  s.withHandle 4 field fun f =>
    s.checked [((s.program f).state == .running || (s.program f).state == .paused .stall, .state)]
      ((((s.setProgram f { s.program f with state := .paused .host }).setTimebase f
        (s.timebase f).freed).fieldChange f).ok)

/-- PAUSE SHOW. -/
def execPauseShow (field : Nat) (s : State) : Result :=
  .next (s.command (.pauseShow field) (workPauseShow field))

/-- The work of RESUME SHOW (R76). -/
def workResumeShow (field : Nat) (s : State) : Answer :=
  s.withHandle 4 field fun f =>
    s.checked [((s.program f).state == .paused .host, .state)]
      ((((s.setProgram f { s.program f with state := .running }).setTimebase f
        (s.timebase f).sought).fieldChange f).ok)

/-- RESUME SHOW. -/
def execResumeShow (field : Nat) (s : State) : Result :=
  .next (s.command (.resumeShow field) (workResumeShow field))

/-- The changes of SKIP SEGMENT when its checks pass (R78). -/
def State.skipSegment (s : State) (f : FieldNo) : State :=
  let p := s.program f
  let next := { p with segment := p.segment + 1, frame := 0 }
  if p.segment + 1 < p.record.segments.length then (s.setProgram f next.withCues).fieldChange f
  else ((s.setProgram f { p with segment := p.record.segments.length, frame := 0 }).endField f).fieldChange f

/-- The work of SKIP SEGMENT (R78). -/
def workSkipSegment (field : Nat) (s : State) : Answer :=
  s.withHandle 4 field fun f =>
    s.checked [((s.program f).state.inShow, .state)]
      ((s.skipSegment f).ok [((s.skipSegment f).program f).segment])

/-- SKIP SEGMENT. -/
def execSkipSegment (field : Nat) (s : State) : Result :=
  .next (s.command (.skipSegment field) (workSkipSegment field))

/-- The work of END SHOW (R79). -/
def workEndShow (field : Nat) (s : State) : Answer :=
  s.withHandle 4 field fun f =>
    s.checked [((s.program f).state.inShow, .state)] (((s.endField f).fieldChange f).ok)

/-- END SHOW. -/
def execEndShow (field : Nat) (s : State) : Result :=
  .next (s.command (.endShow field) (workEndShow field))

/-- The field goes DARK (R87): program dropped, outputs off, timebase STOPPED; configuration and closed rows kept. -/
def State.goDark (s : State) (f : FieldNo) : State :=
  let p := { s.program f with record := .empty, state := .dark, segment := 0, frame := 0, txen := false }
  (((s.setProgram f p.withCues).setUnit f { s.unit f with full := false }).setTimebase f
    (s.timebase f).stopped).fieldChange f

/-- The work of CLOSE FIELD (R85): without force the field holds no car, with force the cascade runs first. -/
def workCloseField (field force : Nat) (s : State) : Answer :=
  s.withHandle 4 field fun f =>
    s.checked
      [(isFlag force, .badArg),
       ((s.program f).state == .opened || (s.program f).state == .ended, .state),
       (force == 1 || (s.unit f).occupancy == 0, .occupied)]
      (if force = 1 then
        let report := s.cascadeReport f
        ((s.cascade f).goDark f).ok
          (be2 (s.carsOf f).length ++ [report.lost, report.issuesCancelled] ++ be2 report.orders)
       else (s.goDark f).ok (be2 0 ++ [0, 0] ++ be2 0))

/-- CLOSE FIELD. -/
def execCloseField (field force : Nat) (s : State) : Result :=
  .next (s.command (.closeField field force) (workCloseField field force))

/-- The work of READ PROGRAM (R88). -/
def workReadProgram (field segment : Nat) (s : State) : Answer :=
  s.withHandle 4 field fun f =>
    match sentinel segment with
    | none => s.ok (s.program f).bytes
    | some n =>
      match (s.program f).record.segments[n]? with
      | none => s.deny .badArg
      | some seg => s.ok ((s.program f).bytes ++ seg.bytes)

/-- READ PROGRAM. -/
def execReadProgram (field segment : Nat) (s : State) : Result :=
  .next (s.command (.readProgram field segment) (workReadProgram field segment))

end Sys2Proof.Machine
end

