-- ==== Sys2Proof/Machine/TripCmds.lean ====
section
/-! DEFINITION. The commands and the timer of the trip table (chapter 8): READ TRIP, TRIP REPORT, RECALL TRIP, CONFIGURE
TRIPS, the gather timer. -/

namespace Sys2Proof.Machine

/-- The work of READ TRIP (R163). -/
def workReadTrip (trip : Nat) (s : State) : Answer := s.withHandle 8 trip fun t => s.ok (s.tripRecord t)

/-- READ TRIP. -/
def execReadTrip (trip : Nat) (s : State) : Result := .next (s.command (.readTrip trip) (workReadTrip trip))

/-- How a report counts an order: 0 DELIVERED, 1 UNDELIVERABLE, 2 CANCELLED, 3 TOO_LATE (R164, R165). -/
def countedAs (delivered cancelPending : Bool) : Nat :=
  match delivered, cancelPending with
  | true, false => 0
  | false, false => 1
  | false, true => 2
  | true, true => 3

/-- The tallies and the cause of a report (R164, R165). -/
def State.countReport (s : State) (o : OrderHandle) (ord : Order) (delivered : Bool) : State :=
  match delivered, ord.cancelPending with
  | true, false => s.count (.kitchen .delivered)
  | false, false => s.count (.kitchen .undeliverable)
  | false, true =>
    ((s.count (.kitchen .cancelled)).count (.kitchen .wasteLines) ord.quantities).raiseOrder o .cancelSettled
  | true, true => (s.count (.kitchen .delivered)).raiseOrder o .tooLate

/-- The orders left on an order's trip when the order has left it (R164). -/
def State.leftOnTrip (s : State) (o : OrderHandle) (ord : Order) : Nat :=
  match ord.trip with
  | none => 0
  | some t => ((s.trip t).orders.erase o).length

/-- The changes of TRIP REPORT (R164, R165). -/
def State.reportOrder (s : State) (o : OrderHandle) (ord : Order) (delivered : Bool) : State :=
  ((s.countReport o ord delivered).touchCar ord.car).retireOrder o

/-- The work of TRIP REPORT (R164, R165). What is left on the trip, and that it became IDLE, are told as the report
leaves them, before the trip is formed again (log entry 11). -/
def workTripReport (order outcome : Nat) (s : State) : Answer :=
  s.checked [(decide (order < 256) && decide (outcome ≤ 1), .badArg)]
    (s.withHandle 256 order fun o =>
      match s.order o with
      | none => s.deny .notFound
      | some ord =>
        s.checked [(ord.stage == .onTrip, .state)]
          ((s.reportOrder o ord (outcome == 0)).ok
            [countedAs (outcome == 0) ord.cancelPending, optByte (ord.trip.map Fin.val), s.leftOnTrip o ord,
              flag (s.leftOnTrip o ord == 0)]))

/-- TRIP REPORT. -/
def execTripReport (order outcome : Nat) (s : State) : Result :=
  .next (s.command (.tripReport order outcome) (workTripReport order outcome))

/-- The changes of RECALL TRIP (R166): the orders READY and off the trip, at the head of the ready list in route order;
the trip IDLE, and formed again at once. -/
def State.recallTrip (s : State) (t : TripHandle) : State :=
  let route := s.routeOrder t
  let back := s.forEach route fun o acc => acc.modOrder o fun ord => { ord with stage := .ready, trip := none }
  ({ back.setTrip t {} with readyList := route ++ back.readyList }).reformTrip t

/-- The work of RECALL TRIP (R166). -/
def workRecallTrip (trip : Nat) (s : State) : Answer :=
  s.withHandle 8 trip fun t =>
    s.checked [((s.trip t).state == .out, .state)]
      (let u := s.recallTrip t
       u.ok [(s.trip t).orders.length, tripStateCode (u.trip t).state, (u.trip t).orders.length])

/-- RECALL TRIP. -/
def execRecallTrip (trip : Nat) (s : State) : Result := .next (s.command (.recallTrip trip) (workRecallTrip trip))

/-- The work of CONFIGURE TRIPS (R157). -/
def workConfigureTrips (window : Nat) (s : State) : Answer :=
  s.checked [(within 5 120 window, .badArg)] (({ s with window := window }).ok [window])

/-- CONFIGURE TRIPS. -/
def execConfigureTrips (window : Nat) (s : State) : Result :=
  .next (s.command (.configureTrips window) (workConfigureTrips window))

/-- A gather timer runs out: the GATHERING trip closes (R160). -/
def State.gatherExpiry (s : State) (t : TripHandle) : State :=
  if (s.trip t).state == .gathering && (s.trip t).timer.isSome then s.closeTrip t else s

/-- The gather timer of a trip runs out (R160). -/
def execGatherTimerExpiry (trip : TripHandle) (s : State) : Result := .next (s.gatherExpiry trip)

end Sys2Proof.Machine
end

