-- ==== Sys2Proof/Machine/Work.lean ====
section
/-! DEFINITION. The work of a taken frame: code check, length check, work, completion (R175, stages 2 to 5). -/

namespace Sys2Proof.Machine

/-- The work of the command a frame carries (R175, stage 4). The select periods that are no frames, and the events of
lines and timers, are spelled by no frame; were they, their code would name no command. -/
def workOf : Instr → State → Answer
  | .configureField f r p t a c on off => workConfigureField f r p t a c on off
  | .closeRows f m => workCloseRows f m
  | .openRows f m => workOpenRows f m
  | .readField f r => workReadField f r
  | .configureTimebase f w g j h q => workConfigureTimebase f w g j h q
  | .readTimebase f => workReadTimebase f
  | .beginProgram f ns cs cf lg l oc ec => workBeginProgram f ns cs cf lg l oc ec
  | .addSegment f k len t c r => workAddSegment f k len t c r
  | .openField f => workOpenField f
  | .startShow f => workStartShow f
  | .pauseShow f => workPauseShow f
  | .resumeShow f => workResumeShow f
  | .skipSegment f => workSkipSegment f
  | .endShow f => workEndShow f
  | .closeField f g => workCloseField f g
  | .readProgram f n => workReadProgram f n
  | .admitCar l f c p t pl named => workAdmit l f c p t pl named
  | .refuse l => workRefuse l
  | .depart l h => workDepart l h
  | .letOut l => workLetOut l
  | .readLane l => workReadLane l
  | .configureLanes m t => workConfigureLanes m t
  | .readEntry h => workReadEntry h
  | .lookupTicket t => workLookupTicket t
  | .lookupPlate pl => workLookupPlate pl
  | .lookupStall f r p => workLookupStall f r p
  | .holdEntry h => workHoldEntry h
  | .moveEntry h f r p => workMoveEntry h f r p
  | .amendEntry h g pl c p => workAmendEntry h g pl c p
  | .releaseEntry h => workReleaseEntry h
  | .retireEntry h g => workRetireEntry h g
  | .enrolSet n => workEnrolSet n
  | .removeSet n => workRemoveSet n
  | .lendSet h => workLendSet h
  | .dockIn b n c => workDockIn b n c
  | .dockOut b => workDockOut b
  | .charge b c => workCharge b c
  | .setFault b => workSetFault b
  | .serviceSet n => workServiceSet n
  | .readSet k n => workReadSet k n
  | .configureSets r t => workConfigureSets r t
  | .placeOrder h m n ls => workPlaceOrder h m n ls
  | .cancelOrder o => workCancelOrder o
  | .stationNext n => workStationNext n
  | .lineDone o l => workLineDone o l
  | .readOrder o => workReadOrder o
  | .readTrip t => workReadTrip t
  | .tripReport o c => workTripReport o c
  | .recallTrip t => workRecallTrip t
  | .configureKitchen m x n p => workConfigureKitchen m x n p
  | .readKitchen => workReadKitchen
  | .configureTrips w => workConfigureTrips w
  | .readCauses => workReadCauses
  | .readTouched => workReadTouched
  | .identify => workIdentify
  | .closeDay => workCloseDay
  | .clearCauses w => workClearCauses w
  | .setCauseMask w => workSetCauseMask w
  | .readTallies g => workReadTallies g
  | .unknownCommand _ _ => workUnknown
  | .readStatus _ | .fetchReply _ | .commandFrameJudged _ _ | .partReset _ | .loopRawChange _ _ _
  | .arrivalOccupied _ | .arrivalCleared _ | .passOccupied _ | .passCleared _
  | .entryPassTimerExpiry _ | .exitPassTimerExpiry _ | .framePulse _ | .pulseOverdue _
  | .holdoverExpiry _ | .referenceDropped _ | .wordStrobe _ | .wordClockFall _ | .carrierLoss _
  | .carrierRise _ | .issueTimerExpiry _ | .prepTimerExpiry _ | .gatherTimerExpiry _ => workUnknown

/-- The work of a taken frame by its code check and its length check (R175, stages 2 to 4). -/
def frameWork (bytes : List Nat) (s : State) : Answer :=
  match decodeFrame bytes with
  | .unknown => s.deny .unknown
  | .badLength => s.deny .badLength
  | .command i => workOf i s

/-- The taken frame's work and completion; nothing when no frame is taken (R175). -/
def State.finishTaken (s : State) : State :=
  match s.port.taken with
  | none => s
  | some x => (frameWork x.bytes s).complete

end Sys2Proof.Machine
end

