-- ==== Sys2Proof/Machine/Dispatch.lean ====
section
/-! DEFINITION. One arm per row of spec/opcode_table.json: its meaning. -/

namespace Sys2Proof.Machine

/-- The effect of a command or event on everything but the queue. -/
def exec (i : Instr) (s : State) : Host.Outcome State Fault Refusal :=
  match i with
  | .configureField field rows posts tall accessible channel signOn signOff => Sys2Proof.Machine.execConfigureField field rows posts tall accessible channel signOn signOff s
  | .closeRows field mask => Sys2Proof.Machine.execCloseRows field mask s
  | .openRows field mask => Sys2Proof.Machine.execOpenRows field mask s
  | .readField field row => Sys2Proof.Machine.execReadField field row s
  | .configureTimebase field window gain jump holdover reacquire => Sys2Proof.Machine.execConfigureTimebase field window gain jump holdover reacquire s
  | .readTimebase field => Sys2Proof.Machine.execReadTimebase field s
  | .beginProgram field ns cutoffSegment cutoffFrames leadGiven lead openCues endCues => Sys2Proof.Machine.execBeginProgram field ns cutoffSegment cutoffFrames leadGiven lead openCues endCues s
  | .addSegment field kind length title cues runners => Sys2Proof.Machine.execAddSegment field kind length title cues runners s
  | .openField field => Sys2Proof.Machine.execOpenField field s
  | .startShow field => Sys2Proof.Machine.execStartShow field s
  | .pauseShow field => Sys2Proof.Machine.execPauseShow field s
  | .resumeShow field => Sys2Proof.Machine.execResumeShow field s
  | .skipSegment field => Sys2Proof.Machine.execSkipSegment field s
  | .endShow field => Sys2Proof.Machine.execEndShow field s
  | .closeField field force => Sys2Proof.Machine.execCloseField field force s
  | .readProgram field segment => Sys2Proof.Machine.execReadProgram field segment s
  | .admitCar lane field cls party ticket plate named => Sys2Proof.Machine.execAdmit lane field cls party ticket plate named s
  | .refuse lane => Sys2Proof.Machine.execRefuse lane s
  | .depart lane car => Sys2Proof.Machine.execDepart lane car s
  | .letOut lane => Sys2Proof.Machine.execLetOut lane s
  | .readLane lane => Sys2Proof.Machine.execReadLane lane s
  | .configureLanes mask passTime => Sys2Proof.Machine.execConfigureLanes mask passTime s
  | .readEntry car => Sys2Proof.Machine.execReadEntry car s
  | .lookupTicket ticket => Sys2Proof.Machine.execLookupTicket ticket s
  | .lookupPlate plate => Sys2Proof.Machine.execLookupPlate plate s
  | .lookupStall field row post => Sys2Proof.Machine.execLookupStall field row post s
  | .holdEntry car => Sys2Proof.Machine.execHoldEntry car s
  | .moveEntry car target row post => Sys2Proof.Machine.execMoveEntry car target row post s
  | .amendEntry car flags plate cls party => Sys2Proof.Machine.execAmendEntry car flags plate cls party s
  | .releaseEntry car => Sys2Proof.Machine.execReleaseEntry car s
  | .retireEntry car force => Sys2Proof.Machine.execRetireEntry car force s
  | .enrolSet serial => Sys2Proof.Machine.execEnrolSet serial s
  | .removeSet slot => Sys2Proof.Machine.execRemoveSet slot s
  | .lendSet car => Sys2Proof.Machine.execLendSet car s
  | .dockIn bay serial charge => Sys2Proof.Machine.execDockIn bay serial charge s
  | .dockOut bay => Sys2Proof.Machine.execDockOut bay s
  | .charge bay level => Sys2Proof.Machine.execCharge bay level s
  | .setFault bay => Sys2Proof.Machine.execSetFault bay s
  | .serviceSet slot => Sys2Proof.Machine.execServiceSet slot s
  | .readSet selector number => Sys2Proof.Machine.execReadSet selector number s
  | .configureSets readyLevel issueTime => Sys2Proof.Machine.execConfigureSets readyLevel issueTime s
  | .placeOrder car mode count lines => Sys2Proof.Machine.execPlaceOrder car mode count lines s
  | .cancelOrder order => Sys2Proof.Machine.execCancelOrder order s
  | .stationNext station => Sys2Proof.Machine.execStationNext station s
  | .lineDone order line => Sys2Proof.Machine.execLineDone order line s
  | .readOrder order => Sys2Proof.Machine.execReadOrder order s
  | .readTrip trip => Sys2Proof.Machine.execReadTrip trip s
  | .tripReport order outcome => Sys2Proof.Machine.execTripReport order outcome s
  | .recallTrip trip => Sys2Proof.Machine.execRecallTrip trip s
  | .configureKitchen mask xoff xon prepLimit => Sys2Proof.Machine.execConfigureKitchen mask xoff xon prepLimit s
  | .readKitchen => Sys2Proof.Machine.execReadKitchen s
  | .configureTrips window => Sys2Proof.Machine.execConfigureTrips window s
  | .readStatus clocked => Sys2Proof.Machine.execReadStatus clocked s
  | .fetchReply clocked => Sys2Proof.Machine.execFetchReply clocked s
  | .readCauses => Sys2Proof.Machine.execReadCauses s
  | .readTouched => Sys2Proof.Machine.execReadTouched s
  | .identify => Sys2Proof.Machine.execIdentify s
  | .closeDay => Sys2Proof.Machine.execCloseDay s
  | .clearCauses word => Sys2Proof.Machine.execClearCauses word s
  | .setCauseMask word => Sys2Proof.Machine.execSetCauseMask word s
  | .readTallies group => Sys2Proof.Machine.execReadTallies group s
  | .unknownCommand code args => Sys2Proof.Machine.execUnknownCommand code args s
  | .commandFrameJudged bytes after => Sys2Proof.Machine.execCommandFrameJudged bytes after s
  | .partReset part => Sys2Proof.Machine.execPartReset part s
  | .loopRawChange lane loop level => Sys2Proof.Machine.execLoopRawChange lane loop level s
  | .arrivalOccupied lane => Sys2Proof.Machine.execArrivalOccupied lane s
  | .arrivalCleared lane => Sys2Proof.Machine.execArrivalCleared lane s
  | .passOccupied lane => Sys2Proof.Machine.execPassOccupied lane s
  | .passCleared lane => Sys2Proof.Machine.execPassCleared lane s
  | .entryPassTimerExpiry lane => Sys2Proof.Machine.execEntryPassTimerExpiry lane s
  | .exitPassTimerExpiry lane => Sys2Proof.Machine.execExitPassTimerExpiry lane s
  | .framePulse field => Sys2Proof.Machine.execFramePulse field s
  | .pulseOverdue field => Sys2Proof.Machine.execPulseOverdue field s
  | .holdoverExpiry field => Sys2Proof.Machine.execHoldoverExpiry field s
  | .referenceDropped field => Sys2Proof.Machine.execReferenceDropped field s
  | .wordStrobe field => Sys2Proof.Machine.execWordStrobe field s
  | .wordClockFall field => Sys2Proof.Machine.execWordClockFall field s
  | .carrierLoss field => Sys2Proof.Machine.execCarrierLoss field s
  | .carrierRise field => Sys2Proof.Machine.execCarrierRise field s
  | .issueTimerExpiry slot => Sys2Proof.Machine.execIssueTimerExpiry slot s
  | .prepTimerExpiry order => Sys2Proof.Machine.execPrepTimerExpiry order s
  | .gatherTimerExpiry trip => Sys2Proof.Machine.execGatherTimerExpiry trip s

end Sys2Proof.Machine
end

