-- ==== Sys2Proof/Machine/Tick.lean ====
section
/-! DEFINITION. One MCLK cycle (R1, R45, R91, R97, R101, R175): what the part does of itself while no command waits.
Log entry 7. -/

namespace Sys2Proof.Machine

/-- Every timebase runs one cycle (R91). -/
def State.cycleTimebases (s : State) : State :=
  s.forEach (List.finRange 4) fun f acc => acc.setTimebase f ((acc.timebase f).cycle (acc.program f).ns)

/-- The work of a taken frame is one cycle nearer its completion (R175). -/
def State.cyclePort (s : State) : State :=
  { s with port := { s.port with taken := s.port.taken.map fun x => { x with left := x.left - 1 } } }

/-- A lane's pass timer and loop filters run down by a millisecond (R1, R45). -/
def Lane.countDown (x : Lane) : Lane :=
  { x with
    timer := Machine.countDown x.timer
    arrival := { x.arrival with filter := Machine.countDown x.arrival.filter }
    pass := { x.pass with filter := Machine.countDown x.pass.filter } }

/-- The timers counted in milliseconds, seconds and minutes run down by a millisecond (R1). -/
def State.countMillisecond (s : State) : State :=
  let lanes := s.forEach (List.finRange 6) fun l acc => acc.setLane l (acc.lane l).countDown
  let sets := lanes.forEach (List.finRange 128) fun n acc =>
    if (acc.slot n).timer.isSome then acc.setSlot n { acc.slot n with timer := countDown (acc.slot n).timer } else acc
  let orders := sets.forEach (List.finRange 256) fun o acc =>
    acc.modOrder o fun ord => { ord with timer := countDown ord.timer }
  orders.forEach (List.finRange 8) fun t acc =>
    if (acc.trip t).timer.isSome then acc.setTrip t { acc.trip t with timer := countDown (acc.trip t).timer } else acc

/-- The millisecond timer: 24,576 MCLK cycles to the millisecond (R1). -/
def State.cycleMillisecond (s : State) : State :=
  if s.phase + 1 < 24576 then { s with phase := s.phase + 1 } else ({ s with phase := 0 }).countMillisecond

/-- What may come about in an MCLK cycle of itself. -/
inductive Due where
  | completion
  | overdue (f : FieldNo)
  | holdover (f : FieldNo)
  | reference (f : FieldNo)
  | loop (l : LaneNo) (which : Loop)
  | passTimer (l : LaneNo)
  | issueTimer (n : SetHandle)
  | prepTimer (o : OrderHandle)
  | gatherTimer (t : TripHandle)
  deriving DecidableEq, Repr

/-- A loop input of a lane. -/
def Lane.loop (x : Lane) : Loop → LoopInput
  | .arrival => x.arrival
  | .pass => x.pass

/-- The event is due: its count has run down or its limit is reached (R1, R45, R97, R101, R175). -/
def State.isDue (s : State) : Due → Bool
  | .completion => s.port.taken.any fun x => x.left == 0
  | .overdue f => (s.timebase f).state.tracks && decide ((s.timebase f).overdueAt ≤ (s.timebase f).gap)
  | .holdover f => (s.timebase f).state == .holdover && decide ((s.timebase f).nextExpiryAt ≤ (s.timebase f).gap)
  | .reference f =>
    (s.timebase f).state == .seek && (s.timebase f).reference &&
      decide ((s.timebase f).overdueAt ≤ (s.timebase f).gap)
  | .loop l which => ((s.lane l).loop which).filter == some 0
  | .passTimer l => (s.lane l).timer == some 0
  | .issueTimer n => (s.slot n).timer == some 0
  | .prepTimer o => (s.order o).any fun ord => ord.timer == some 0
  | .gatherTimer t => (s.trip t).timer == some 0

/-- A loop's raw level has held through the filter and becomes its level (R45, R47, R51, R53). -/
def State.loopPasses (s : State) (l : LaneNo) (which : Loop) : State :=
  match which, ((s.lane l).loop which).raw with
  | .arrival, .occupied => s.arrivalOccupied l
  | .arrival, .clear => s.arrivalCleared l
  | .pass, .occupied => s.passOccupied l
  | .pass, .clear => s.passCleared l

/-- The event is taken. -/
def State.takeDue (s : State) : Due → State
  | .completion => s.finishTaken
  | .overdue f => s.overduePulse f
  | .holdover f => s.expireHoldover f
  | .reference f => s.dropReference f
  | .loop l which => s.loopPasses l which
  | .passTimer l => if isEntryLane l then s.entryExpiry l else s.exitExpiry l
  | .issueTimer n => s.issueExpiry n
  | .prepTimer o => s.prepExpiry o
  | .gatherTimer t => s.gatherExpiry t

/-- The event is taken if it is still due when its turn comes. -/
def State.takeIfDue (s : State) (e : Due) : State := if s.isDue e then s.takeDue e else s

/-- What may come about in a cycle in a field's timebase. -/
def fieldDue (f : FieldNo) : List Due := [Due.overdue f, Due.holdover f, Due.reference f]
/-- What may come about in a cycle in a lane. -/
def laneDue (l : LaneNo) : List Due := [Due.loop l Loop.arrival, Due.loop l Loop.pass, Due.passTimer l]

/-- Everything that may come about in a cycle. -/
def allDue : List Due :=
  Due.completion :: List.flatten
    [(List.finRange 4).flatMap fieldDue, (List.finRange 6).flatMap laneDue, (List.finRange 128).map Due.issueTimer,
      (List.finRange 256).map Due.prepTimer, (List.finRange 8).map Due.gatherTimer]

/-- The events that are due. -/
def State.dueNow (s : State) : List Due := allDue.filter s.isDue

/-- Events due in one cycle are taken one after the other, in an order that is a free value where there is more than
one (log entry 3). -/
def settle : Nat → List Due → State → State
  | 0, _, s => s
  | _ + 1, [], s => s
  | _ + 1, [e], s => s.takeIfDue e
  | n + 1, e :: e' :: rest, s =>
    let due := e :: e' :: rest
    let k := Config.eventChoice s.freeCount % due.length
    let drawn := { s with freeCount := s.freeCount + 1 }
    settle n (due.eraseIdx k) (drawn.takeIfDue (due.getD k e))

/-- What one MCLK cycle counts, before what falls due in it is taken. -/
def State.cycle (s : State) : State := ((s.cycleTimebases).cyclePort).cycleMillisecond

/-- One MCLK cycle. While RESET is low part reset stands, and nothing runs (R186). The cycle that brings a gap counter to
its limit takes that expiry itself: a FRAME_PULSE row stands before it or after it (R97, R101). That no pulse comes between
the counter's arrival at the limit and the expiry is the model's choice (log entry 25). -/
def State.tick (s : State) : State :=
  if s.inReset then s else settle s.cycle.dueNow.length s.cycle.dueNow s.cycle

end Sys2Proof.Machine
end

