-- ==== Sys2Proof/Safety.lean ====
section
/-! DEFINITION. The terms that statements use: a port that takes a command, a command at work, a command answered; and
the laws that the manual says the part keeps. -/

namespace Sys2Proof.Machine

/-! ### Commands at the port -/

/-- The port takes the next select period: RESET and SEL are high; and no taken command is unfinished (R174, R186). -/
def PortFree (s : State) : Prop := s.port.taken = none ∧ s.port.select = .high

/-- What the work of a command finds: SDO has carried the status byte, and a held reply has been discarded (R172,
R175). Nothing but port and attention unit differs. -/
def State.atWork (s : State) (i : Instr) : State := (s.clockStatus i.frame.length).discardReply

/-- The state with a reply stored, REPLY_READY set and BUSY clear (R175). -/
def State.answered (s : State) (code : ResultCode) (bytes : List Nat) : State :=
  { s with port := { s.port with reply := some (replyFrame code bytes), taken := none } }

/-- A command was turned away: nothing but its reply came of it (R178, R189). -/
def Denied (i : Instr) (s : State) (code : ResultCode) : Prop := exec i s = .next ((s.atWork i).answered code [])

/-! ### The configuration of a field (R2) -/

/-- The settings of a field unit are in their ranges, or all 0 while the field is unconfigured (R2). -/
def FieldUnit.Configuration (u : FieldUnit) : Prop :=
  (u.rows = 0 ∧ u.posts = 0 ∧ u.tall = 0 ∧ u.accessible = 0) ∨
  (1 ≤ u.rows ∧ u.rows ≤ 16 ∧ 1 ≤ u.posts ∧ u.posts ≤ 32 ∧ 1 ≤ u.tall ∧ u.tall ≤ u.rows + 1 ∧ u.accessible ≤ 8 ∧
    u.accessible ≤ u.posts)

/-! ### Laws -/

/-- The ranges of a timebase's record (R90, R109): D, E, the counters, the settings. A run of 8 stands in TRACK
only once the eighth pulse has made it LOCKED (R106). -/
structure Timebase.Bounds (t : Timebase) : Prop where
  divisor : 127744 ≤ t.divisor ∧ t.divisor ≤ 134400
  slip : -32767 ≤ t.slip ∧ t.slip ≤ 32767
  gap : t.gap ≤ 4294967295
  strobes : t.strobes ≤ 16777215
  run : t.run ≤ 8
  track : t.state = .track → t.run ≤ 7
  reacquire : ∀ n, t.reacquire = some n → n ≤ 65535
  missed : t.missed ≤ 48
  nominal : t.nominal ≤ 1280000
  window : 1 ≤ t.settings.window ∧ t.settings.window ≤ 64
  gain : t.settings.gain ≤ 64
  jump : 1 ≤ t.settings.jump ∧ t.settings.jump ≤ 4096
  holdover : 1 ≤ t.settings.holdover ∧ t.settings.holdover ≤ 48
  reacquireLimit : 24 ≤ t.settings.reacquire ∧ t.settings.reacquire ≤ 480

/-- Every timebase keeps its ranges (R90). -/
def TimebaseLaw (s : State) : Prop := ∀ f, (s.timebase f).Bounds

/-- The ranges of a timebase's record that depend on its state or its field's program (R90, R91, R94): P_nom, the marker
count, the missed count, the reference, the STOPPED record; and A, which is bounded by the largest D, because it keeps its
value when D falls (log entry 19). While WCKn is high A stands below the largest D itself. -/
structure Timebase.Ranges (p : ProgramUnit) (t : Timebase) : Prop where
  nominal : t.nominal = p.ns * 512
  period : t.nominal = 0 ∨ (768000 ≤ t.nominal ∧ t.nominal ≤ 1280000)
  marker : t.marker = 0 ∨ t.marker < p.ns
  missed : t.missed ≤ t.settings.holdover
  bridged : t.state ≠ .holdover → t.state ≠ .lost → t.missed = 0
  holdover : t.state = .holdover → 1 ≤ t.missed
  lost : t.state = .lost → t.missed = t.settings.holdover
  reference : t.state = .track ∨ t.state = .locked ∨ t.state = .holdover → t.reference = true
  stopped : t.state = .stopped → t = { settings := t.settings }
  accumulator : t.accumulator ≤ 134400 + 255
  high : t.wordClock = true → t.accumulator < 134400

/-- Every timebase keeps the ranges that its state and its field's program give it (R90, R91, R94). -/
def RangeLaw (s : State) : Prop := ∀ f, (s.timebase f).Ranges (s.program f)

/-- The timebase states that go with a field state (R70, R93). -/
def goesWith (st : FieldState) (t : TimebaseState) : Bool :=
  match st with
  | .dark => t == .stopped
  | .opened => t == .free
  | .running => t == .seek || t == .track || t == .locked || t == .holdover
  | .paused .host => t == .free
  | .paused .stall => t == .lost
  | .ended => t == .free

/-- The program record that goes with a field state: LOADED and valid in every state but DARK, EMPTY or DRAFT in DARK
(R67, R70). -/
def recordGoesWith (st : FieldState) (r : ProgramRecord) : Bool :=
  match r with
  | .loaded header segs => st != .dark && validDraft header segs
  | .empty => st == .dark
  | .draft _ _ => st == .dark

/-- What goes with a field's state: program record, timebase state (R67, R70), cue lines (R80), TXENn (R81). -/
structure ShowOf (p : ProgramUnit) (t : Timebase) : Prop where
  record : recordGoesWith p.state p.record = true
  timebase : goesWith p.state t.state = true
  cues : p.cues = p.cueLevels
  txen : p.txen = (p.state != .dark)

/-- In every field, record, timebase, cue lines and TXENn are those of the field's state (R67, R70, R80, R81). -/
def ShowLaw (s : State) : Prop := ∀ f, ShowOf (s.program f) (s.timebase f)

/-- The header and the segments of a program record are in their ranges (R66); N_s is judged at OPEN FIELD alone. -/
structure ProgramRecord.Ranges (r : ProgramRecord) : Prop where
  cutoffSegment : ∀ h, r.header? = some h → ∀ c, h.cutoffSegment = some c → c ≤ 23
  cutoffFrames : ∀ h, r.header? = some h → h.cutoffFrames ≤ 1048575
  lead : ∀ h, r.header? = some h → h.lead ≤ 65535
  lengths : ∀ seg ∈ r.segments, 1 ≤ seg.length ∧ seg.length ≤ 1048575
  titles : ∀ seg ∈ r.segments, seg.title ≤ 255

/-- The position stands inside a segment of the program: its index names one, its frame is one of that segment's (R70). -/
def ProgramUnit.Inside (p : ProgramUnit) : Prop :=
  ∃ seg, p.record.segments[p.segment]? = some seg ∧ p.frame < seg.length

/-- Where the position stands in each field state (R70): at the start in DARK and OPEN, inside a segment in RUNNING and
PAUSED, and in ENDED inside a segment or past the last, where the index is the segment count and the frame 0. -/
structure ProgramUnit.Position (p : ProgramUnit) : Prop where
  record : p.record.Ranges
  start : p.state = .dark ∨ p.state = .opened → p.segment = 0 ∧ p.frame = 0
  inShow : p.state = .running ∨ (∃ why, p.state = .paused why) → p.Inside
  ended : p.state = .ended → p.Inside ∨ (p.segment = p.record.segments.length ∧ p.frame = 0)

/-- In every field, the program record and the position are in their ranges (R66, R70). -/
def PositionLaw (s : State) : Prop := ∀ f, (s.program f).Position

/-- The stall law and the class law (R7, R8), with the configurations they rest on (R2) and the fact that a live entry's
field is not DARK (R63, R87). -/
structure StallLaw (s : State) : Prop where
  configuration : ∀ f, (s.unit f).Configuration
  configured : ∀ f, (s.program f).state ≠ .dark → (s.unit f).rows ≠ 0
  parked : ∀ h c, s.car h = some c → (s.unit c.field).at c.stall = some h
  placed : ∀ h c, s.car h = some c → (s.unit c.field).has c.stall = true ∧ (s.unit c.field).fits c.cls c.stall = true
  lit : ∀ h c, s.car h = some c → (s.program c.field).state ≠ .dark
  named : ∀ f st h, (s.unit f).at st = some h → ∃ c, s.car h = some c ∧ c.field = f ∧ c.stall = st

/-- The states of a set that stands in a bay, whatever else (R112, R113). -/
def SetState.docks : SetState → Bool
  | .charging => true
  | .ready => true
  | .issuing => true
  | _ => false

/-- The state of a set that a car's mark stands for (R114). -/
def SetMark.state : SetMark → SetState
  | .issuing => .issuing
  | .lent => .lent

/-- The laws of the set pool: the slot table (R112), the bay map (R113), the agreement with the cars (R114), the issue
limit (R118), and serials unique among the enrolled sets (R112). -/
structure SetLaw (s : State) : Prop where
  bays : ∀ b n, s.bay b = some n ↔ (s.slot n).bay = some b
  docked : ∀ n, (s.slot n).state.docks = true → (s.slot n).bay ≠ none
  undocked : ∀ n, (s.slot n).state.docks = false → (s.slot n).state ≠ .faulty → (s.slot n).bay = none
  withCar : ∀ n, (s.slot n).car ≠ none ↔ (s.slot n).state = .issuing ∨ (s.slot n).state = .lent
  timed : ∀ n, (s.slot n).timer ≠ none ↔ (s.slot n).state = .issuing
  cars : ∀ h n m, ((s.car h).bind Car.lent = some (n, m)) ↔ (s.slot n).car = some h ∧ (s.slot n).state = m.state
  limit : s.issuingCount ≤ 4
  serials : ∀ n m, (s.slot n).enrolled = true → (s.slot m).enrolled = true → (s.slot n).serial = (s.slot m).serial → n = m

/-- The kitchen's HOLD is what the backlogs and thresholds call for (R147, R148). -/
structure HoldLaw (s : State) : Prop where
  thresholds : ∀ n, (s.station n).xon < (s.station n).xoff
  on : ∀ n, (s.station n).xoff ≤ s.backlog n → s.hold = true
  off : (∀ n, s.backlog n ≤ (s.station n).xon) → s.hold = false

/-- The lists and counters that have a limit: backlogs (R143), order lists (R133), trips (R155), ORDER notes (R181),
segments (R66), tallies (R61), admission serial (R23), placement counter (R135). -/
structure CapacityLaw (s : State) : Prop where
  backlogs : ∀ n, s.backlog n ≤ 255
  orderLists : ∀ h c, s.car h = some c → c.orders.length ≤ 4
  trips : ∀ t, (s.trip t).orders.length ≤ 6
  notes : s.attention.notes.length ≤ 8
  segments : ∀ f, (s.program f).record.segments.length ≤ 24
  tallies : ∀ k, s.tally k ≤ 65535
  serial : s.serialCounter ≤ 65535
  placement : s.placement ≤ 4294967295

/-- The agreement of the order book with the cars' order lists (R133). -/
structure OrderListLaw (s : State) : Prop where
  listed : ∀ o ord h, s.order o = some ord → ord.car = some h → ∃ c, s.car h = some c ∧ o ∈ c.orders
  named : ∀ h c o, s.car h = some c → o ∈ c.orders → ∃ ord, s.order o = some ord ∧ ord.car = some h
  distinct : ∀ h c, s.car h = some c → c.orders.Nodup

/-- The gate: what a lane holds in each of its states (R44, R47, R49), the agreement of the lanes with the entries they
serve (R20, R38, R58), and one live entry to a ticket (R20, R48). -/
structure GateLaw (s : State) : Prop where
  shut : ∀ l, (s.lane l).state ≠ .opened →
    (s.lane l).served = none ∧ (s.lane l).timer = none ∧ (s.lane l).barrier = false ∧ (s.lane l).begun = false
  opened : ∀ l, (s.lane l).state = .opened →
    (s.lane l).barrier = true ∧ ((s.lane l).timer ≠ none ∨ (s.lane l).begun = true)
  arrival : ∀ l, (s.lane l).state ≠ .opened →
    ((s.lane l).arrival.level = .occupied ↔ (s.lane l).state ≠ .idle)
  exits : ∀ l : LaneNo, 4 ≤ l.val → (s.lane l).state ≠ .refused
  serves : ∀ l h, (s.lane l).served = some h →
    ∃ c, s.car h = some c ∧ c.state = if l.val < 4 then .arriving else .leaving
  served : ∀ h c, s.car h = some c → c.state ≠ .present → ∃ l, (s.lane l).served = some h
  alone : ∀ l l' h, (s.lane l).served = some h → (s.lane l').served = some h → l = l'
  tickets : ∀ h h' c c', s.car h = some c → s.car h' = some c' → c.ticket = c'.ticket → h = h'

/-- The order book's own lists: what an order holds at each stage (R131), the parked list (R136), and the station queues
(R143, R146). -/
structure QueueLaw (s : State) : Prop where
  parked : ∀ o, o ∈ s.parked ↔ ∃ ord, s.order o = some ord ∧ ord.stage = .parked
  parkedOnce : s.parked.Nodup
  due : ∀ o ord, s.order o = some ord → ord.due = true → ord.stage = .parked
  timer : ∀ o ord, s.order o = some ord → ord.timer ≠ none →
    (ord.stage = .queued ∨ ord.stage = .preparing) ∧ ord.cancelPending = false
  lines : ∀ o ord, s.order o = some ord → 1 ≤ ord.lines.length ∧ ord.lines.length ≤ 6
  waiting : ∀ o ord, s.order o = some ord → ord.stage = .parked ∨ ord.stage = .queued →
    ord.cancelPending = false ∧ ∀ l ∈ ord.lines, l.state = .waiting
  started : ∀ o ord, s.order o = some ord → ord.stage = .preparing → ∃ l ∈ ord.lines, l.state ≠ .waiting
  finished : ∀ o ord, s.order o = some ord → ord.stage = .ready ∨ ord.stage = .onTrip →
    ∀ l ∈ ord.lines, l.state = .finished
  queuesOnce : ∀ n, (s.station n).queue.Nodup
  queues : ∀ n o k, (o, k) ∈ (s.station n).queue ↔
    ∃ ord l, s.order o = some ord ∧ (ord.stage = .queued ∨ ord.stage = .preparing) ∧ ord.lines[k]? = some l ∧
      l.station = n ∧ (l.state = .started ∨ (l.state = .waiting ∧ ord.cancelPending = false))
  unfinished : ∀ o ord, s.order o = some ord → ord.stage = .queued ∨ ord.stage = .preparing →
    ∃ n k, (o, k) ∈ (s.station n).queue

/-- A trip that gathers or is held, with room for a join (R155). -/
def Trip.Joinable (x : Trip) : Prop := (x.state = .gathering ∨ x.state = .fieldHold) ∧ x.orders.length < 6

/-- The trip table and the ready list: what a trip holds in each of its states and the stage of its orders (R155), the
ready list (R156), and that no READY order waits where a trip could take it (R158, R159). -/
structure TripLaw (s : State) : Prop where
  idle : ∀ k, (s.trip k).state = .idle ↔ (s.trip k).orders = []
  field : ∀ k, (s.trip k).state = .idle ↔ (s.trip k).field = none
  timer : ∀ k, (s.trip k).timer ≠ none ↔ (s.trip k).state = .gathering
  members : ∀ k o, o ∈ (s.trip k).orders ↔ ∃ ord, s.order o = some ord ∧ ord.trip = some k
  stages : ∀ o ord k, s.order o = some ord → ord.trip = some k → (s.trip k).field = some ord.field ∧
    ord.stage = if (s.trip k).state = .out then .onTrip else .ready
  onTrip : ∀ o ord, s.order o = some ord → ord.stage = .onTrip → ord.trip ≠ none
  once : ∀ k, (s.trip k).orders.Nodup
  size : ∀ k, (s.trip k).orders.length ≤ 6
  ready : ∀ o, o ∈ s.readyList ↔ ∃ ord, s.order o = some ord ∧ ord.stage = .ready ∧ ord.trip = none
  readyOnce : s.readyList.Nodup
  formed : s.readyList ≠ [] → ∀ k, (s.trip k).state ≠ .idle
  joined : ∀ o ord, o ∈ s.readyList → s.order o = some ord →
    ∀ k, (s.trip k).field = some ord.field → ¬ (s.trip k).Joinable

/-! ### What a field change and an accepted pulse leave -/

/-- What an order holds that a due check (R139), a release (R142) and a dispatch (R162) leave as it is: all but its
stage, due mark and prep timer. -/
def Order.kept (x : Order) :
    Option CarHandle × FieldNo × ReleaseMode × Bool × Bool × Nat × Option TripHandle × List OrderLine :=
  (x.car, x.field, x.mode, x.cancelPending, x.late, x.serial, x.trip, x.lines)

/-- What a step of one field's show leaves alone: the other fields' programs and timebases, what orders keep through
release and dispatch, and every record but those named, which field changes and frame advances are reported to (R82,
R139, R161). -/
structure ShowStep (b t : State) (f : FieldNo) : Prop where
  others : ∀ g, g ≠ f → t.program g = b.program g ∧ t.timebase g = b.timebase g
  orders : ∀ o, (t.order o).map Order.kept = (b.order o).map Order.kept
  frame : t =
    { b with
      programs := t.programs, timebases := t.timebases, tallies := t.tallies, orders := t.orders
      parked := t.parked, stations := t.stations, hold := t.hold, trips := t.trips, attention := t.attention }

/-- A field change (R82): the field's program unit and timebase are as given, SEGMENT is raised with the field's flag,
and no tally but the station deferrals of a release pass (R141) has been counted; and what the change has brought about
is its report to the attention unit, the order book and the trip table, `State.fieldChange`, and nothing else. -/
structure FieldChanged (b t : State) (f : FieldNo) (p : ProgramUnit) (x : Timebase) : Prop where
  reported : t =
    ({ b with programs := put b.programs f p, timebases := put b.timebases f x } : State).fieldChange f
  program : t.program f = p
  timebase : t.timebase f = x
  raised : t.attention.causes.getLsbD 2 = true ∧ t.attention.segment.getLsbD f.val = true
  tallies : ∀ k, k ≠ .kitchen .stationDeferrals → t.tally k = b.tally k
  rest : ShowStep b t f

/-- The reacquire count of a timebase after an accepted pulse that covers `k` frames (R108). -/
def Timebase.reacquired (x : Timebase) (k : Nat) : Timebase :=
  match x.reacquire with
  | none => x
  | some n =>
    if x.state = .locked ∨ x.settings.reacquire ≤ n + k then { x with reacquire := none }
    else { x with reacquire := some (min 65535 (n + k)) }

/-- The pulse makes a reacquisition fail (R108). -/
def Timebase.failsReacquire (x : Timebase) (k : Nat) : Prop :=
  ∃ n, x.reacquire = some n ∧ x.state ≠ .locked ∧ x.settings.reacquire ≤ n + k

/-- The program unit that a pulse's frame advance finds: a stall ends at the pulse that leaves LOST (R77, R98). -/
def State.unstalled (s : State) (f : FieldNo) : ProgramUnit :=
  if (s.timebase f).state = .lost ∧ (s.program f).state = .paused .stall then
    { s.program f with state := .running }
  else s.program f

/-- What an accepted pulse of a field leaves (R73, R74, R77, R107): its timebase as given, or that timebase in FREE when
the advance ran the program out; the position moved on by `k` frames in a RUNNING field and left alone in any other;
SEGMENT raised where a segment was entered, the program ran out or a stall ended; and no tally but the two that
`PulseCounts` gives and the station deferrals of a release pass (R141) counted. -/
structure PulseLeaves (s t : State) (f : FieldNo) (k : Nat) (x : Timebase) : Prop where
  running : (s.unstalled f).state = .running →
    ((t.program f).segment, (t.program f).frame) =
      (((s.unstalled f).advance k).segment, ((s.unstalled f).advance k).frame)
  idle : (s.unstalled f).state ≠ .running → t.program f = s.program f ∧ t.timebase f = x
  onward : (s.unstalled f).state = .running → ((s.unstalled f).advance k).ranOut = false →
    (t.program f).state = .running ∧ t.timebase f = x
  ended : (s.unstalled f).state = .running → ((s.unstalled f).advance k).ranOut = true →
    (t.program f).state = .ended ∧
      t.timebase f = { x with state := .free, reference := false, missed := 0, reacquire := none, marked := false }
  outputs : (s.unstalled f).state = .running →
    (t.program f).cues = (t.program f).cueLevels ∧ (t.program f).record = (s.program f).record ∧
      (t.program f).txen = (s.program f).txen ∧ (t.program f).carrier = (s.program f).carrier
  raised : (s.program f).state ≠ (t.program f).state ∨ (s.program f).segment ≠ (t.program f).segment →
    t.attention.causes.getLsbD 2 = true ∧ t.attention.segment.getLsbD f.val = true
  tallies : ∀ k, k ≠ .field f .reacquireFailures → k ≠ .field f .lockLosses → k ≠ .kitchen .stationDeferrals →
    t.tally k = s.tally k
  rest : ShowStep s t f

/-- What an accepted pulse of a field counts (R106, R108): a reacquisition that fails, a lock that is lost, each with SOUND
raised and the field's flag; without either, the flags of SOUND stand. -/
structure PulseCounts (s t : State) (f : FieldNo) (fails loses : Prop) : Prop where
  failure : fails → t.tally (.field f .reacquireFailures) = min 65535 (s.tally (.field f .reacquireFailures) + 1)
  noFailure : ¬ fails → t.tally (.field f .reacquireFailures) = s.tally (.field f .reacquireFailures)
  loss : loses → t.tally (.field f .lockLosses) = min 65535 (s.tally (.field f .lockLosses) + 1)
  noLoss : ¬ loses → t.tally (.field f .lockLosses) = s.tally (.field f .lockLosses)
  raised : fails ∨ loses → t.attention.sound.getLsbD f.val = true ∧ t.attention.causes.getLsbD 3 = true
  quiet : ¬ fails → ¬ loses → t.attention.sound = s.attention.sound

/-- The state that an accepted pulse hands to its frame advance (R106, R107, R108): the timebase as given, what the pulse
counts counted, SOUND raised exactly where it counts something, and nothing else changed. -/
structure PulseCounted (s b : State) (f : FieldNo) (x : Timebase) (fails loses : Prop) : Prop where
  counts : PulseCounts s b f fails loses
  tallies : ∀ k, k ≠ .field f .reacquireFailures → k ≠ .field f .lockLosses → b.tally k = s.tally k
  sounded : fails ∨ loses → b.attention =
    { s.attention with
      causes := s.attention.causes ||| 8#10, sound := s.attention.sound ||| BitVec.twoPow 4 f.val }
  silent : ¬ fails → ¬ loses → b.attention = s.attention
  frame : b = { s with timebases := put s.timebases f x, tallies := b.tallies, attention := b.attention }

/-! ### What the retirement of a car leaves -/

/-- What the retirement of a live entry leaves, its own touched flag, the lanes and the tallies of its cause apart (R38,
R128, R170): the slot VACANT and every other entry as it was; the stall free and the full sign evaluated; a LENT set LOST
and counted, an issue cancelled by charge; and orders, queues, HOLD, trips, the ready list and the kitchen's tallies as the
order book leaves them once it has been told of each order on the car's list. -/
structure CarRetired (s t : State) (h : CarHandle) (c : Car) : Prop where
  car : t.car h = none
  others : ∀ h', h' ≠ h → t.entry h' = s.entry h'
  stall : t.unit c.field = ((s.unit c.field).setStall c.stall none).evaluateSign
  units : ∀ f, f ≠ c.field → t.unit f = s.unit f
  noSet : c.lent = none → t.sets = s.sets
  lent : ∀ n, c.lent = some (n, .lent) →
    t.sets = put s.sets n { s.slot n with state := .lost, car := none } ∧
      t.tally (.sets .lost) = min 65535 (s.tally (.sets .lost) + 1)
  issuing : ∀ n, c.lent = some (n, .issuing) →
    t.sets = put s.sets n
      { s.slot n with
        state := if s.readyLevel ≤ (s.slot n).charge then .ready else .charging
        car := none, timer := none }
  notLost : (∀ n, c.lent ≠ some (n, .lent)) → t.tally (.sets .lost) = s.tally (.sets .lost)
  gone : ∀ o ∈ c.orders, ∀ ord, t.order o = some ord → ord.car = none
  kitchen : ∀ j, t.tally (.kitchen j) = (s.ordersLoseCar c.orders).tally (.kitchen j)
  told : t =
    { s.ordersLoseCar c.orders with
      fieldUnits := t.fieldUnits, entries := t.entries, lanes := t.lanes, sets := t.sets, tallies := t.tallies
      attention := t.attention }

/-- What a forced CLOSE FIELD leaves of the orders that are not on the list of one of its cars (`told` are those that are),
and of the trips (R86, R154, R171). An order that is QUEUED, PREPARING or ON_TRIP stands; a PARKED one stands, is marked due
or is released, and stands where no line is withdrawn (log entry 31); a READY one on the ready list stands or has joined a
trip that one of the told orders has left (log entry 30). A trip that is OUT stands, and so does every trip with none of the
told orders, but for the FIELD_HOLD trips of the field, which the change to DARK lets out (R161). -/
structure OthersStand (s t : State) (f : FieldNo) (told : List OrderHandle) : Prop where
  working : ∀ o ord, s.order o = some ord → o ∉ told →
    ord.stage = .queued ∨ ord.stage = .preparing ∨ ord.stage = .onTrip → t.order o = some ord
  parked : ∀ o ord, s.order o = some ord → o ∉ told → ord.stage = .parked →
    (∃ due, t.order o = some { ord with due := due } ∧ o ∈ t.parked ∧ (ord.due = true → due = true) ∧
      (due = true → ord.due = true ∨ ord.field = f ∨ (s.program ord.field).isDue ord.mode = true)) ∨
    (t.order o = some { ord with stage := .queued, due := false, timer := some (s.prepLimit * 60000) } ∧ o ∉ t.parked)
  notWithdrawn : (∀ o ∈ told, ∀ n k, (o, k) ∉ (s.station n).queue) →
    (∀ o ord, s.order o = some ord → ord.stage = .parked → ord.field = f → o ∈ told) →
    ∀ o ord, s.order o = some ord → o ∉ told → ord.stage = .parked → t.order o = some ord
  ready : ∀ o ord, s.order o = some ord → o ∉ told → o ∈ s.readyList →
    (t.order o = some ord ∧ o ∈ t.readyList) ∨
    ∃ k, (s.trip k).state ≠ .out ∧ (∃ o' ∈ told, o' ∈ (s.trip k).orders) ∧ o ∈ (t.trip k).orders ∧
      (t.trip k).field = some ord.field ∧
      t.order o = some { ord with trip := some k, stage := if (t.trip k).state = .out then .onTrip else .ready }
  out : ∀ k, (s.trip k).state = .out → t.trip k = s.trip k
  trips : ∀ k, (∀ o ∈ (s.trip k).orders, o ∉ told) → ((s.trip k).state = .fieldHold → (s.trip k).field ≠ some f) →
    t.trip k = s.trip k ∧ ∀ o ∈ (s.trip k).orders, t.order o = s.order o

/-! ### The cycles of MCLK -/

/-- The events due in one cycle, taken in an order: each if it is still due when its turn comes (R97, R121, R150, R160,
R175). The counter of free values is drawn from before each but the last. -/
def takeAll : List Due → State → State
  | [], s => s
  | [e], s => s.takeIfDue e
  | e :: e' :: rest, s => takeAll (e' :: rest) (({ s with freeCount := s.freeCount + 1 } : State).takeIfDue e)

end Sys2Proof.Machine
end

