-- ==== Sys2Proof/Certificates/Slice0/Obligations.lean ====
section
/-! DEFINITION. The statements for the provers. A command's statement reads, at a port that takes it, as one equation:
`exec` answers the next state whose records are written out, and whose port holds the reply written out. `s.atWork c`
is `s` with the status byte carried on SDO and a held reply discarded (R172, R175), and nothing else changed. That one
row is the whole life of its command's frame, from the rise of SEL to the reply, is the model's choice (log entry 1), and
so is the one status byte that SDO carries throughout it (log entry 13). -/

open Sys2Proof Sys2Proof.Machine

/-! ### The queue, the clock, the port (R1, R91, R172 to R190) -/

/-- A step takes the command at the front of the queue and runs it on the state with the queue's rest. -/
def Obligations.StepRunsTheFrontCommand : Prop :=
  ∀ (s : State) (c : Instr) (rest : List Instr),
    step { s with pending := c :: rest } = exec c { s with pending := rest }

/-- Every row answers a next state on every state, and leaves the queue of waiting commands alone. That every meaning is
total, in states that no run reaches too, is the model's choice (log entry 20), and so is that the rows which wait behind
PART_RESET stay (log entry 14). -/
def Obligations.EveryRowAnswersANextState : Prop :=
  ∀ (i : Instr) (s : State), ∃ t : State, exec i s = .next t ∧ t.pending = s.pending

/-- On an empty queue a step is one MCLK cycle (the model's choice, log entry 7): the millisecond timer counts 24,576
cycles and every running timer and loop filter a millisecond at its end (R1, R45; when it ends is log entry 5), each
timebase runs its accumulator, gap, strobes and markers (R91, R92), a taken frame comes nearer its completion (R175); then
all that has fallen due is taken, in an order that is left open (log entry 3), each event as its own row. While RESET is
low nothing runs (R186, log entry 14). -/
def Obligations.AnEmptyQueuePassesOneCycle : Prop :=
  ∀ s : State, s.pending = [] →
    (s.port.select = .inReset → step s = .next s) ∧
    (s.port.select ≠ .inReset →
      let c := s.cycle
      let down (timer : Option Nat) : Option Nat := if s.phase + 1 < 24576 then timer else timer.map (· - 1)
      (∃ t : State, step s = .next t ∧ t.pending = [] ∧
        t.phase = (if s.phase + 1 < 24576 then s.phase + 1 else 0) ∧
        (s.port.taken = none →
          t.port.taken = none ∧
          ∀ f, (t.timebase f).accumulator =
            (if (s.timebase f).state = .stopped then (s.timebase f).accumulator
             else if (s.timebase f).divisor ≤ (s.timebase f).accumulator + 256 then
               (s.timebase f).accumulator + 256 - (s.timebase f).divisor
             else (s.timebase f).accumulator + 256))) ∧
      c = { s with
        timebases := c.timebases, lanes := c.lanes, sets := c.sets, orders := c.orders, trips := c.trips
        phase := if s.phase + 1 < 24576 then s.phase + 1 else 0
        port := { s.port with taken := s.port.taken.map fun x => { x with left := x.left - 1 } } } ∧
      (∀ f,
        let x := s.timebase f
        let a := x.accumulator + 256
        let counts := x.state = .seek ∨ x.state = .track ∨ x.state = .locked ∨ x.state = .holdover
        let gap := if counts then min 4294967295 (x.gap + 1) else x.gap
        let last := (s.program f).ns ≤ x.marker + 1
        c.timebase f =
          if x.state = .stopped then x
          else if x.divisor ≤ a then
            { x with
              accumulator := a - x.divisor, gap := gap, wordClock := true
              strobes := if counts then min 16777215 (x.strobes + 1) else x.strobes
              marker := if counts then (if last then 0 else x.marker + 1) else x.marker
              marked := if counts ∧ last then true else x.marked }
          else if x.wordClock = true ∧ x.divisor / 2 ≤ a then
            { x with accumulator := a, gap := gap, wordClock := false, marked := false }
          else { x with accumulator := a, gap := gap }) ∧
      (∀ l, c.lane l =
        { s.lane l with
          timer := down (s.lane l).timer
          arrival := { (s.lane l).arrival with filter := down (s.lane l).arrival.filter }
          pass := { (s.lane l).pass with filter := down (s.lane l).pass.filter } }) ∧
      (∀ n, c.slot n = { s.slot n with timer := down (s.slot n).timer }) ∧
      (∀ o, c.order o = (s.order o).map fun ord => { ord with timer := down ord.timer }) ∧
      (∀ k, c.trip k = { s.trip k with timer := down (s.trip k).timer }) ∧
      ∃ order : List Due, order.Perm (allDue.filter c.isDue) ∧ step s = .next (takeAll order c)) ∧
    (∀ a : State, a.port.select ≠ .inReset →
      let due (e : Due) : Prop := a.isDue e = true
      let taken (e : Due) (i : Instr) : Prop := due e → exec i a = .next (a.takeIfDue e)
      (∀ e, ¬ due e → a.takeIfDue e = a) ∧
      (due .completion ↔ ∃ x, a.port.taken = some x ∧ x.left = 0) ∧
      (due .completion → a.takeIfDue .completion = a.finishTaken) ∧
      (∀ f,
        let x := a.timebase f
        let limit := x.nominal + x.nominal / 2
        (due (.overdue f) ↔ (x.state = .track ∨ x.state = .locked) ∧ limit ≤ x.gap) ∧
        (due (.holdover f) ↔ x.state = .holdover ∧ x.missed * x.nominal + limit ≤ x.gap) ∧
        (due (.reference f) ↔ x.state = .seek ∧ x.reference = true ∧ limit ≤ x.gap) ∧
        taken (.overdue f) (.pulseOverdue f) ∧ taken (.holdover f) (.holdoverExpiry f) ∧
        taken (.reference f) (.referenceDropped f)) ∧
      (∀ l,
        (due (.loop l .arrival) ↔ (a.lane l).arrival.filter = some 0) ∧
        (due (.loop l .pass) ↔ (a.lane l).pass.filter = some 0) ∧
        (due (.passTimer l) ↔ (a.lane l).timer = some 0) ∧
        ((a.lane l).arrival.raw = .occupied → taken (.loop l .arrival) (.arrivalOccupied l)) ∧
        ((a.lane l).arrival.raw = .clear → taken (.loop l .arrival) (.arrivalCleared l)) ∧
        ((a.lane l).pass.raw = .occupied → taken (.loop l .pass) (.passOccupied l)) ∧
        ((a.lane l).pass.raw = .clear → taken (.loop l .pass) (.passCleared l))) ∧
      (∀ l, taken (.passTimer (entryLane l)) (.entryPassTimerExpiry l)) ∧
      (∀ l, taken (.passTimer (exitLane l)) (.exitPassTimerExpiry l)) ∧
      (∀ n, (due (.issueTimer n) ↔ (a.slot n).timer = some 0) ∧ taken (.issueTimer n) (.issueTimerExpiry n)) ∧
      (∀ o, (due (.prepTimer o) ↔ ∃ ord, a.order o = some ord ∧ ord.timer = some 0) ∧
        taken (.prepTimer o) (.prepTimerExpiry o)) ∧
      ∀ k, (due (.gatherTimer k) ↔ (a.trip k).timer = some 0) ∧ taken (.gatherTimer k) (.gatherTimerExpiry k))

/-- R174, R175: a command frame is judged when SEL rises. Malformed, it is discarded with FRAME_ERROR; well made while
BUSY, with BUSY_FRAME; well made otherwise, it is taken: BUSY is set and a held reply is discarded with REPLY_DISCARDED. A
discarded frame changes the PORT cause, its flag and SDO alone. The same at the rise that ends a period already under way,
where a frame whose last bit fell while BUSY is discarded although BUSY has cleared since (log entry 24). The cycles to the
completion are a free value (log entries 2 and 4), and the one status byte throughout a whole period is the model's choice
(log entry 13). -/
def Obligations.CommandFrameIsJudgedAtTheRiseOfSel : Prop :=
  (∀ (s : State) (p : Period) (first : Nat) (rest : List Nat) (off : Bool),
    first ≠ 0xF1 → first ≠ 0xF2 → s.port.select = .low p → p.bytes = first :: rest →
    let i := Instr.commandFrameJudged [] (.rises off)
    let wellMade := off = false ∧ p.bits = [] ∧ ∃ len args, rest = len :: args ∧ args.length = len
    let flagged (kind : BitVec 3) : Attention :=
      { s.attention with
        causes := s.attention.causes ||| 0x200#10, portKinds := s.attention.portKinds ||| kind }
    (¬ wellMade →
      exec i s = .next { s with port := { s.port with select := .high }, attention := flagged 1#3 }) ∧
    (wellMade → s.port.taken ≠ none ∨ p.busyAtLastBit = true →
      exec i s = .next { s with port := { s.port with select := .high }, attention := flagged 2#3 }) ∧
    (wellMade → s.port.taken = none → p.busyAtLastBit = false →
      ∃ left, 1 ≤ left ∧ left ≤ 1228 ∧
        exec i s = .next
          { s with
            port := { s.port with select := .high, taken := some ⟨first :: rest, left⟩, reply := none }
            attention := if s.port.reply = none then s.attention else flagged 4#3
            freeCount := s.freeCount + 1 })) ∧
  ∀ (s : State) (first : Nat) (rest : List Nat) (off : Bool),
    first ≠ 0xF1 → first ≠ 0xF2 → s.port.select = .high →
    let i := Instr.commandFrameJudged (first :: rest) (.rises off)
    let sdo := List.replicate (rest.length + 1) s.statusByte
    let wellMade := off = false ∧ ∃ len args, rest = len :: args ∧ args.length = len
    let flagged (kind : BitVec 3) : Attention :=
      { s.attention with
        causes := s.attention.causes ||| 0x200#10, portKinds := s.attention.portKinds ||| kind }
    (¬ wellMade →
      exec i s = .next { s with port := { s.port with sdo := sdo }, attention := flagged 1#3 }) ∧
    (wellMade → s.port.taken ≠ none →
      exec i s = .next { s with port := { s.port with sdo := sdo }, attention := flagged 2#3 }) ∧
    (wellMade → s.port.taken = none →
      ∃ left, 1 ≤ left ∧ left ≤ 1228 ∧
        exec i s = .next
          { s with
            port := { s.port with taken := some ⟨first :: rest, left⟩, reply := none, sdo := sdo }
            attention := if s.port.reply = none then s.attention else flagged 4#3
            freeCount := s.freeCount + 1 })

/-- A taken command completes while RESET is high: cycle by cycle BUSY stays set with the same frame until the cycles
left have passed, and then BUSY is clear and a reply is held (R175, R176). That a frame has so many cycles left is log
entry 2, that a step on an empty queue is one cycle log entry 7. -/
def Obligations.BusyClearsInTime : Prop :=
  ∀ (s : State) (x : TakenFrame), s.pending = [] → s.port.select ≠ .inReset → s.port.taken = some x →
    (∀ k, k < max 1 x.left →
      ∃ t : State, core.run k s = .next t ∧ t.port.taken = some { x with left := x.left - k }) ∧
    ∃ t : State, core.run (max 1 x.left) s = .next t ∧ t.port.taken = none ∧ t.port.reply ≠ none

/-- The frame of a well-formed command is well made, reads back as that command with every argument, and is worked as
that command when it completes; a frame with a code that names no command reads back as unknown (R175, R187, R188). The row
of a frame command, taken at a free port, is the same work and its completion in one step (the model's choice, log entry
1). A code
of R188's table with a length that is not one of its own reads back as of a bad length and is answered BAD_LENGTH with
nothing changed; with one of its own it reads back as some command (R175). -/
def Obligations.EveryFrameReadsBackAsItsCommand : Prop :=
  (∀ i : Instr, i.wellFormed = true → i.isFrame = true → (∀ code args, i ≠ .unknownCommand code args) →
    frameWellMade i.frame false = true ∧ decodeFrame i.frame = .command i ∧
      ∀ (s : State) (n : Nat), s.port.taken = some ⟨i.frame, n⟩ → s.finishTaken = (workOf i s).complete) ∧
  (∀ code args, (Instr.unknownCommand code args).wellFormed = true →
    frameWellMade (Instr.unknownCommand code args).frame false = true ∧
      decodeFrame (Instr.unknownCommand code args).frame = .unknown) ∧
  (∀ (i : Instr) (s : State), i.isFrame = true → PortFree s →
    exec i s = .next ((workOf i (s.atWork i)).complete)) ∧
  let accepted : List (List Nat × List Nat) :=
    [([0x7A, 0xF3, 0xF7, 0xF8, 0xFA], [0]),
     ([0x16, 0x23, 0x24, 0x25, 0x26, 0x27, 0x28, 0x32, 0x34, 0x35], [1]),
     ([0x62, 0x65, 0x67, 0x68, 0x72, 0x73, 0x75, 0x76, 0x78, 0x7B, 0xFB], [1]),
     ([0x14, 0x29, 0x2A, 0x36, 0x41, 0x45, 0x48, 0x63, 0x66, 0x69, 0x6A, 0x74, 0x77, 0xF4, 0xF6], [2]),
     ([0x12, 0x13, 0x33, 0x44, 0x49], [3]), ([0x42, 0x79], [4]), ([0x46], [5]), ([0x43, 0x61], [6]),
     ([0x11, 0x15, 0x22, 0x64], [8]), ([0x47], [11]), ([0x21], [12]), ([0x31], [12, 14]),
     ([0x71], [7, 10, 13, 16, 19, 22])]
  ∀ (codes lengths : List Nat) (code : Nat) (args : List Nat), (codes, lengths) ∈ accepted → code ∈ codes →
    (args.length ∉ lengths →
      decodeFrame (code :: args.length :: args) = .badLength ∧
        ∀ (s : State) (n : Nat), s.port.taken = some ⟨code :: args.length :: args, n⟩ →
          s.finishTaken = s.answered .badLength []) ∧
    (args.length ∈ lengths → ∃ i, decodeFrame (code :: args.length :: args) = .command i)

/-- READ STATUS, FETCH REPLY and the empty select period (R172, R173, R177), and the bits of the status byte (R179,
R189). FETCH REPLY sends the status byte, the reply frame held (NOT_FOUND with length 0 when none is held) and then
zeros, and releases a reply whose frame was clocked whole. Whole in one row, a period carries one status byte (the model's
choice, log entry 13). Edge by edge, SDI is sampled at each rising edge of SCK and SDO changes at each falling one alone,
most significant bit first, after the first bit of the status byte that stands on it from the fall of SEL; every eight
rising edges make a byte. Each status byte is sampled as its first bit is put on SDO: at the falling edge, or for the first
byte of a period at the fall of SEL, in clock mode 3 too (the model's choice, log entry 29). The reply that FETCH REPLY
sends is fixed at the end of the first byte, and only that reply is released; in parts with nothing between, with or
without a falling edge where they meet, a period is the whole one. SDO is driven in a period under way alone; that it is
not driven in a period that RESET has set aside, although SEL is low, is the model's choice (log entry 23), and the last
clause rests on it. -/
def Obligations.SelectPeriodsThatAreNoFrames : Prop :=
  ∀ s : State,
    (let b := s.statusByte
     b < 256 ∧ b.testBit 7 = s.port.taken.isSome ∧ b.testBit 6 = s.port.reply.isSome ∧
      b.testBit 5 = (s.attention.causes &&& s.attention.mask != 0) ∧ b.testBit 4 = s.hold ∧
      b.testBit 3 = s.dayOpen ∧ b.testBit 2 = false ∧ b.testBit 1 = false ∧ b.testBit 0 = false) ∧
    (s.port.select = .high → ∀ n, 0 < n →
      (let t := { s with port := { s.port with sdo := List.replicate n s.statusByte } }
       exec (.readStatus n) s = .next t ∧
        ∀ rest off, rest.length + 1 = n → exec (.commandFrameJudged (0xF1 :: rest) (.rises off)) s = .next t) ∧
      (let frame := s.port.reply.getD [4, 0]
       let t :=
        { s with
          port :=
            { s.port with
              sdo := (s.statusByte :: (frame ++ List.replicate n 0)).take n
              reply := if frame.length < n then none else s.port.reply } }
       exec (.fetchReply n) s = .next t ∧
        ∀ rest off, rest.length + 1 = n → exec (.commandFrameJudged (0xF2 :: rest) (.rises off)) s = .next t)) ∧
    (s.port.select = .high → ∀ off,
      exec (.commandFrameJudged [] (.rises off)) s = .next { s with port := { s.port with sdo := [] } }) ∧
    (s.port.select = .high →
      exec (.commandFrameJudged [] (.stays [])) s =
        .next
          { s with
            port :=
              { s.port with select := .low { out := s.statusByte, level := s.statusByte.testBit 7 }, sdo := [] } } ∧
      ∀ (head tail : List Nat) (falls : List SckEdge) (off : Bool), (∀ b ∈ head ++ tail, b < 256) →
        falls = [] ∨ falls = [.falls] →
        ∃ t : State, exec (.commandFrameJudged head (.stays falls)) s = .next t ∧
          exec (.commandFrameJudged tail (.rises off)) t = exec (.commandFrameJudged (head ++ tail) (.rises off)) s) ∧
    (∀ (bytes : List Nat) (edges more : List SckEdge),
      ∃ t : State, exec (.commandFrameJudged bytes (.stays edges)) s = .next t ∧
        exec (.commandFrameJudged [] (.stays more)) t = exec (.commandFrameJudged bytes (.stays (edges ++ more))) s) ∧
    (∀ p : Period, s.port.select = .low p →
      let with' (q : Period) (sdo : List Nat) : State := { s with port := { s.port with select := .low q, sdo := sdo } }
      let edge (e : SckEdge) : Instr := .commandFrameJudged [] (.stays [e])
      let begun : Nat := match p.bytes with
        | [] => p.out
        | first :: rest => if first = 0xF2 then (p.fetched.getD [4, 0]).getD rest.length 0 else s.statusByte
      let whole (out : Nat) (level : Bool) (byte : Nat) : State := with'
        { bytes := p.bytes ++ [byte], bits := [], out := out, level := level, sckHigh := some true
          busyAtLastBit := s.port.taken.isSome
          fetched := if p.bytes = [] ∧ byte = 0xF2 then s.port.reply else p.fetched } (s.port.sdo ++ [out])
      (p.sckHigh ≠ some false →
        let out := if p.bits = [] then begun else p.out
        exec (edge .falls) s =
          .next (with' { p with out := out, level := out.testBit (7 - p.bits.length), sckHigh := some false } s.port.sdo)) ∧
      (p.sckHigh ≠ some true → ∀ bit,
        (p.bits.length < 7 →
          exec (edge (.rises bit)) s =
            .next (with' { p with bits := p.bits ++ [bit], sckHigh := some true } s.port.sdo)) ∧
        ∀ byte, p.bits.length = 7 → byte < 256 →
          (∀ k, k < 8 → (p.bits ++ [bit])[k]? = some (byte.testBit (7 - k))) →
          exec (edge (.rises bit)) s = .next (whole p.out p.level byte)) ∧
      (p.sckHigh = some false → exec (edge .falls) s = .next s) ∧
      (p.sckHigh = some true → ∀ bit, exec (edge (.rises bit)) s = .next s) ∧
      (∀ byte, p.bits = [] → byte < 256 →
        let out := if p.sckHigh = some false then p.out else begun
        exec (.commandFrameJudged [byte] (.stays [])) s = .next (whole out (out.testBit 0) byte)) ∧
      s.sdoLevel = some p.level ∧
      (∀ off rest, p.bytes = [] ∨ p.bytes = 0xF1 :: rest →
        exec (.commandFrameJudged [] (.rises off)) s =
          .next { s with port := { s.port with select := .high } }) ∧
      ∀ off rest, p.bytes = 0xF2 :: rest →
        exec (.commandFrameJudged [] (.rises off)) s =
          .next
            { s with
              port :=
                { s.port with
                  select := .high
                  reply := if p.fetched.any (fun frame => frame.length + 1 ≤ p.bytes.length) then none
                    else s.port.reply } }) ∧
    (s.sdoLevel ≠ none ↔ ∃ p, s.port.select = .low p)

/-- A command whose frame ends while BUSY is discarded with BUSY_FRAME (R174, R176); every select period that was under
way when RESET rose is set aside whole, and none is taken while RESET is low (R186); and a taken frame whose code names no
command is answered UNKNOWN (R175). The one status byte throughout a period, and that a whole period named within another
changes nothing, are the model's choice (log entry 13); so is that SDO shows no byte in a period set aside (log entry
23). -/
def Obligations.FramesThatReachNoBlock : Prop :=
  ∀ s : State,
    (∀ i : Instr, i.isFrame = true → s.port.taken ≠ none → s.port.select = .high →
      exec i s = .next
        { s with
          port := { s.port with sdo := List.replicate i.frame.length s.statusByte }
          attention :=
            { s.attention with
              causes := s.attention.causes ||| 0x200#10, portKinds := s.attention.portKinds ||| 2#3 } }) ∧
    (s.port.select = .aside →
      let t := { s with port := { s.port with select := .high, sdo := [] } }
      (∀ i : Instr, i.isFrame = true → exec i s = .next t) ∧
      (∀ n, exec (.readStatus n) s = .next t ∧ exec (.fetchReply n) s = .next t) ∧
      (∀ bytes off, exec (.commandFrameJudged bytes (.rises off)) s = .next t) ∧
      ∀ bytes edges, exec (.commandFrameJudged bytes (.stays edges)) s = .next s) ∧
    (s.port.select = .inReset ∨ (∃ p, s.port.select = .low p) →
      (∀ i : Instr, i.isFrame = true → exec i s = .next s) ∧
      ∀ n, exec (.readStatus n) s = .next s ∧ exec (.fetchReply n) s = .next s) ∧
    (s.port.select = .inReset → ∀ bytes after, exec (.commandFrameJudged bytes after) s = .next s) ∧
    (PortFree s → ∀ code args, Denied (.unknownCommand code args) s .unknown)

/-- Part reset, at power-on, at the fall of RESET and again at its rise, puts every record at its reset value, keeps the
levels of the input pins, and notes a select period that is under way at the rise (R44, R46, R81, R89, R186). Each record is
written out with the values that its block's rule gives (R2, R18, R43, R44, R65, R89, R111, R130, R154, R171, R186). While
RESET is low every output is low and SDO is not driven, and no time passes in the part. While RESET is high each output line
has the level of its record: ATTN is high while an enabled cause is set (R182), KHOLD while the kitchen is in HOLD, and BARn,
FULLn, CUEn, TXENn, WCKn and FMKn are those of their lane, field unit, program unit and timebase (section 9.9). That the
millisecond begins anew, that the pins' levels, the model's own counter and the queue stay, and that a whole low period is
one row are the model's choice (log entries 4, 5, 6 and 14). -/
def Obligations.PartResetRestoresEveryRecord : Prop :=
  (∀ s : State,
    (s.port.select = .inReset →
      s.lines =
        { attn := false, barriers := Vector.replicate 6 false, full := Vector.replicate 4 false
          cues := Vector.replicate 4 0, txen := Vector.replicate 4 false, wordClock := Vector.replicate 4 false
          marker := Vector.replicate 4 false, khold := false } ∧
      s.sdoLevel = none ∧ (s.pending = [] → step s = .next s)) ∧
    (s.port.select ≠ .inReset →
      (s.lines.attn = true ↔ s.attention.causes &&& s.attention.mask ≠ 0) ∧ s.lines.khold = s.hold ∧
      (∀ l, look s.lines.barriers l = (s.lane l).barrier) ∧
      ∀ f, look s.lines.full f = (s.unit f).full ∧ look s.lines.cues f = (s.program f).cues ∧
        look s.lines.txen f = (s.program f).txen ∧ look s.lines.wordClock f = (s.timebase f).wordClock ∧
        look s.lines.marker f = (s.timebase f).marked) ∧
    (s.port.select ≠ .inReset → ∀ selLow, exec (.partReset (.rises selLow)) s = .next s)) ∧
  ∀ (s : State) (part : ResetPart) (select : SelectLine),
    (∃ selLow, (part = .pulse selLow ∨ (part = .rises selLow ∧ s.port.select = .inReset)) ∧
        select = if selLow then .aside else .high) ∨
      (part = .falls ∧ select = .inReset) →
    ∃ t : State, exec (.partReset part) s = .next t ∧
      t = { State.reset with
        lanes := t.lanes, programs := t.programs, port := { select := select }
        freeCount := s.freeCount, pending := s.pending } ∧
      (∀ l, t.lane l =
        { arrival :=
            { raw := (s.lane l).arrival.raw
              filter := if (s.lane l).arrival.raw = .occupied then some 50 else none }
          pass :=
            { raw := (s.lane l).pass.raw
              filter := if (s.lane l).pass.raw = .occupied then some 50 else none } }) ∧
      (∀ f, t.program f = { carrier := (s.program f).carrier }) ∧
      (∀ f, t.unit f =
        { rows := 0, posts := 0, tall := 0, accessible := 0, channel := none, signOn := 0, signOff := 0
          closed := 0, stalls := Vector.replicate 512 none, full := false }) ∧
      (∀ h, t.entry h = { car := none, touched := false }) ∧ t.serialCounter = 0 ∧
      (∀ l, t.lane l =
        { state := .idle, barrier := false, passTime := 20, timer := none, served := none, begun := false
          arrival :=
            { level := .clear, raw := (s.lane l).arrival.raw
              filter := if (s.lane l).arrival.raw = .occupied then some 50 else none }
          pass :=
            { level := .clear, raw := (s.lane l).pass.raw
              filter := if (s.lane l).pass.raw = .occupied then some 50 else none } }) ∧
      (∀ k, t.tally k = 0) ∧
      (∀ f, t.program f =
        { record := .empty, state := .dark, segment := 0, frame := 0, cues := 0, txen := false
          carrier := (s.program f).carrier }) ∧
      (∀ f, t.timebase f =
        { state := .stopped, divisor := 131072, accumulator := 0, nominal := 0, reference := false, gap := 0
          strobes := 0, marker := 0, slip := 0, run := 0, missed := 0, reacquire := none, range := false, lastGap := 0
          lastStrobes := 0, wordClock := false, marked := false
          settings := { window := 8, gain := 4, jump := 64, holdover := 12, reacquire := 96 } }) ∧
      (∀ n, (t.slot n).state = .unenrolled ∧ (t.slot n).timer = none) ∧ (∀ b, t.bay b = none) ∧
      t.readyLevel = 80 ∧ t.issueTime = 45 ∧
      (∀ o, t.order o = none) ∧ t.parked = [] ∧ t.placement = 0 ∧
      (∀ n, t.station n = { queue := [], xoff := 40, xon := 24 }) ∧ t.prepLimit = 12 ∧ t.hold = false ∧
      (∀ k, t.trip k = { state := .idle, field := none, orders := [], timer := none }) ∧ t.readyList = [] ∧
      t.window = 30 ∧
      t.attention =
        { causes := 0, mask := 0x3FF, tailgate := 0, segment := 0, sound := 0, setKinds := 0, dispatched := 0
          portKinds := 0, notes := [], overflow := false } ∧
      t.port = { taken := none, reply := none, select := select, sdo := [] } ∧
      t.attn = false ∧ t.sdoLevel = none

/-- The machine after part reset keeps every law: timebase ranges (R90, R94), show (R67, R70, R80, R81), records and
positions of the programs (R66, R70), stalls (R7, R8), sets (R112 to R114, R118), HOLD (R148), capacities, order lists
(R133), queues (R136, R143), trips (R155, R156), lanes and tickets (R20, R44). -/
def Obligations.ResetKeepsEveryLaw : Prop :=
  TimebaseLaw State.reset ∧ ShowLaw State.reset ∧ StallLaw State.reset ∧ SetLaw State.reset ∧ HoldLaw State.reset ∧
    CapacityLaw State.reset ∧ OrderListLaw State.reset ∧ QueueLaw State.reset ∧ TripLaw State.reset ∧
    GateLaw State.reset ∧ RangeLaw State.reset ∧ PositionLaw State.reset

/-- R185: IDENTIFY is answered OK with the vendor byte, the part bytes and the letter C, and changes nothing. -/
def Obligations.IdentifyAnswersTheIdentity : Prop :=
  ∀ s : State, PortFree s →
    exec .identify s = .next ((s.atWork .identify).answered .ok [0x6E, 0x04, 0x12, 0x43])

/-- Every READ command is answered OK with the record it names, and changes nothing (R17, R25, R60, R62, R88, R110,
R129, R152, R153, R163, R183). One that names no record is refused: a number out of its range, a row that the field does not
have and a segment that the program does not have with BAD_ARG, an empty bay and a free slot of the book with NOT_FOUND. -/
def Obligations.ReadsAnswerTheRecordAndChangeNothing : Prop :=
  ∀ s : State, PortFree s →
    let answers (i : Instr) (bytes : List Nat) : Prop := exec i s = .next ((s.atWork i).answered .ok bytes)
    (∀ n x : Nat,
      (4 ≤ n → Denied (.readField n x) s .badArg ∧ Denied (.readTimebase n) s .badArg ∧
        Denied (.readProgram n x) s .badArg) ∧
      (6 ≤ n → Denied (.readLane n) s .badArg) ∧ (7 ≤ n → Denied (.readTallies n) s .badArg) ∧
      (8 ≤ n → Denied (.readTrip n) s .badArg) ∧ (256 ≤ n → Denied (.readOrder n) s .badArg) ∧
      (1024 ≤ n → Denied (.readEntry n) s .badArg) ∧ (1 < x ∨ 128 ≤ n → Denied (.readSet x n) s .badArg)) ∧
    (∀ (f : FieldNo) (row : Nat), row ≠ 0 → 16 < row ∨ (s.unit f).rows < row → Denied (.readField f row) s .badArg) ∧
    (∀ (f : FieldNo) (n : Nat), n ≠ 0xFF → (s.program f).record.segments.length ≤ n →
      Denied (.readProgram f n) s .badArg) ∧
    (∀ b : BayNo, s.bay b = none → Denied (.readSet 1 b) s .notFound) ∧
    (∀ o : OrderHandle, s.order o = none → Denied (.readOrder o) s .notFound) ∧
    (∀ f : FieldNo, answers (.readField f 0) (s.fieldRecord f)) ∧
    (∀ (f : FieldNo) (r : Fin 16), r.val + 1 ≤ (s.unit f).rows →
      answers (.readField f (r.val + 1)) (s.fieldRecord f ++ (s.unit f).rowBytes r)) ∧
    (∀ f : FieldNo, answers (.readTimebase f) (timebaseRecord (s.timebase f) (s.program f).ns)) ∧
    (∀ f : FieldNo, answers (.readProgram f 0xFF) (s.program f).bytes) ∧
    (∀ (f : FieldNo) (n : Nat) (seg : Segment), n ≠ 0xFF → (s.program f).record.segments[n]? = some seg →
      answers (.readProgram f n) ((s.program f).bytes ++ seg.bytes)) ∧
    (∀ l : LaneNo, answers (.readLane l) (s.laneRecord l)) ∧
    (∀ h : CarHandle, answers (.readEntry h) (s.entryRecord h)) ∧
    (∀ n : SetHandle, answers (.readSet 0 n) (s.setRecord n)) ∧
    (∀ (b : BayNo) (n : SetHandle), s.bay b = some n → answers (.readSet 1 b) (s.setRecord n)) ∧
    (∀ (o : OrderHandle) (ord : Order), s.order o = some ord → answers (.readOrder o) ord.bytes) ∧
    (∀ t : TripHandle, answers (.readTrip t) (s.tripRecord t)) ∧
    answers .readKitchen s.kitchenRecord ∧
    answers .readCauses (s.atWork .readCauses).causesRecord ∧
    (∀ f : FieldNo, answers (.readTallies f)
      ([FieldTally.carsAdmitted, .personsAdmitted, .departed, .withdrawn, .lockLosses, .reacquireFailures,
        .pulseGlitches, .carrierLosses].flatMap fun k => be2 (s.tally (.field f k)))) ∧
    answers (.readTallies 4)
      ((List.finRange 6).flatMap (fun l =>
          be2 (s.tally (.lane l .balks)) ++ be2 (s.tally (.lane l .tailgates)) ++ be2 (s.tally (.lane l .noPass))) ++
        be2 (s.tally (.unidentifiedExits 0)) ++ be2 (s.tally (.unidentifiedExits 1))) ∧
    answers (.readTallies 5)
      ([KitchenTally.placed, .delivered, .undeliverable, .cancelled, .late, .wasteLines,
        .stationDeferrals].flatMap fun k => be2 (s.tally (.kitchen k))) ∧
    answers (.readTallies 6)
      ([SetTally.lends, .returns, .issueTimeouts, .unlawfulRemovals, .lost].flatMap fun k => be2 (s.tally (.sets k)))

/-- Every record has the bytes and the length that R189 and R190 lay out for it, whatever the state: numbers most
significant byte first, bits from bit 0, all ones where there is no handle, no number and no running timer (R187, R189), and
the codes of R187 for states and kinds. -/
def Obligations.RecordsHaveTheirLengths : Prop :=
  let two (n : Nat) : List Nat := [n / 2 ^ 8 % 256, n % 256]
  let three (n : Nat) : List Nat := n / 2 ^ 16 % 256 :: two n
  let four (n : Nat) : List Nat := n / 2 ^ 24 % 256 :: three n
  let six (n : Nat) : List Nat := n / 2 ^ 40 % 256 :: n / 2 ^ 32 % 256 :: four n
  let orFF (n : Option Nat) : Nat := n.getD 0xFF
  let orFFFF (h : Option CarHandle) : List Nat := two ((h.map Fin.val).getD 0xFFFF)
  let left3 (timer : Option Nat) : List Nat := three (timer.getD 0xFFFFFF)
  let bit (b : Bool) (k : Nat) : Nat := if b then 2 ^ k else 0
  let bits (n : Nat) (p : Fin n → Bool) : Nat := ((List.finRange n).map fun i => bit (p i) i.val).sum
  let number (n : Nat) (p : Fin n → Bool) : Nat := (List.finRange n).countP p
  let position (p : PlatePos) : Nat := match p with
    | .symbol c => c.val
    | .blank => 0x25
    | .unread => 0x26
  let plate (p : Option (List PlatePos)) : List Nat :=
    six ((p.getD (List.replicate 8 .unread)).foldl (fun n x => n * 64 + position x) 0)
  let codes {α : Type} (code : α → Nat) (first : Nat) (xs : List α) : Prop :=
    xs.map code = List.range' first xs.length
  (codes classCode 0 [.standard, .tall, .accessible] ∧ codes carStateCode 1 [.arriving, .present, .leaving] ∧
    codes fieldStateCode 0 [.dark, .opened, .running, .paused .host, .ended] ∧ fieldStateCode (.paused .stall) = 3 ∧
    codes pauseReasonCode 0 [.running, .paused .host, .paused .stall] ∧
    (∀ st, (∀ r, st ≠ .paused r) → pauseReasonCode st = 0) ∧
    codes segmentKindCode 0 [.picture, .intermission] ∧
    codes timebaseStateCode 0 [.stopped, .free, .seek, .track, .locked, .holdover, .lost] ∧
    codes laneStateCode 0 [.idle, .waiting, .opened, .refused] ∧
    codes setStateCode 0 [.unenrolled, .absent, .charging, .ready, .issuing, .lent, .lost, .faulty] ∧
    codes setMarkCode 0 [.issuing, .lent] ∧ codes releaseModeCode 0 [.now, .atIntermission] ∧
    codes stageCode 0 [.parked, .queued, .preparing, .ready, .onTrip] ∧
    codes lineStateCode 0 [.waiting, .started, .finished] ∧
    codes tripStateCode 0 [.idle, .gathering, .fieldHold, .out] ∧
    codes noteKindCode 0 [.late, .cancelSettled, .tooLate]) ∧
  ∀ s : State,
    (∀ f, (s.fieldRecord f).length = 19 ∧
      let u := s.unit f
      s.fieldRecord f =
        [if u.rows = 0 then 0 else 1, u.rows, u.posts, u.tall, u.accessible, orFF u.channel, u.signOn, u.signOff] ++
          two u.closed.toNat ++ [fieldStateCode (s.program f).state] ++ two u.occupancy ++ two u.standardFree ++
          two u.tallFree ++ [u.accessibleFree, bit u.full 0]) ∧
    (∀ f r, ((s.unit f).rowBytes r).length = 64 ∧
      (s.unit f).rowBytes r = (List.finRange 32).flatMap fun p =>
        if (s.unit f).posts ≤ p.val then [0xFF, 0xFE] else orFFFF ((s.unit f).at ⟨r, p⟩)) ∧
    (∀ (x : Timebase) (ns : Nat), (timebaseRecord x ns).length = 34 ∧
      timebaseRecord x ns =
        [timebaseStateCode x.state, bit x.reference 0 + bit x.range 1 + bit x.reacquire.isSome 2] ++
          three x.divisor ++ two (x.slip % 65536).toNat ++ [x.run, x.missed] ++ two (x.reacquire.getD 0) ++
          three x.nominal ++ two ns ++ four x.lastGap ++ three x.lastStrobes ++ four x.gap ++
          [x.settings.window, x.settings.gain] ++ two x.settings.jump ++ [x.settings.holdover] ++
          two x.settings.reacquire) ∧
    (∀ p : ProgramUnit, p.bytes.length = 20 ∧
      let head (condition : Nat) (segs : List Segment) (header : List Nat) : Prop :=
        p.bytes =
          [condition, segs.length] ++ header ++
            [fieldStateCode p.state, pauseReasonCode p.state, p.segment] ++ three p.frame ++
            [bit p.pastCutoff 0 + bit p.runnersAllowed 1 + bit p.txen 2 + bit p.carrier 3, p.cues.toNat]
      let header (h : Header) : List Nat :=
        two h.ns ++ [orFF h.cutoffSegment] ++ three h.cutoffFrames ++ two h.lead ++
          [h.openCues.toNat, h.endCues.toNat]
      match p.record with
      | .empty => head 0 [] [0, 0, 0, 0, 0, 0, 0, 0, 0, 0]
      | .draft h segs => head 1 segs (header h)
      | .loaded h segs => head 2 segs (header h)) ∧
    (∀ seg : Segment, seg.bytes.length = 7 ∧
      seg.bytes =
        [segmentKindCode seg.kind] ++ three seg.length ++ [seg.title, seg.cues.toNat, bit seg.runners 0]) ∧
    (∀ l, (s.laneRecord l).length = 8 ∧
      let x := s.lane l
      s.laneRecord l =
        [if l.val < 4 then 0 else 1, laneStateCode x.state,
          bit (x.arrival.level == .occupied) 0 + bit (x.pass.level == .occupied) 1 + bit x.barrier 2 + bit x.begun 3,
          x.passTime] ++ two (x.timer.getD 0xFFFF) ++ orFFFF x.served) ∧
    (∀ h, (s.entryRecord h).length = (if (s.car h).isSome then 31 else 5) ∧
      let head := two s.serialCounter ++ two (number 1024 fun h => (s.car h).isSome)
      (s.car h = none → s.entryRecord h = head ++ [0]) ∧
      ∀ c, s.car h = some c →
        s.entryRecord h =
          head ++ [carStateCode c.state, c.field.val, c.stall.rowIx.val + 1, c.stall.postIx.val + 1,
            classCode c.cls] ++ four c.ticket ++ plate c.plate ++ [c.party, c.lane] ++ two c.serial ++
            [orFF (c.lent.map fun x => x.1.val), orFF (c.lent.map fun x => setMarkCode x.2), c.orders.length] ++
            ([0, 1, 2, 3].map fun k => orFF (c.orders[k]?.map Fin.val)) ++
            [bit c.held 0 + bit (s.entry h).touched 1]) ∧
    (∀ n, (s.setRecord n).length = (if (s.slot n).state = .unenrolled then 12 else 26) ∧
      let x := s.slot n
      let inState (st : SetState) : Nat := number 128 fun m => (s.slot m).state == st
      s.setRecord n =
        [inState .unenrolled, inState .absent, inState .charging, inState .ready, inState .issuing, inState .lent,
          inState .lost, inState .faulty, inState .issuing, s.readyLevel, s.issueTime, setStateCode x.state] ++
          if x.state = .unenrolled then []
          else six x.serial ++ [x.charge, orFF (x.bay.map Fin.val)] ++ orFFFF x.car ++ [orFF x.channel] ++
            left3 x.timer) ∧
    (∀ ord : Order, ord.bytes.length = 15 + 4 * ord.lines.length ∧
      ord.bytes =
        orFFFF ord.car ++ [ord.field.val, releaseModeCode ord.mode, stageCode ord.stage,
          bit ord.due 0 + bit ord.cancelPending 1 + bit ord.late 2] ++ four ord.serial ++
          [orFF (ord.trip.map Fin.val)] ++ left3 ord.timer ++ [ord.lines.length] ++
          ord.lines.flatMap fun l => [l.item, l.quantity, l.station.val, lineStateCode l.state]) ∧
    (∀ t, (s.tripRecord t).length = 13 + 7 * (s.trip t).orders.length ∧
      let x := s.trip t
      let inState (st : TripState) : Nat := number 8 fun k => (s.trip k).state == st
      let place (ord : Option Order) : List Nat :=
        match ord.bind fun ord => ord.car.bind s.car with
        | some c => [c.field.val, c.stall.rowIx.val + 1, c.stall.postIx.val + 1]
        | none => [0xFF, 0xFF, 0xFF]
      s.tripRecord t =
        [inState .idle, inState .gathering, inState .fieldHold, inState .out] ++ two s.readyList.length ++
          [s.window, tripStateCode x.state, orFF (x.field.map Fin.val)] ++ left3 x.timer ++ [x.orders.length] ++
          (s.routeOrder t).flatMap fun o =>
            [o.val] ++ orFFFF ((s.order o).bind Order.car) ++ place (s.order o) ++
              [bit ((s.order o).any Order.late) 0 + bit ((s.order o).any Order.cancelPending) 1]) ∧
    (s.kitchenRecord.length = 46 ∧
      let having (p : Order → Bool) : List Nat := two (number 256 fun o => (s.order o).any p)
      let queued (n : StationNo) (st : LineState) : Nat := (s.station n).queue.countP fun e =>
        ((s.order e.1).bind fun ord => ord.lines[e.2]?.map OrderLine.state) == some st
      s.kitchenRecord =
        (([.parked, .queued, .preparing, .ready, .onTrip] : List Stage).flatMap fun st =>
            having fun ord => ord.stage == st) ++
          two (256 - number 256 fun o => (s.order o).isSome) ++ two s.parked.length ++
          two (s.parked.countP fun o => (s.order o).any Order.due) ++ having Order.late ++
          having Order.cancelPending ++ four s.placement ++ [s.prepLimit, bit s.hold 0] ++
          (List.finRange 4).flatMap fun n =>
            [(s.station n).queue.length, queued n .waiting, queued n .started, (s.station n).xoff, (s.station n).xon]) ∧
    (s.causesRecord.length = 13 + 2 * s.attention.notes.length ∧
      let a := s.attention
      s.causesRecord =
        two a.causes.toNat ++ two a.mask.toNat ++
          [a.tailgate.toNat, a.segment.toNat + 2 ^ 4 * a.sound.toNat, a.setKinds.toNat, a.dispatched.toNat,
            a.portKinds.toNat, bits 6 fun l => (s.lane l).state == .waiting,
            bits 8 fun t => (s.trip t).state == .out, bit s.hold 0, a.notes.length + bit a.overflow 7] ++
          a.notes.flatMap fun note => [note.1.val, noteKindCode note.2])

/-- LOOKUP TICKET and LOOKUP STALL find the live entry that is not held, change nothing, and answer NOT_FOUND where there
is none (R26, R27), BAD_ARG where the ticket is 0 or a field, row or post is out of its range. -/
def Obligations.LookupsByTicketAndStall : Prop :=
  ∀ s : State, PortFree s →
    (∀ (ticket : Nat) (h : CarHandle) (c : Car), ticket ≠ 0 → s.car h = some c → c.ticket = ticket → c.held = false →
      (∀ h' c', h' < h → s.car h' = some c' → c'.ticket = ticket → c'.held = true) →
      exec (.lookupTicket ticket) s = .next ((s.atWork (.lookupTicket ticket)).answered .ok
        (be2 h.val ++ [carStateCode c.state, c.field.val, c.stall.row, c.stall.post]))) ∧
    (∀ ticket, ticket ≠ 0 → (∀ h c, s.car h = some c → c.ticket = ticket → c.held = true) →
      Denied (.lookupTicket ticket) s .notFound) ∧
    Denied (.lookupTicket 0) s .badArg ∧
    (∀ field row post : Nat, 4 ≤ field ∨ row = 0 ∨ 16 < row ∨ post = 0 ∨ 32 < post →
      Denied (.lookupStall field row post) s .badArg) ∧
    (∀ (f : FieldNo) (st : Stall),
      let i := Instr.lookupStall f st.row st.post
      (∀ h c, (s.unit f).rows ≠ 0 → st.row ≤ (s.unit f).rows → st.post ≤ (s.unit f).posts →
        (s.unit f).at st = some h → s.car h = some c → c.held = false →
        exec i s = .next ((s.atWork i).answered .ok
          (be2 h.val ++ [carStateCode c.state, classCode c.cls] ++ be4 c.ticket))) ∧
      ((s.unit f).rows = 0 ∨ (s.unit f).rows < st.row ∨ (s.unit f).posts < st.post ∨ (s.unit f).at st = none ∨
          (∃ h c, (s.unit f).at st = some h ∧ s.car h = some c ∧ c.held = true) →
        Denied i s .notFound))

/-- LOOKUP PLATE answers the matching live entries that are not held, by compared count, then admission serial, then
handle: their number up to 255, and the first four; NOT_FOUND with a count of 0 when none matches (R28, R29). A plate of
another length, with a code that is no position, or with fewer than four positions that are not UNREAD is refused with
BAD_ARG. -/
def Obligations.LookupByPlateRanksTheMatches : Prop :=
  (∀ (s : State) (codes : List Nat), PortFree s →
    codes.length ≠ 8 ∨ (∃ code ∈ codes, 38 < code) ∨ codes.countP (· < 38) < 4 →
    Denied (.lookupPlate codes) s .badArg) ∧
  ∀ (s : State) (codes : List Nat) (query : List PlatePos), PortFree s → plateOf codes = some query →
    4 ≤ query.countP (· != .unread) →
    let i := Instr.lookupPlate codes
    let compared (plate : List PlatePos) : Nat :=
      (query.zip plate).countP fun pr => pr.1 != .unread && pr.2 != .unread
    let matching (c : Car) (plate : List PlatePos) : Prop :=
      c.held = false ∧ c.plate = some plate ∧ 4 ≤ compared plate ∧
        ∀ pr ∈ query.zip plate, pr.1 ≠ .unread → pr.2 ≠ .unread → pr.1 = pr.2
    let count (c : Car) : Nat := compared (c.plate.getD [])
    ∃ ranking : List (CarHandle × Car),
      (∀ h c, (h, c) ∈ ranking ↔ s.car h = some c ∧ ∃ plate, matching c plate) ∧
      ranking.Pairwise (fun x y =>
        count y.2 < count x.2 ∨
          (count x.2 = count y.2 ∧ (x.2.serial < y.2.serial ∨ (x.2.serial = y.2.serial ∧ x.1 < y.1)))) ∧
      exec i s = .next
        (if ranking = [] then (s.atWork i).answered .notFound [0]
         else (s.atWork i).answered .ok
          (min 255 ranking.length :: (ranking.take 4).flatMap fun x => be2 x.1.val ++ [count x.2]))

/-- R184: CLEAR CAUSES clears each flagged cause with all its detail and leaves the others. SET CAUSE MASK writes the
mask (R182); both refuse a bit that names no cause with BAD_ARG. Raising ORDER keeps eight notes, oldest first, and then
sets the overflow mark (R181). -/
def Obligations.CausesClearedMaskedAndNoted : Prop :=
  ∀ s : State,
    (PortFree s → ∀ w : Nat,
      (1024 ≤ w → Denied (.clearCauses w) s .badArg ∧ Denied (.setCauseMask w) s .badArg) ∧
      (w < 1024 →
        (let b := s.atWork (.clearCauses w)
         let a := b.attention
         let left := a.causes &&& ~~~(BitVec.ofNat 10 w)
         exec (.clearCauses w) s = .next
          (({ b with
              attention :=
                { a with
                  causes := left
                  tailgate := if w.testBit 1 then 0 else a.tailgate
                  segment := if w.testBit 2 then 0 else a.segment
                  sound := if w.testBit 3 then 0 else a.sound
                  setKinds := if w.testBit 4 then 0 else a.setKinds
                  dispatched := if w.testBit 5 then 0 else a.dispatched
                  notes := if w.testBit 6 then [] else a.notes
                  overflow := if w.testBit 6 then false else a.overflow
                  portKinds := if w.testBit 9 then 0 else a.portKinds } } : State).answered .ok (be2 left.toNat))) ∧
        (let b := s.atWork (.setCauseMask w)
         exec (.setCauseMask w) s = .next
          (({ b with attention := { b.attention with mask := BitVec.ofNat 10 w } } : State).answered .ok
            (be2 w ++ [if b.attention.causes &&& BitVec.ofNat 10 w = 0 then 0 else 1]))))) ∧
    (∀ (o : OrderHandle) (k : NoteKind),
      s.raiseOrder o k =
        { s with
          attention :=
            { s.attention with
              causes := s.attention.causes ||| 0x40#10
              notes := if s.attention.notes.length < 8 then s.attention.notes ++ [(o, k)] else s.attention.notes
              overflow := if s.attention.notes.length < 8 then s.attention.overflow else true } })

/-- R64: while the day is open (a field that is not DARK, an order in the book, a trip that is not IDLE, a set ISSUING:
R63), CLOSE DAY is refused with DAY_OPEN; while it is closed, all 64 tallies and the admission serial become 0. -/
def Obligations.CloseDayClearsTheCounts : Prop :=
  ∀ s : State, PortFree s →
    let dayOpen := (∃ f, (s.program f).state ≠ .dark) ∨ (∃ o, s.order o ≠ none) ∨ (∃ k, (s.trip k).state ≠ .idle) ∨
      ∃ n, (s.slot n).state = .issuing
    (dayOpen → Denied .closeDay s .dayOpen) ∧
    (¬ dayOpen →
      exec .closeDay s = .next
        (({ s.atWork .closeDay with tallies := Vector.replicate 64 0, serialCounter := 0 } : State).answered .ok []))

/-- No tally falls, and none passes 65,535, except that CLOSE DAY and part reset clear them: for every other row, and at
every step whose row is neither and in which no taken CLOSE DAY is under way to its completion (R61). -/
def Obligations.TalliesOnlyGrow : Prop :=
  (∀ (i : Instr) (s t : State), (∀ k, s.tally k ≤ 65535) → i ≠ .closeDay → (∀ part, i ≠ .partReset part) →
    exec i s = .next t → ∀ k, s.tally k ≤ t.tally k ∧ t.tally k ≤ 65535) ∧
  ∀ s t : State, (∀ k, s.tally k ≤ 65535) → step s = .next t →
    (∀ rest, s.pending ≠ .closeDay :: rest) → (∀ part rest, s.pending ≠ .partReset part :: rest) →
    (s.pending = [] → ∀ x, s.port.taken = some x → decodeFrame x.bytes ≠ .command .closeDay) →
    ∀ k, s.tally k ≤ t.tally k ∧ t.tally k ≤ 65535

/-! ### Fields, rows and stalls (R2 to R19) -/

/-- R3: CONFIGURE FIELD makes its checks in order and refuses with the code of the first that fails; when all pass it
writes the eight settings and a map of free stalls, keeps the closed rows and the full sign, and answers R × P. -/
def Obligations.ConfigureFieldChecksAndWrites : Prop :=
  ∀ (s : State) (field rows posts tall accessible channel signOn signOff : Nat), PortFree s →
    let i := Instr.configureField field rows posts tall accessible channel signOn signOff
    (4 ≤ field → Denied i s .badArg) ∧
    ∀ f : FieldNo, f.val = field →
      let refusal : Option ResultCode :=
        if (s.program f).state ≠ .dark then some .state
        else if ¬(1 ≤ rows ∧ rows ≤ 16 ∧ 1 ≤ posts ∧ posts ≤ 32) then some .badArg
        else if ¬(1 ≤ tall ∧ tall ≤ rows + 1) then some .badArg
        else if ¬(accessible ≤ 8 ∧ accessible ≤ posts) then some .badArg
        else if ¬ channel ≤ 39 then some .badArg
        else if ¬(signOn ≤ 64 ∧ signOn + 1 ≤ signOff ∧ signOff ≤ 65) then some .badArg
        else if ∃ g, g ≠ f ∧ (s.unit g).rows ≠ 0 ∧ (s.unit g).channel = some channel then some .duplicate
        else none
      (∀ code, refusal = some code → Denied i s code) ∧
      (refusal = none →
        exec i s = .next
          (({ s.atWork i with
              fieldUnits := put s.fieldUnits f
                { s.unit f with
                  rows := rows, posts := posts, tall := tall, accessible := accessible, channel := some channel
                  signOn := signOn, signOff := signOff, stalls := Vector.replicate 512 none } } : State).answered .ok
            (be2 (rows * posts))))

/-- CLOSE ROWS and OPEN ROWS close and open the flagged rows in any state, configured or not, evaluate the full sign
unless the field is DARK, and answer the whole closed-row mask (R5, R6, R16). A field number outside 0 to 3 is refused with
BAD_ARG. That a row built with a mask above two bytes, which no frame carries, takes its low sixteen bits is the model's
choice (log entry 22). -/
def Obligations.RowsCloseAndOpen : Prop :=
  (∀ (s : State) (field mask : Nat), PortFree s → 4 ≤ field →
    Denied (.closeRows field mask) s .badArg ∧ Denied (.openRows field mask) s .badArg) ∧
  ∀ (s : State) (f : FieldNo) (mask : Nat), PortFree s →
    let written (i : Instr) (closed : BitVec 16) : Prop :=
      let u := { s.unit f with closed := closed }
      let full :=
        if (s.program f).state = .dark then u.full
        else if u.standardFree ≤ u.signOn then true
        else if u.signOff ≤ u.standardFree then false
        else u.full
      exec i s = .next
        (({ s.atWork i with fieldUnits := put s.fieldUnits f { u with full := full } } : State).answered .ok
          (be2 closed.toNat))
    written (.closeRows f mask) ((s.unit f).closed ||| BitVec.ofNat 16 mask) ∧
    written (.openRows f mask) ((s.unit f).closed &&& ~~~(BitVec.ofNat 16 mask))

/-- The stall a request gets: by class, the first candidate front row first and centre-out within the row (R11, R12),
for an ACCESSIBLE car the accessible stalls in post order before these (R13); NO_STALL exactly when there is none; a
named stall exactly when it exists, is open and free, and fits the class (R4, R14), else BAD_STALL. -/
def Obligations.TheChosenStallIsTheFirstCandidate : Prop :=
  ∀ u : FieldUnit, u.Configuration →
    let offered (st : Stall) : Prop :=
      u.at st = none ∧ u.closed.getLsbD st.rowIx.val = false ∧ st.row ≤ u.rows ∧ st.post ≤ u.posts
    let reserved (st : Stall) : Prop := st.row = 1 ∧ st.post ≤ u.accessible
    let candidate (cls : StallClass) (st : Stall) : Prop :=
      offered st ∧ ¬ reserved st ∧ (cls = .tall → u.tall ≤ st.row)
    let key (st : Stall) : Nat := (2 * (st.post : Int) - ((u.posts : Int) + 1)).natAbs
    let before (st st' : Stall) : Prop :=
      st.row < st'.row ∨ (st.row = st'.row ∧ (key st < key st' ∨ (key st = key st' ∧ st.post ≤ st'.post)))
    (∀ cls, cls ≠ .accessible →
      (∀ st, u.choose cls none = .ok st ↔ candidate cls st ∧ ∀ st', candidate cls st' → before st st') ∧
      (u.choose cls none = .error .noStall ↔ ∀ st, ¬ candidate cls st)) ∧
    (∀ st, u.choose .accessible none = .ok st ↔
      (offered st ∧ reserved st ∧ ∀ st', offered st' → reserved st' → st.post ≤ st'.post) ∨
      ((∀ st', ¬(offered st' ∧ reserved st')) ∧ u.choose .standard none = .ok st)) ∧
    (u.choose .accessible none = .error .noStall ↔
      (∀ st, ¬(offered st ∧ reserved st)) ∧ ∀ st, ¬ candidate .standard st) ∧
    (∀ cls st,
      let fits := match cls with
        | .standard => ¬ reserved st
        | .tall => ¬ reserved st ∧ u.tall ≤ st.row
        | .accessible => True
      (offered st ∧ fits → u.choose cls (some st) = .ok st) ∧
      (¬(offered st ∧ fits) → u.choose cls (some st) = .error .badStall))

/-- The configuration commands write their settings and answer them as they now stand: CONFIGURE TIMEBASE in DARK or OPEN
(R109), CONFIGURE LANES for the flagged lanes (R59), CONFIGURE SETS (R115), CONFIGURE TRIPS (R157). A setting out of its
range is refused with BAD_ARG, CONFIGURE TIMEBASE in another field state with STATE before that. -/
def Obligations.SettingsAreWrittenAndAnswered : Prop :=
  ∀ s : State, PortFree s →
    (∀ field w g j h r : Nat,
      let i := Instr.configureTimebase field w g j h r
      (4 ≤ field → Denied i s .badArg) ∧
      ∀ f : FieldNo, f.val = field →
        ((s.program f).state ≠ .dark → (s.program f).state ≠ .opened → Denied i s .state) ∧
        ((s.program f).state = .dark ∨ (s.program f).state = .opened →
          w = 0 ∨ 64 < w ∨ 64 < g ∨ j = 0 ∨ 4096 < j ∨ h = 0 ∨ 48 < h ∨ r < 24 ∨ 480 < r → Denied i s .badArg)) ∧
    (∀ a b : Nat,
      (64 ≤ a ∨ b < 3 ∨ 60 < b → Denied (.configureLanes a b) s .badArg) ∧
      (a < 50 ∨ 100 < a ∨ b < 10 ∨ 120 < b → Denied (.configureSets a b) s .badArg) ∧
      (a < 5 ∨ 120 < a → Denied (.configureTrips a) s .badArg)) ∧
    (∀ (f : FieldNo) (w g j h r : Nat), (s.program f).state = .dark ∨ (s.program f).state = .opened →
      1 ≤ w → w ≤ 64 → g ≤ 64 → 1 ≤ j → j ≤ 4096 → 1 ≤ h → h ≤ 48 → 24 ≤ r → r ≤ 480 →
      let i := Instr.configureTimebase f w g j h r
      exec i s = .next
        (({ s.atWork i with
            timebases := put s.timebases f
              { s.timebase f with settings := ⟨w, g, j, h, r⟩ } } : State).answered .ok
          ([w, g] ++ be2 j ++ [h] ++ be2 r))) ∧
    (∀ mask time : Nat, mask < 64 → 3 ≤ time → time ≤ 60 →
      let i := Instr.configureLanes mask time
      let passTime (l : LaneNo) : Nat := if mask.testBit l.val then time else (s.lane l).passTime
      exec i s = .next
        (({ s.atWork i with
            lanes := Vector.ofFn fun l => { s.lane l with passTime := passTime l } } : State).answered .ok
          ((List.finRange 6).map passTime))) ∧
    (∀ level time : Nat, 50 ≤ level → level ≤ 100 → 10 ≤ time → time ≤ 120 →
      let i := Instr.configureSets level time
      exec i s = .next
        (({ s.atWork i with readyLevel := level, issueTime := time } : State).answered .ok [level, time])) ∧
    (∀ window : Nat, 5 ≤ window → window ≤ 120 →
      let i := Instr.configureTrips window
      exec i s = .next (({ s.atWork i with window := window } : State).answered .ok [window]))

/-! ### Timebases (R90 to R111) -/

/-- Frame pulses that measure nothing: ignored in STOPPED and FREE, a counted glitch below half a nominal period in SEEK
with a reference, TRACK and LOCKED (R95, R96), the reference of SEEK, at which a reacquisition may fail (R99, R108), the
recovery from LOST, which ends a stall with a field change (R77, R82, R98). An accepted pulse ends in a frame advance,
`State.frameAdvance`, on the state that its counting leaves, with the due check and the field change that this reports
(R73, R107, R139, R161). That a reacquisition fails even at a reference pulse whose advance ends the show is the model's
reading (log entry 12). -/
def Obligations.PulsesThatMeasureNothing : Prop :=
  ∀ (s : State) (f : FieldNo),
    let x := s.timebase f
    (x.state = .stopped ∨ x.state = .free → exec (.framePulse f) s = .next s) ∧
    ((x.state = .seek ∧ x.reference = true) ∨ x.state = .track ∨ x.state = .locked → x.gap < x.nominal / 2 →
      exec (.framePulse f) s = .next
        { s with
          tallies := put s.tallies (Tally.field f .pulseGlitches).index
            (min 65535 (s.tally (.field f .pulseGlitches) + 1)) }) ∧
    (x.state = .seek → x.reference = false →
      let y := { x with reference := true, gap := 0, strobes := 0, slip := 0, missed := 0 }
      ∃ b t : State, exec (.framePulse f) s = .next t ∧ PulseLeaves s t f 1 (y.reacquired 1) ∧
        PulseCounts s t f (y.failsReacquire 1) False ∧
        PulseCounted s b f (y.reacquired 1) (y.failsReacquire 1) False ∧ t = b.frameAdvance f 1) ∧
    (x.state = .lost →
      let y := { x with
        state := .seek, reference := true, gap := 0, strobes := 0, marker := 0, slip := 0, run := 0, missed := 0
        reacquire := some 1 }
      ∃ b t : State, exec (.framePulse f) s = .next t ∧ PulseCounts s t f False False ∧ PulseLeaves s t f 1 y ∧
        b = { s with timebases := put s.timebases f y } ∧
        ((s.program f).state ≠ .paused .stall → t = b.frameAdvance f 1) ∧
        ((s.program f).state = .paused .stall →
          let resumed := { b with programs := put s.programs f { s.program f with state := .running } }
          t = (resumed.fieldChange f).frameAdvance f 1))

/-- Frame pulses that measure: the measuring pulse of SEEK (R100), and the update in TRACK, LOCKED and HOLDOVER: frames
covered (R102), slip (R103), frequency target and phase pull (R104), jump limit and range (R105), lock state, lock loss
(R106), reacquisition (R108), and at the end the frame advance, `State.frameAdvance`, on the state that the counting leaves,
with the due check and the field change that it reports (R73, R107, R139, R161). That a reacquisition fails even at the
pulse whose advance ends the show is the model's reading (log entry 12). -/
def Obligations.PulsesThatMeasure : Prop :=
  ∀ (s : State) (f : FieldNo),
    let x := s.timebase f
    let ns := (s.program f).ns
    let target (k : Nat) : Int := ((x.gap * 256 + ns * k / 2) / (ns * k) : Nat)
    let range (d : Int) : Int := max 127744 (min 134400 d)
    (x.state = .seek → x.reference = true → x.nominal / 2 ≤ x.gap →
      let y := { x with
        divisor := (range (target 1)).toNat, range := decide (range (target 1) ≠ target 1), slip := 0, run := 0
        missed := 0, state := .track, lastGap := x.gap, lastStrobes := x.strobes, gap := 0, strobes := 0 }
      ∃ b t : State, exec (.framePulse f) s = .next t ∧ PulseLeaves s t f 1 (y.reacquired 1) ∧
        PulseCounts s t f (y.failsReacquire 1) False ∧
        PulseCounted s b f (y.reacquired 1) (y.failsReacquire 1) False ∧ t = b.frameAdvance f 1) ∧
    ((x.state = .track ∨ x.state = .locked) ∧ x.nominal / 2 ≤ x.gap ∨ x.state = .holdover →
      let k := if x.state = .holdover then (x.gap + x.nominal / 2) / x.nominal else 1
      let e : Int := max (-32767) (min 32767 (x.slip + x.strobes - ns * k))
      let pulled : Int := target k + x.settings.gain * e
      let d : Int := x.divisor + max (-(x.settings.jump : Int)) (min x.settings.jump (pulled - x.divisor))
      let w := x.settings.window
      let judged : TimebaseState × Nat :=
        if x.state = .track ∧ e.natAbs ≤ w then (if 8 ≤ x.run + 1 then .locked else .track, x.run + 1)
        else if x.state = .locked ∧ e.natAbs ≤ 4 * w then (.locked, x.run)
        else (.track, 0)
      let y := { x with
        slip := e, divisor := (range d).toNat, range := decide (range d ≠ d), state := judged.1, run := judged.2
        missed := 0, lastGap := x.gap, lastStrobes := x.strobes, gap := 0, strobes := 0 }
      let loses := x.state = .locked ∧ 4 * w < e.natAbs
      ∃ b t : State, exec (.framePulse f) s = .next t ∧ PulseLeaves s t f k (y.reacquired k) ∧
        PulseCounts s t f (y.failsReacquire k) loses ∧
        PulseCounted s b f (y.reacquired k) (y.failsReacquire k) loses ∧ t = b.frameAdvance f k)

/-- The limits of the gap counter: HOLDOVER when a pulse is overdue, one more missed pulse at each further expiry, LOST
with SOUND and a stalled field at the holdover limit (R97, R77), the reference dropped in SEEK (R101). An event row whose
timebase has no such limit running changes nothing; that a row finds the gap counter at its limit is the model's choice
(log entry 8). -/
def Obligations.GapLimitsRunOut : Prop :=
  ∀ (s : State) (f : FieldNo),
    let x := s.timebase f
    let overdue := x.nominal + x.nominal / 2
    let with' (y : Timebase) : State := { s with timebases := put s.timebases f y }
    (x.state = .track ∨ x.state = .locked →
      exec (.pulseOverdue f) s =
        .next (with' { x with state := .holdover, missed := 1, gap := max x.gap overdue })) ∧
    (x.state ≠ .track → x.state ≠ .locked → exec (.pulseOverdue f) s = .next s) ∧
    (x.state = .holdover → x.missed < x.settings.holdover →
      exec (.holdoverExpiry f) s =
        .next (with' { x with missed := x.missed + 1, gap := max x.gap (x.missed * x.nominal + overdue) })) ∧
    (x.state = .holdover → x.settings.holdover ≤ x.missed →
      let y := { x with state := .lost, marked := false, gap := max x.gap (x.missed * x.nominal + overdue) }
      let b := { s with
        attention :=
          { s.attention with
            causes := s.attention.causes ||| 8#10, sound := s.attention.sound ||| BitVec.twoPow 4 f.val } }
      ∃ t : State, exec (.holdoverExpiry f) s = .next t ∧
        t.attention.sound.getLsbD f.val = true ∧ t.attention.causes.getLsbD 3 = true ∧
        ((s.program f).state = .running →
          FieldChanged b t f { s.program f with state := .paused .stall } y) ∧
        ((s.program f).state ≠ .running → t = { with' y with attention := b.attention })) ∧
    (x.state ≠ .holdover → exec (.holdoverExpiry f) s = .next s) ∧
    (x.state = .seek → x.reference = true →
      exec (.referenceDropped f) s = .next (with' { x with reference := false, gap := 0, strobes := 0 })) ∧
    (x.state ≠ .seek ∨ x.reference = false → exec (.referenceDropped f) s = .next s)

/-- The word clock and the frame markers (R91, R92), by the rows that stand for their edges: a strobe comes in the first
cycle that brings the accumulator to D and takes D from it; WCKn falls in the first cycle after it with A at D / 2 or above.
Where A stands at D or above already, because D has fallen (log entry 19), the strobe comes in the next cycle, and so does a
fall where A stands at D / 2 or above and short of a strobe. Strobes, markers and the gap are counted in SEEK, TRACK, LOCKED
and HOLDOVER alone. That a row runs the one timebase on to its edge is the model's choice (log entry 8). -/
def Obligations.WordClockEdges : Prop :=
  ∀ (s : State) (f : FieldNo) (n : Nat),
    let x := s.timebase f
    let ns := (s.program f).ns
    let counts := x.state = .seek ∨ x.state = .track ∨ x.state = .locked ∨ x.state = .holdover
    let gap := if counts then min 4294967295 (x.gap + n) else x.gap
    (x.state = .stopped → exec (.wordStrobe f) s = .next s ∧ exec (.wordClockFall f) s = .next s) ∧
    (x.state ≠ .stopped → 0 < n → x.accumulator + 256 * (n - 1) < x.divisor ∨ n = 1 →
      x.divisor ≤ x.accumulator + 256 * n →
      exec (.wordStrobe f) s = .next
        { s with
          timebases := put s.timebases f
            { x with
              accumulator := x.accumulator + 256 * n - x.divisor
              gap := gap
              wordClock := true
              strobes := if counts then min 16777215 (x.strobes + 1) else x.strobes
              marker := if counts then (if ns ≤ x.marker + 1 then 0 else x.marker + 1) else x.marker
              marked := if counts ∧ ns ≤ x.marker + 1 then true else x.marked } }) ∧
    (x.state ≠ .stopped → x.wordClock = false → exec (.wordClockFall f) s = .next s) ∧
    (x.state ≠ .stopped → x.wordClock = true → 0 < n →
      x.accumulator + 256 * (n - 1) < x.divisor / 2 ∨ (n = 1 ∧ x.accumulator + 256 < x.divisor) →
      x.divisor / 2 ≤ x.accumulator + 256 * n →
      exec (.wordClockFall f) s = .next
        { s with
          timebases := put s.timebases f
            { x with accumulator := x.accumulator + 256 * n, gap := gap, wordClock := false, marked := false } })

/-- Every timebase keeps the ranges of R90 at every step: D within 127,744 to 134,400, E within -32,767 to +32,767, the
counters and the settings within theirs (R90, R109); and, in a state whose fields keep the show law, P_nom 0 or 768,000 to
1,280,000 and that of its program, the marker count below N_s, the missed count 0 to H as its state gives it, the reference
yes in TRACK, LOCKED and HOLDOVER, and the STOPPED record cleared (R90, R94, R97). A is bounded by the largest D and 255,
not by the present D and 255, because it keeps its value when D falls (R91, log entry 19). -/
def Obligations.TimebaseRangesAreKept : Prop :=
  ∀ s t : State, TimebaseLaw s → step s = .next t →
    TimebaseLaw t ∧ (ShowLaw s → RangeLaw s → RangeLaw t)

/-! ### Show programs (R66 to R89) -/

/-- BEGIN PROGRAM in a DARK field starts a draft with its header, the lead 8,640 frames unless given, and is refused with
BAD_ARG where the cutoff, or a lead that is given, is out of its range; a lead that is not given is not read (R68). That the
lead-given flag and the cue sets are judged by the same check is the model's reading (log entry 9). ADD SEGMENT appends a
segment to a draft of fewer than 24 and answers their number, and is refused with FULL at 24, with STATE where there is no
draft, and with BAD_ARG where an argument is out of its range (R69, log entry 9). In every state but DARK both are refused
with STATE (R68, R69, R70). -/
def Obligations.ProgramsAreBuiltInDraft : Prop :=
  (∀ (s : State) (field ns cutoffSegment cutoffFrames leadGiven lead openCues endCues kind length title cues runners : Nat),
    PortFree s →
    let i := Instr.beginProgram field ns cutoffSegment cutoffFrames leadGiven lead openCues endCues
    let j := Instr.addSegment field kind length title cues runners
    (4 ≤ field → Denied i s .badArg ∧ Denied j s .badArg) ∧
    ∀ f : FieldNo, f.val = field →
      ((s.program f).state ≠ .dark → Denied i s .state ∧ Denied j s .state) ∧
      ((s.program f).state = .dark → (∀ header segs, (s.program f).record ≠ .draft header segs) → Denied j s .state) ∧
      ∀ header segs, (s.program f).state = .dark → (s.program f).record = .draft header segs →
        1 < kind ∨ length = 0 ∨ 1048575 < length ∨ 255 < title ∨ 16 ≤ cues ∨ 1 < runners → Denied j s .badArg) ∧
  ∀ (s : State) (f : FieldNo), PortFree s → (s.program f).state = .dark →
    (∀ ns cutoffSegment cutoffFrames leadGiven lead openCues endCues : Nat,
      let i := Instr.beginProgram f ns cutoffSegment cutoffFrames leadGiven lead openCues endCues
      let inRange := (cutoffSegment ≤ 23 ∨ cutoffSegment = 0xFF) ∧ cutoffFrames ≤ 1048575 ∧ leadGiven ≤ 1 ∧
        (leadGiven = 1 → lead ≤ 65535) ∧ openCues < 16 ∧ endCues < 16
      (¬ inRange → Denied i s .badArg) ∧
      (inRange →
        exec i s = .next
          (({ s.atWork i with
              programs := put s.programs f
                { s.program f with
                  record := .draft
                    { ns := ns
                      cutoffSegment := if cutoffSegment = 0xFF then none else some cutoffSegment
                      cutoffFrames := cutoffFrames
                      lead := if leadGiven = 1 then lead else 8640
                      openCues := BitVec.ofNat 4 openCues
                      endCues := BitVec.ofNat 4 endCues } [] } } : State).answered .ok []))) ∧
    (∀ (header : Header) (segs : List Segment) (kind length title cues runners : Nat),
      (s.program f).record = .draft header segs →
      kind ≤ 1 → 1 ≤ length → length ≤ 1048575 → title ≤ 255 → cues < 16 → runners ≤ 1 →
      let i := Instr.addSegment f kind length title cues runners
      (24 ≤ segs.length → Denied i s .full) ∧
      (segs.length < 24 →
        exec i s = .next
          (({ s.atWork i with
              programs := put s.programs f
                { s.program f with
                  record := .draft header
                    (segs ++
                      [{ kind := if kind = 0 then .picture else .intermission, length := length, title := title
                         cues := BitVec.ofNat 4 cues, runners := decide (runners = 1) }]) } } : State).answered .ok
            [segs.length + 1])))

/-- OPEN FIELD takes a DARK, configured field whose draft has a segment, a cutoff segment that exists and N_s in 1,500 to
2,500: LOADED, OPEN at the start, the open cue set, TXENn on, the timebase in FREE at the nominal divisor, the full sign
evaluated. Any other draft, and an EMPTY record, is refused with BAD_PROGRAM, a field that is not DARK or not configured with
STATE before that, a field number out of its range with BAD_ARG (R71, R94). -/
def Obligations.OpenFieldLoadsTheDraft : Prop :=
  (∀ (s : State) (field : Nat), PortFree s →
    (4 ≤ field → Denied (.openField field) s .badArg) ∧
    ∀ f : FieldNo, f.val = field → (s.program f).state ≠ .dark ∨ (s.unit f).rows = 0 →
      Denied (.openField field) s .state) ∧
  ∀ (s : State) (f : FieldNo), PortFree s → (s.program f).state = .dark → (s.unit f).rows ≠ 0 →
    let i := Instr.openField f
    let valid (header : Header) (segs : List Segment) : Prop :=
      segs ≠ [] ∧ (∀ c, header.cutoffSegment = some c → c < segs.length) ∧ 1500 ≤ header.ns ∧ header.ns ≤ 2500
    ((s.program f).record = .empty → Denied i s .badProgram) ∧
    ∀ header segs, (s.program f).record = .draft header segs →
      (¬ valid header segs → Denied i s .badProgram) ∧
      (valid header segs →
        let p := { s.program f with
          record := .loaded header segs, state := .opened, segment := 0, frame := 0, cues := header.openCues
          txen := true }
        let x := { s.timebase f with
          state := .free, nominal := header.ns * 512, divisor := 131072, accumulator := 0, reference := false
          slip := 0, run := 0, missed := 0, reacquire := none, range := false }
        let b := { s.atWork i with fieldUnits := put s.fieldUnits f (s.unit f).evaluateSign }
        ∃ t : State, exec i s = .next (t.answered .ok []) ∧ FieldChanged b t f p x)

/-- START SHOW (R72), PAUSE SHOW (R75), RESUME SHOW (R76), SKIP SEGMENT (R78) and END SHOW (R74, R79): the field's state,
position and cue lines, its timebase (R94), and the report of the change (R82). In every state but those the rule names, each
is refused with STATE (R70), a field number out of its range with BAD_ARG. A report raises SEGMENT, makes the due check of
the field's parked orders (R139), and, where runners may then walk the field, sends its FIELD_HOLD trips OUT with their
orders ON_TRIP and TRIP raised (R161, R162). -/
def Obligations.ShowCommandsMoveTheShow : Prop :=
  (∀ (s : State) (f : FieldNo),
    let p := s.program f
    let allowed := p.state = .dark ∨ p.state = .opened ∨ p.state = .ended ∨
      ∃ seg, p.record.segments[p.segment]? = some seg ∧ seg.runners = true
    let goes (k : TripHandle) : Prop := (s.trip k).state = .fieldHold ∧ (s.trip k).field = some f
    let c := State.dueCheckField
      { s with
        attention :=
          { s.attention with
            causes := s.attention.causes ||| 4#10, segment := s.attention.segment ||| BitVec.twoPow 4 f.val } } f
    let t := s.fieldChange f
    (¬ allowed ∨ (∀ k, ¬ goes k) → t = c) ∧
    (allowed → (∃ k, goes k) →
      (∀ k, goes k → t.trip k = { s.trip k with state := .out, timer := none }) ∧
      (∀ k, ¬ goes k → t.trip k = s.trip k) ∧
      (∀ o k, goes k → o ∈ (s.trip k).orders → t.order o = (c.order o).map fun ord => { ord with stage := .onTrip }) ∧
      (∀ o, (∀ k, goes k → o ∉ (s.trip k).orders) → t.order o = c.order o) ∧
      (∀ k : TripHandle, t.attention.dispatched.getLsbD k.val = true ↔
        s.attention.dispatched.getLsbD k.val = true ∨ goes k) ∧
      t = { c with
        trips := t.trips, orders := t.orders
        attention :=
          { c.attention with causes := c.attention.causes ||| 0x20#10, dispatched := t.attention.dispatched } })) ∧
  (∀ (s : State) (field : Nat), PortFree s → 4 ≤ field →
    Denied (.startShow field) s .badArg ∧ Denied (.pauseShow field) s .badArg ∧ Denied (.resumeShow field) s .badArg ∧
      Denied (.skipSegment field) s .badArg ∧ Denied (.endShow field) s .badArg) ∧
  ∀ (s : State) (f : FieldNo), PortFree s →
    let p := s.program f
    let x := s.timebase f
    let sought := { x with
      state := .seek, reference := false, gap := 0, strobes := 0, marker := 0, run := 0, missed := 0 }
    let freed := { x with state := .free, reference := false, missed := 0, reacquire := none, marked := false }
    let shown := p.state = .running ∨ p.state = .paused .host ∨ p.state = .paused .stall
    let ended (q : ProgramUnit) : ProgramUnit :=
      { q with state := .ended, cues := (p.program?.map Header.endCues).getD 0 }
    let answers (i : Instr) (bytes : List Nat) (q : ProgramUnit) (y : Timebase) : Prop :=
      ∃ t : State, exec i s = .next (t.answered .ok bytes) ∧ FieldChanged (s.atWork i) t f q y
    (p.state = .opened →
      answers (.startShow f) []
        { p with
          state := .running, segment := 0, frame := 0
          cues := (p.record.segments[0]?.map Segment.cues).getD 0 } sought) ∧
    (p.state ≠ .opened → Denied (.startShow f) s .state) ∧
    (p.state = .running ∨ p.state = .paused .stall →
      answers (.pauseShow f) [] { p with state := .paused .host } freed) ∧
    (p.state ≠ .running → p.state ≠ .paused .stall → Denied (.pauseShow f) s .state) ∧
    (p.state = .paused .host → answers (.resumeShow f) [] { p with state := .running } sought) ∧
    (p.state ≠ .paused .host → Denied (.resumeShow f) s .state) ∧
    (shown → ∀ seg, p.record.segments[p.segment + 1]? = some seg →
      answers (.skipSegment f) [p.segment + 1]
        { p with segment := p.segment + 1, frame := 0, cues := seg.cues } x) ∧
    (shown → p.record.segments.length ≤ p.segment + 1 →
      answers (.skipSegment f) [p.record.segments.length]
        (ended { p with segment := p.record.segments.length, frame := 0 }) freed) ∧
    (¬ shown → Denied (.skipSegment f) s .state ∧ Denied (.endShow f) s .state) ∧
    (shown → answers (.endShow f) [] (ended p) freed)

/-- CLOSE FIELD takes an OPEN or ENDED field to DARK: without force only when its occupancy is 0, with force after every
live entry of the field has been retired and marked touched; program and outputs go, the field's configuration, closed rows
and timebase settings stay, and its stall map is all free (R19, R85, R86, R87, R94). The order book is told of the orders on
its cars' lists, car by car in ascending handle order, `State.ordersLoseCar`, and then of the change to DARK,
`State.fieldChange`: orders, queues, parked list, HOLD, trips, ready list, the kitchen's tallies, ORDER notes and causes are
what these leave (R82, R86, R161, R170). Other fields, their cars and sets stay as they are. An order that is on no such list
stands if it is QUEUED, PREPARING or ON_TRIP, and every OUT trip stands (R154, R171); that a ready order may form or fill a
trip which the cascade empties or depletes, and that parked orders are due-checked and offered to the stations where it
withdraws lines, is the model's reading (log entries 30 and 31). A lane that served a retired car serves none (R58), a LENT
set is LOST and an issue cancelled (R128), and no order names a retired car (R170): where they say so, in a state whose
stalls, sets, or orders agree. A field number or a force out of its range is refused with BAD_ARG (log entry 9). -/
def Obligations.CloseFieldDarkensTheField : Prop :=
  (∀ (s : State) (field force : Nat), PortFree s → 4 ≤ field ∨ 1 < force →
    Denied (.closeField field force) s .badArg) ∧
  ∀ (s : State) (f : FieldNo), PortFree s →
    let dark : ProgramUnit := { carrier := (s.program f).carrier }
    let stopped : Timebase := { settings := (s.timebase f).settings }
    ((s.program f).state ≠ .opened → (s.program f).state ≠ .ended →
      Denied (.closeField f 0) s .state ∧ Denied (.closeField f 1) s .state) ∧
    ((s.program f).state = .opened ∨ (s.program f).state = .ended →
      ((s.unit f).occupancy ≠ 0 → Denied (.closeField f 0) s .occupied) ∧
      ((s.unit f).occupancy = 0 →
        ∃ t : State, exec (.closeField f 0) s = .next (t.answered .ok [0, 0, 0, 0, 0, 0]) ∧
          FieldChanged
            { s.atWork (.closeField f 0) with fieldUnits := put s.fieldUnits f { s.unit f with full := false } }
            t f dark stopped) ∧
      (let retired (p : Car → Bool) : Nat := countOf fun h => (s.car h).any fun c => c.field == f && p c
       let gone (h : CarHandle) : Prop := ∃ c, s.car h = some c ∧ c.field = f
       let lost := retired fun c => c.lent.any fun n => n.2 == .lent
       let cars : List Car := ((List.finRange 1024).filterMap s.car).filter fun c => c.field == f
       let names : List OrderHandle := cars.flatMap Car.orders
       let told : State := (s.atWork (.closeField f 1)).ordersLoseCar names
       let closed : State := State.fieldChange
         { told with
           programs := put s.programs f dark, timebases := put s.timebases f stopped
           attention :=
             if cars = [] then told.attention
             else { told.attention with causes := told.attention.causes ||| 0x100#10 } } f
       ∃ (t : State) (orders : Nat), exec (.closeField f 1) s = .next (t.answered .ok
            (be2 (retired fun _ => true) ++
              [lost, retired fun c => c.lent.any fun n => n.2 == .issuing] ++ be2 orders)) ∧
          orders = (((List.finRange 1024).filterMap s.car).map fun c =>
            if c.field = f then c.orders.length else 0).sum ∧
          t.program f = dark ∧ t.timebase f = stopped ∧
          (∀ g, g ≠ f → t.unit g = s.unit g ∧ t.program g = s.program g ∧ t.timebase g = s.timebase g) ∧
          t.unit f = { s.unit f with stalls := (t.unit f).stalls, full := false } ∧
          (StallLaw s → t.unit f = { s.unit f with stalls := Vector.replicate 512 none, full := false }) ∧
          (∀ h c, s.car h = some c → c.field = f → t.car h = none ∧ (t.entry h).touched = true) ∧
          (SetLaw s → ∀ h, (∀ c, s.car h = some c → c.field ≠ f) → t.entry h = s.entry h) ∧
          (∀ l h, (s.lane l).served = some h → gone h → t.lane l = { s.lane l with served := none }) ∧
          (∀ l, (∀ h, (s.lane l).served = some h → ¬ gone h) → t.lane l = s.lane l) ∧
          (SetLaw s → ∀ n h, (s.slot n).car = some h → gone h →
            ((s.slot n).state = .lent → t.slot n = { s.slot n with state := .lost, car := none }) ∧
            ((s.slot n).state = .issuing →
              t.slot n =
                { s.slot n with
                  state := if s.readyLevel ≤ (s.slot n).charge then .ready else .charging
                  car := none, timer := none })) ∧
          (SetLaw s → ∀ n, (∀ h, (s.slot n).car = some h → ¬ gone h) → t.slot n = s.slot n) ∧
          (∀ h c o, s.car h = some c → c.field = f → o ∈ c.orders → ∀ ord, t.order o = some ord → ord.car = none) ∧
          (∀ o ord, s.order o = some ord → (∀ h c, s.car h = some c → c.field = f → o ∉ c.orders) →
            ∃ ord', t.order o = some ord' ∧ Order.kept { ord' with trip := ord.trip } = ord.kept) ∧
          (QueueLaw s → TripLaw s → OthersStand s t f names) ∧
          (SetLaw s → s.tally (.sets .lost) ≤ 65535 → t.tally (.sets .lost) = min 65535 (s.tally (.sets .lost) + lost)) ∧
          (∀ k, k ≠ .sets .lost → k ≠ .kitchen .cancelled → k ≠ .kitchen .wasteLines →
            k ≠ .kitchen .stationDeferrals → t.tally k = s.tally k) ∧
          t.attention.causes.getLsbD 2 = true ∧ t.attention.segment.getLsbD f.val = true ∧
          ((∃ h, gone h) → t.attention.causes.getLsbD 8 = true) ∧
          (∀ j, t.tally (.kitchen j) = closed.tally (.kitchen j)) ∧
          t = { closed with
            fieldUnits := t.fieldUnits, entries := t.entries, lanes := t.lanes, sets := t.sets, tallies := t.tallies } ∧
          t = { s.atWork (.closeField f 1) with
            fieldUnits := t.fieldUnits, entries := t.entries, lanes := t.lanes, tallies := t.tallies
            programs := t.programs, timebases := t.timebases, sets := t.sets, orders := t.orders
            parked := t.parked, stations := t.stations, hold := t.hold, trips := t.trips
            readyList := t.readyList, attention := t.attention }))

/-- A frame advance of `k` frames moves the position on by `k` frames of the program, into the segment where that lies, and
runs the program out when as many frames are not left; a segment is entered exactly when the current one is left and is not
the last (R73). Handed to a field, it is reported to the order book, applied or not (R139), and a segment entered or the end
of the program is reported as a field change (R82). `PulsesThatMeasureNothing` and `PulsesThatMeasure` say what a frame pulse
hands to it. In RUNNING the position stands inside a segment (R70, `PositionLaw`). That an advance which enters several
segments is reported as one field change, at the position where it ends, is the model's reading of R73 (log entry 21). -/
def Obligations.FrameAdvanceWalksTheProgram : Prop :=
  (∀ (s : State) (f : FieldNo) (k : Nat),
    let p := s.program f
    let a := p.advance k
    let moved := { p with segment := a.segment, frame := a.frame }
    let withCues (q : ProgramUnit) : ProgramUnit := { q with cues := q.cueLevels }
    let ended := { moved with state := .ended }
    let freed := { s.timebase f with
      state := .free, reference := false, missed := 0, reacquire := none, marked := false }
    let at' (q : ProgramUnit) : State := { s with programs := put s.programs f (withCues q) }
    (p.state ≠ .running → s.frameAdvance f k = s.dueCheckField f) ∧
    (p.state = .running → a.ranOut = false → a.entered = false →
      s.frameAdvance f k = (at' moved).dueCheckField f) ∧
    (p.state = .running → a.ranOut = false → a.entered = true →
      s.frameAdvance f k = ((at' moved).dueCheckField f).fieldChange f) ∧
    (p.state = .running → a.ranOut = true →
      s.frameAdvance f k =
        (State.dueCheckField { at' ended with timebases := put s.timebases f freed } f).fieldChange f)) ∧
  ∀ (p : ProgramUnit) (k : Nat) (seg : Segment),
    let segs := p.record.segments
    segs[p.segment]? = some seg → p.frame < seg.length →
    let framesBefore (n : Nat) : Nat := ((segs.take n).map Segment.length).sum
    let total := (segs.map Segment.length).sum
    let a := p.advance k
    (framesBefore p.segment + p.frame + k < total →
      a.ranOut = false ∧ framesBefore a.segment + a.frame = framesBefore p.segment + p.frame + k ∧
        ∃ seg', segs[a.segment]? = some seg' ∧ a.frame < seg'.length) ∧
    (total ≤ framesBefore p.segment + p.frame + k →
      a.ranOut = true ∧ a.segment = segs.length ∧ a.frame = 0) ∧
    (a.entered = true ↔ p.segment < a.segment ∧ p.segment + 1 < segs.length)

/-- A fall of CAROKn from high counts a carrier loss and raises SOUND with the field's flag while TXENn is on, and is the
level alone while it is off; a rise is the level alone (R81). That a CARRIER LOSS row at a low CAROKn changes nothing is
the model's choice (log entry 8). -/
def Obligations.CarrierIsWatchedWhileTransmitting : Prop :=
  ∀ (s : State) (f : FieldNo),
    let level (b : Bool) : State := { s with programs := put s.programs f { s.program f with carrier := b } }
    exec (.carrierRise f) s = .next (level true) ∧
    ((s.program f).carrier = false → exec (.carrierLoss f) s = .next s) ∧
    ((s.program f).carrier = true → (s.program f).txen = false → exec (.carrierLoss f) s = .next (level false)) ∧
    ((s.program f).carrier = true → (s.program f).txen = true →
      exec (.carrierLoss f) s = .next
        { level false with
          tallies := put s.tallies (Tally.field f .carrierLosses).index
            (min 65535 (s.tally (.field f .carrierLosses) + 1))
          attention :=
            { s.attention with
              causes := s.attention.causes ||| 8#10, sound := s.attention.sound ||| BitVec.twoPow 4 f.val } })

/-- At every step, each field's program record, timebase state, cue lines and TXENn stay those of its state (R67, R70,
R80, R81, R93), and the program record and the position stay in their ranges (R66, R70): the position at the start of the
program in DARK and OPEN, inside a segment in RUNNING and PAUSED, and in ENDED inside a segment or at the segment count with
frame 0. -/
def Obligations.ShowStatesAreKept : Prop :=
  ∀ s t : State, ShowLaw s → step s = .next t → ShowLaw t ∧ (PositionLaw s → PositionLaw t)

/-! ### Lanes (R44 to R60) -/

/-- Loop events. A raw change starts or cancels 50 ms (R45). The arrival loop: IDLE waits with LANE raised, WAITING balks,
REFUSED ends, OPEN records the level (R47). Outside OPEN a pass occupation is a counted tailgate and its clearing the
level alone (R53). A loop at the level already gives no event: the model's choice (log entry 8). While RESET is low no
loop becomes OCCUPIED (R46, R186). -/
def Obligations.LoopEventsByLaneState : Prop :=
  ∀ (s : State) (l : LaneNo),
    let awake := s.port.select ≠ .inReset
    let x := s.lane l
    let with' (y : Lane) : State := { s with lanes := put s.lanes l y }
    let raw (loop : LoopInput) (level : LoopLevel) : LoopInput :=
      if loop.raw = level then loop
      else { loop with raw := level, filter := if loop.level = level then none else some 50 }
    let up : LoopInput := { level := .occupied, raw := .occupied, filter := none }
    let down : LoopInput := { level := .clear, raw := .clear, filter := none }
    (∀ level, exec (.loopRawChange l .arrival level) s = .next (with' { x with arrival := raw x.arrival level }) ∧
      exec (.loopRawChange l .pass level) s = .next (with' { x with pass := raw x.pass level })) ∧
    (x.arrival.level = .occupied → exec (.arrivalOccupied l) s = .next s) ∧
    (s.port.select = .inReset → exec (.arrivalOccupied l) s = .next s ∧ exec (.passOccupied l) s = .next s) ∧
    (awake → x.arrival.level = .clear → x.state = .idle →
      exec (.arrivalOccupied l) s = .next
        { with' { x with arrival := up, state := .waiting } with
          attention := { s.attention with causes := s.attention.causes ||| 1#10 } }) ∧
    (awake → x.arrival.level = .clear → x.state ≠ .idle →
      exec (.arrivalOccupied l) s = .next (with' { x with arrival := up })) ∧
    (x.arrival.level = .clear → exec (.arrivalCleared l) s = .next s) ∧
    (x.arrival.level = .occupied → x.state = .waiting →
      exec (.arrivalCleared l) s = .next
        { with' { x with arrival := down, state := .idle } with
          tallies := put s.tallies (Tally.lane l .balks).index (min 65535 (s.tally (.lane l .balks) + 1)) }) ∧
    (x.arrival.level = .occupied → x.state ≠ .waiting →
      exec (.arrivalCleared l) s = .next
        (with' { x with arrival := down, state := if x.state = .refused then .idle else x.state })) ∧
    (x.pass.level = .occupied → exec (.passOccupied l) s = .next s) ∧
    (awake → x.pass.level = .clear → x.state = .opened →
      exec (.passOccupied l) s = .next (with' { x with pass := up, begun := true })) ∧
    (awake → x.pass.level = .clear → x.state ≠ .opened →
      exec (.passOccupied l) s = .next
        { with' { x with pass := up } with
          tallies := put s.tallies (Tally.lane l .tailgates).index (min 65535 (s.tally (.lane l .tailgates) + 1))
          attention :=
            { s.attention with
              causes := s.attention.causes ||| 2#10, tailgate := s.attention.tailgate ||| BitVec.twoPow 6 l.val } }) ∧
    (x.pass.level = .clear → exec (.passCleared l) s = .next s) ∧
    (x.pass.level = .occupied → x.state ≠ .opened ∨ x.begun = false →
      exec (.passCleared l) s = .next (with' { x with pass := down }))

/-- A complete pass of an OPEN lane: an entry lane commits the car it serves and counts it with its party (R51), an exit
lane retires the car it is bound to with cause DEPART and counts the departure (R55), an unbound exit lane counts an
unidentified exit (R57), an entry lane that has lost its car counts nothing (R58); then the lane closes (R47). TOUCHED is
raised with a car that is touched and LANE with a lane that waits; other lanes and the rest of attention stay. The retirement
leaves other entries, lanes and fields as they were and tells the order book of the car's orders (R38, R170). -/
def Obligations.APassCompletesAndClosesTheLane : Prop :=
  ∀ (s : State) (l : LaneNo),
    let x := s.lane l
    x.state = .opened → x.begun = true → x.pass.level = .occupied →
    let closed : Lane := { x with
      state := if x.arrival.level = .occupied then .waiting else .idle
      pass := { level := .clear, raw := .clear, filter := none }
      barrier := false, timer := none, served := none, begun := false }
    let freed (l' : LaneNo) (h : CarHandle) : Lane :=
      { s.lane l' with served := if (s.lane l').served = some h then none else (s.lane l').served }
    let raised (a : Attention) (cause : BitVec 10) : Attention :=
      { a with causes := a.causes ||| cause ||| if x.arrival.level = .occupied then 1#10 else 0#10 }
    ∃ t : State, exec (.passCleared l) s = .next t ∧ t.lane l = closed ∧
      (x.arrival.level = .occupied → t.attention.causes.getLsbD 0 = true) ∧
      (∀ h c, l.val < 4 → x.served = some h → s.car h = some c →
        t.entry h = { car := some { c with state := .present }, touched := true } ∧
        t.attention.causes.getLsbD 8 = true ∧
        t.tally (.field c.field .carsAdmitted) = min 65535 (s.tally (.field c.field .carsAdmitted) + 1) ∧
        t.tally (.field c.field .personsAdmitted) = min 65535 (s.tally (.field c.field .personsAdmitted) + c.party) ∧
        (∀ k, k ≠ .field c.field .carsAdmitted → k ≠ .field c.field .personsAdmitted → t.tally k = s.tally k) ∧
        (∀ h', h' ≠ h → t.entry h' = s.entry h') ∧
        t.lanes = put s.lanes l closed ∧ t.attention = raised s.attention 0x100#10 ∧
        t = { s with entries := t.entries, lanes := t.lanes, tallies := t.tallies, attention := t.attention }) ∧
      (∀ h c, 4 ≤ l.val → x.served = some h → s.car h = some c →
        t.car h = none ∧ (t.entry h).touched = true ∧ t.attention.causes.getLsbD 8 = true ∧
        (t.unit c.field).at c.stall = none ∧
        t.tally (.field c.field .departed) = min 65535 (s.tally (.field c.field .departed) + 1) ∧
        ((∀ n m, c.lent = some (n, m) → (s.slot n).car = some h) →
          CarRetired s t h c ∧
          (∀ k, k ≠ .field c.field .departed → k ≠ .sets .lost → (∀ j, k ≠ .kitchen j) → t.tally k = s.tally k) ∧
          (∀ l', l' ≠ l → t.lane l' = freed l' h) ∧
          t.attention = raised (s.ordersLoseCar c.orders).attention 0x100#10)) ∧
      (x.served = none →
        t = { s with
          lanes := put s.lanes l closed
          tallies :=
            if h : 4 ≤ l.val then
              put s.tallies (Tally.unidentifiedExits ⟨l.val - 4, by omega⟩).index
                (min 65535 (s.tally (.unidentifiedExits ⟨l.val - 4, by omega⟩) + 1))
            else s.tallies
          attention :=
            if x.arrival.level = .occupied then { s.attention with causes := s.attention.causes ||| 1#10 }
            else s.attention })

/-- A pass timer runs out in an OPEN lane: with the pass loop OCCUPIED the pass begins and the lane stays open; with it CLEAR
the no-pass is counted and the lane closes, an entry lane's car withdrawn and counted (R52), an exit lane's car PRESENT again
and touched (R56), no car touched where none is served (R57, R58). TOUCHED is raised with a car that is touched (R41) and
LANE with a lane that waits (R47); the other lanes and tallies and the rest of attention stay. A withdrawal leaves other
entries, lanes and fields as they were (R38). A row whose lane runs no timer changes nothing: the model's choice (log entry
8). -/
def Obligations.PassTimersRunOut : Prop :=
  ∀ (s : State) (l : LaneNo) (i : Instr),
    (∃ n : Fin 4, i = .entryPassTimerExpiry n ∧ l = entryLane n) ∨
      (∃ n : Fin 2, i = .exitPassTimerExpiry n ∧ l = exitLane n) →
    let x := s.lane l
    let closed : Lane := { x with
      state := if x.arrival.level = .occupied then .waiting else .idle
      barrier := false, timer := none, served := none, begun := false }
    let count (k : Tally) : Nat := min 65535 (s.tally k + 1)
    let raised (a : Attention) (cause : BitVec 10) : Attention :=
      { a with causes := a.causes ||| cause ||| if x.arrival.level = .occupied then 1#10 else 0#10 }
    let shut : State := { s with
      lanes := put s.lanes l closed, tallies := put s.tallies (Tally.lane l .noPass).index (count (.lane l .noPass)) }
    (x.state ≠ .opened ∨ x.timer = none → exec i s = .next s) ∧
    (x.state = .opened → x.timer ≠ none → x.pass.level = .occupied →
      exec i s = .next { s with lanes := put s.lanes l { x with timer := none, begun := true } }) ∧
    (x.state = .opened → x.timer ≠ none → x.pass.level = .clear →
      ∃ t : State, exec i s = .next t ∧ t.lane l = closed ∧
        t.tally (.lane l .noPass) = count (.lane l .noPass) ∧
        (x.arrival.level = .occupied → t.attention.causes.getLsbD 0 = true) ∧
        (∀ h c, l.val < 4 → x.served = some h → s.car h = some c →
          t.car h = none ∧ (t.entry h).touched = true ∧ t.attention.causes.getLsbD 8 = true ∧
          (t.unit c.field).at c.stall = none ∧
          t.tally (.field c.field .withdrawn) = count (.field c.field .withdrawn) ∧
          ((∀ n m, c.lent = some (n, m) → (s.slot n).car = some h) →
            CarRetired s t h c ∧ t.attention = raised (s.ordersLoseCar c.orders).attention 0x100#10 ∧
            (∀ k, k ≠ .field c.field .withdrawn → k ≠ .lane l .noPass → k ≠ .sets .lost → (∀ j, k ≠ .kitchen j) →
              t.tally k = s.tally k) ∧
            ∀ l', l' ≠ l → t.lane l' =
              { s.lane l' with served := if (s.lane l').served = some h then none else (s.lane l').served })) ∧
        (∀ h c, 4 ≤ l.val → x.served = some h → s.car h = some c →
          t = { shut with
            entries := put s.entries h { car := some { c with state := .present }, touched := true }
            attention := raised s.attention 0x100#10 }) ∧
        (x.served = none → t = { shut with attention := raised s.attention 0#10 }))

/-- ADMIT, its checks passed, in one step: the lowest-numbered VACANT entry made ARRIVING in the stall that the field unit
gives, with the next admission serial; the stall taken and the full sign evaluated; the lane OPEN, its barrier RAISED
and its pass timer started. The touched flag of the slot and every other record stand (R22, R23, R48, R49). -/
def Obligations.AdmitMakesTheEntryAndOpensTheLane : Prop :=
  ∀ (s : State) (l : Fin 4) (f : FieldNo) (cls : StallClass) (ticket party : Nat) (codes : List Nat)
    (plate : List PlatePos) (named : Option Stall) (h : CarHandle) (st : Stall), PortFree s →
    let i := Instr.admitCar l f (classCode cls) party ticket codes (named.map fun n => (n.row, n.post))
    let x := s.lane (entryLane l)
    1 ≤ ticket → ticket ≤ 4294967295 → plateOf codes = some plate → 1 ≤ party → party ≤ 15 →
    x.state = .waiting →
    ((s.program f).state = .opened ∨ (s.program f).state = .running ∨ (s.program f).state = .paused .host ∨
      (s.program f).state = .paused .stall) →
    (s.program f).pastCutoff = false →
    (∀ h' c, s.car h' = some c → c.ticket ≠ ticket) →
    s.car h = none → (∀ h', h' < h → s.car h' ≠ none) →
    (s.unit f).choose cls named = .ok st →
    let serial := min 65535 (s.serialCounter + 1)
    exec i s = .next
      (({ s.atWork i with
          entries := put s.entries h
            { s.entry h with
              car := some
                { state := .arriving, field := f, stall := st, cls := cls, ticket := ticket
                  plate := if plate.all (· == .unread) then none else some plate
                  party := party, lane := l.val, serial := serial, lent := none, orders := [], held := false } }
          serialCounter := serial
          fieldUnits := put s.fieldUnits f ((s.unit f).setStall st (some h)).evaluateSign
          lanes := put s.lanes (entryLane l)
            { x with
              state := .opened, served := some h, begun := false, barrier := true
              timer := some (x.passTime * 1000) } } : State).answered .ok (be2 h.val ++ [st.row, st.post]))

/-- ADMIT is refused with the code of its first check that fails: the lane is not WAITING (STATE), the field is ENDED
(SHOW_OVER) or DARK (STATE), past its cutoff (CUTOFF), the ticket is carried by a live entry (DUPLICATE), no entry is
VACANT (FULL), the field unit gives no stall (NO_STALL, BAD_STALL) (R48). REFUSE closes and LET OUT opens a lane that
waits, and each is refused with STATE otherwise (R50, R57). DEPART opens a waiting exit lane for a PRESENT car that is
not held and has no LENT set: the car LEAVING without a set, an issue for it cancelled by charge, the lane bound, its
barrier RAISED and its timer started (R54, R120, R128); it is refused with STATE for a VACANT entry. An argument out of its
range refuses each with BAD_ARG (R48, R50, R54, R57, R187). -/
def Obligations.LanesOpenForTheWaitingAlone : Prop :=
  (∀ (s : State) (lane field cls party ticket car : Nat) (codes : List Nat) (named : Option (Nat × Nat)), PortFree s →
    let exitLane := lane = 4 ∨ lane = 5
    (4 ≤ lane ∨ 4 ≤ field ∨ 2 < cls ∨ party = 0 ∨ 15 < party ∨ ticket = 0 ∨ 4294967295 < ticket ∨
        codes.length ≠ 8 ∨ (∃ code ∈ codes, 38 < code) ∨
        (∃ row post, named = some (row, post) ∧ (row = 0 ∨ 16 < row ∨ post = 0 ∨ 32 < post)) →
      Denied (.admitCar lane field cls party ticket codes named) s .badArg) ∧
    (4 ≤ lane → Denied (.refuse lane) s .badArg) ∧
    (¬ exitLane → Denied (.letOut lane) s .badArg) ∧
    (¬ exitLane ∨ 1024 ≤ car → Denied (.depart lane car) s .badArg) ∧
    ∀ h : CarHandle, h.val = car → exitLane → s.car h = none → Denied (.depart lane car) s .state) ∧
  (∀ (s : State) (f : FieldNo) (l : Fin 4) (e : Fin 2), PortFree s →
    (∀ (q : AdmitRequest) (codes : List Nat), plateOf codes = some q.plate → 1 ≤ q.ticket → q.ticket ≤ 4294967295 →
      1 ≤ q.party → q.party ≤ 15 → q.lane = l → q.field = f →
      let i := Instr.admitCar l f (classCode q.cls) q.party q.ticket codes (q.named.map fun n => (n.row, n.post))
      let p := s.program f
      (∀ code,
        (if (s.lane (entryLane l)).state ≠ .waiting then some .state
         else if p.state = .ended then some .showOver
         else if p.state = .dark then some .state
         else if p.pastCutoff = true then some .cutoff
         else if ∃ h, ((s.car h).map Car.ticket) = some q.ticket then some .duplicate
         else if ∀ h, s.car h ≠ none then some .full
         else match (s.unit f).choose q.cls q.named with
          | .ok _ => none
          | .error code => some code) = some code → Denied i s code)) ∧
    (let x := s.lane (entryLane l)
     (x.state ≠ .waiting → Denied (.refuse l) s .state) ∧
     (x.state = .waiting →
      exec (.refuse l) s = .next
        (({ s.atWork (.refuse l) with
            lanes := put s.lanes (entryLane l) { x with state := .refused } } : State).answered .ok []))) ∧
    (let x := s.lane (exitLane e)
     let i := Instr.letOut (4 + e)
     (x.state ≠ .waiting → Denied i s .state) ∧
     (x.state = .waiting →
      exec i s = .next
        (({ s.atWork i with
            lanes := put s.lanes (exitLane e)
              { x with
                state := .opened, served := none, begun := false, barrier := true
                timer := some (x.passTime * 1000) } } : State).answered .ok [])))) ∧
  ∀ (s : State) (e : Fin 2) (h : CarHandle) (c : Car), PortFree s →
    let i := Instr.depart (4 + e) h
    let x := s.lane (exitLane e)
    s.car h = some c →
    (x.state ≠ .waiting → Denied i s .state) ∧
    (x.state = .waiting → c.state ≠ .present → Denied i s .state) ∧
    (x.state = .waiting → c.state = .present → c.held = true → Denied i s .editing) ∧
    (x.state = .waiting → c.state = .present → c.held = false → (∃ n, c.lent = some (n, .lent)) →
      Denied i s .setOut) ∧
    (x.state = .waiting → c.state = .present → c.held = false →
      let opened := { s.atWork i with
        entries := put s.entries h { s.entry h with car := some { c with state := .leaving, lent := none } }
        lanes := put s.lanes (exitLane e)
          { x with
            state := .opened, served := some h, begun := false, barrier := true
            timer := some (x.passTime * 1000) } }
      (c.lent = none → exec i s = .next (opened.answered .ok [c.orders.length, 0])) ∧
      (∀ n, c.lent = some (n, .issuing) → (s.slot n).car = some h →
        exec i s = .next
          (({ opened with
              sets := put s.sets n
                { s.slot n with
                  state := if s.readyLevel ≤ (s.slot n).charge then .ready else .charging
                  car := none, timer := none } } : State).answered .ok [c.orders.length, 1])))

/-! ### The lot register (R20 to R43) -/

/-- HOLD ENTRY, AMEND ENTRY and RELEASE ENTRY: the held flag, the flagged items of a held entry, the entry in the reply
(R30, R35, R36). AMEND refuses a class that does not fit the stall with BAD_STALL, and nothing is then written. A VACANT
entry is refused with STATE, a handle out of its range with BAD_ARG, and by AMEND an undefined flag and a flagged item out of
its range too. -/
def Obligations.HeldEntriesAreEdited : Prop :=
  (∀ (s : State) (car : Nat), PortFree s →
    let vacant := ∀ h : CarHandle, h.val = car → s.car h = none
    (1024 ≤ car → Denied (.holdEntry car) s .badArg ∧ Denied (.releaseEntry car) s .badArg) ∧
    (car < 1024 → vacant → Denied (.holdEntry car) s .state ∧ Denied (.releaseEntry car) s .state) ∧
    ∀ (flags : Nat) (codes : List Nat) (cls party : Nat),
      let i := Instr.amendEntry car flags codes cls party
      let outOfRange := 8 ≤ flags ∨
        (flags.testBit 0 = true ∧ (codes.length ≠ 8 ∨ ∃ code ∈ codes, 38 < code)) ∨
        (flags.testBit 1 = true ∧ 2 < cls) ∨ (flags.testBit 2 = true ∧ (party = 0 ∨ 15 < party))
      (1024 ≤ car ∨ outOfRange → Denied i s .badArg) ∧
      (car < 1024 → vacant → ¬ outOfRange → Denied i s .state)) ∧
  ∀ (s : State) (h : CarHandle) (c : Car), PortFree s → s.car h = some c →
    let written (i : Instr) (c' : Car) : State :=
      { s.atWork i with entries := put s.entries h { s.entry h with car := some c' } }
    (let i := Instr.holdEntry h
     let t := written i { c with held := true }
     (c.state ≠ .present → Denied i s .state) ∧
     (c.state = .present → c.held = true → Denied i s .editing) ∧
     (c.state = .present → c.held = false → exec i s = .next (t.answered .ok (t.entryRecord h)))) ∧
    (let i := Instr.releaseEntry h
     (c.held = false → Denied i s .state) ∧
     (c.held = true → exec i s = .next ((written i { c with held := false }).answered .ok []))) ∧
    (∀ (flags : Nat) (codes : List Nat) (cls party : Nat) (plate : List PlatePos) (k : StallClass),
      let i := Instr.amendEntry h flags codes cls party
      flags < 8 → (flags.testBit 0 = true → plateOf codes = some plate) →
      (flags.testBit 1 = true → classOf cls = some k) → (flags.testBit 2 = true → 1 ≤ party ∧ party ≤ 15) →
      let t := written i { c with
        plate := if flags.testBit 0 then (if plate.all (· == .unread) then none else some plate) else c.plate
        cls := if flags.testBit 1 then k else c.cls
        party := if flags.testBit 2 then party else c.party }
      (c.held = false → Denied i s .state) ∧
      (c.held = true → flags.testBit 1 = true → (s.unit c.field).fits k c.stall = false → Denied i s .badStall) ∧
      (c.held = true → (flags.testBit 1 = true → (s.unit c.field).fits k c.stall = true) →
        exec i s = .next (t.answered .ok (t.entryRecord h))))

/-- MOVE ENTRY gives a held car the stall its field unit chooses, in its own field in any state (R33), or in another that
admits, when the car has no set and no orders (R34): the new stall written, the old one freed, the entry's place rewritten,
both full signs evaluated, nothing else changed. A request without a stall leaves the car where it is. A car with a set or
orders is refused another field with CROSS_FIELD, then one that does not admit refuses it with STATE, and one past its cutoff
with CUTOFF (R34). A VACANT entry is refused with STATE, an argument out of its range with BAD_ARG (R32, R187). -/
def Obligations.MoveEntryChangesTheStall : Prop :=
  (∀ (s : State) (car target row post : Nat), PortFree s →
    let i := Instr.moveEntry car target row post
    let outOfRange := 1024 ≤ car ∨ (4 ≤ target ∧ target ≠ 0xFF) ∨ (row ≠ 0 ∧ (16 < row ∨ post = 0 ∨ 32 < post))
    (outOfRange → Denied i s .badArg) ∧
    (¬ outOfRange → ∀ h : CarHandle, h.val = car → s.car h = none → Denied i s .state)) ∧
  ∀ (s : State) (h : CarHandle) (c : Car) (target : Nat) (f : FieldNo) (named : Option Stall), PortFree s →
    s.car h = some c → (target = f.val ∨ (target = 0xFF ∧ f = c.field)) →
    let i := match named with
      | none => Instr.moveEntry h target 0 0
      | some st => Instr.moveEntry h target st.row st.post
    (c.held = false → Denied i s .state) ∧
    (c.held = true → f ≠ c.field → c.lent ≠ none ∨ c.orders ≠ [] → Denied i s .crossField) ∧
    (c.held = true → f ≠ c.field → c.lent = none → c.orders = [] →
      ((s.program f).state = .dark ∨ (s.program f).state = .ended → Denied i s .state) ∧
      ((s.program f).state ≠ .dark → (s.program f).state ≠ .ended → (s.program f).pastCutoff = true →
        Denied i s .cutoff)) ∧
    (c.held = true →
      (f ≠ c.field → c.lent = none ∧ c.orders = [] ∧ (s.program f).pastCutoff = false ∧
        (s.program f).state ≠ .dark ∧ (s.program f).state ≠ .ended) →
      (∀ code, (s.unit f).choose c.cls named = .error code → Denied i s code) ∧
      (∀ st, (s.unit f).choose c.cls named = .ok st →
        ∃ t : State, exec i s = .next (t.answered .ok [f.val, st.row, st.post]) ∧
          t = { s.atWork i with
            entries := put s.entries h { s.entry h with car := some { c with field := f, stall := st } }
            fieldUnits := t.fieldUnits } ∧
          (f = c.field →
            t.unit f = (((s.unit f).setStall st (some h)).setStall c.stall none).evaluateSign) ∧
          (f ≠ c.field →
            t.unit f = ((s.unit f).setStall st (some h)).evaluateSign ∧
            t.unit c.field = ((s.unit c.field).setStall c.stall none).evaluateSign) ∧
          ∀ g, g ≠ f → g ≠ c.field → t.unit g = s.unit g))

/-- RETIRE ENTRY ends a PRESENT entry that is not held; a set out needs force, and a LENT one becomes LOST and is counted, an
ISSUING one has its issue cancelled. The entry is VACANT and not marked touched, its stall free, no order names its car, no
lane serves it, and no other entry changes (R37, R38, R39, R128, R170). A VACANT entry is refused with STATE, a handle or a
force out of its range with BAD_ARG (log entry 9). The order book is told of each of the car's orders in list order: an
ON_TRIP order and one with cancel pending lose the car alone; a PARKED, QUEUED or READY one is cancelled and counted, a READY
one with its waste; a PREPARING one is pending while a line of it is on the stove, and settles at once with its waste and an
ORDER note when none is; each of these is `State.cancelAtStage` without a car to touch, with the release pass that follows a
fall in a backlog (R140, R149, R151, R167 to R170). That a READY order with cancel pending stays too, where R166 has it
settled by the retirement, is the model's reading (log entry 26). -/
def Obligations.RetireEntryEndsTheCar : Prop :=
  (∀ (s : State) (o : OrderHandle) (os : List OrderHandle),
    s.ordersLoseCar [] = s ∧ s.ordersLoseCar (o :: os) = (s.orderLosesCar o).ordersLoseCar os) ∧
  (∀ (s : State) (o : OrderHandle),
    let t := s.orderLosesCar o
    (s.order o = none → t = s) ∧
    ∀ ord, s.order o = some ord →
      let without := { ord with car := none }
      let isWaiting (k : Nat) : Prop := ord.lines[k]?.map OrderLine.state = some .waiting
      let onStove := ∃ n k, (o, k) ∈ (s.station n).queue ∧ ¬ isWaiting k
      let cancelled (waste : Nat) : Prop :=
        t.order o = none ∧ (∀ n k, (o, k) ∉ (t.station n).queue) ∧
        t.tally (.kitchen .cancelled) = min 65535 (s.tally (.kitchen .cancelled) + 1) ∧
        t.tally (.kitchen .wasteLines) = min 65535 (s.tally (.kitchen .wasteLines) + waste)
      let frame := t = { s with
        tallies := t.tallies, orders := t.orders, parked := t.parked, stations := t.stations, hold := t.hold
        trips := t.trips, readyList := t.readyList, attention := t.attention }
      (ord.stage = .onTrip ∨ ord.cancelPending = true → t = { s with orders := put s.orders o (some without) }) ∧
      (ord.stage ≠ .onTrip → ord.cancelPending = false →
        t = State.cancelAtStage { s with orders := put s.orders o (some without) } o without) ∧
      (ord.cancelPending = false → ord.stage = .parked ∨ ord.stage = .queued ∨ ord.stage = .ready →
        s.tally (.kitchen .wasteLines) ≤ 65535 →
        frame ∧ cancelled (if ord.stage = .ready then (ord.lines.map OrderLine.quantity).sum else 0) ∧
          t.attention.notes = s.attention.notes) ∧
      (ord.cancelPending = false → ord.stage = .preparing → onStove → o ∉ s.parked →
        frame ∧ t.order o = some { without with cancelPending := true, timer := none } ∧
          (∀ n k, (o, k) ∈ (t.station n).queue ↔ (o, k) ∈ (s.station n).queue ∧ ¬ isWaiting k) ∧
          t.tally (.kitchen .cancelled) = s.tally (.kitchen .cancelled) ∧ t.attention.notes = s.attention.notes) ∧
      (ord.cancelPending = false → ord.stage = .preparing → ¬ onStove →
        frame ∧ cancelled ((ord.lines.filter fun l => l.state == .finished).map OrderLine.quantity).sum ∧
          t.attention.causes.getLsbD 6 = true ∧
          (s.attention.notes.length < 8 → t.attention.notes = s.attention.notes ++ [(o, .cancelSettled)]))) ∧
  (∀ (s : State) (car force : Nat), PortFree s →
    (1024 ≤ car ∨ 1 < force → Denied (.retireEntry car force) s .badArg) ∧
    ∀ h : CarHandle, h.val = car → s.car h = none → force ≤ 1 → Denied (.retireEntry car force) s .state) ∧
  ∀ (s : State) (h : CarHandle) (c : Car) (force : Nat), PortFree s → s.car h = some c → force ≤ 1 →
    let i := Instr.retireEntry h force
    (c.state ≠ .present → Denied i s .state) ∧
    (c.state = .present → c.held = true → Denied i s .editing) ∧
    (c.state = .present → c.held = false → force = 0 → c.lent ≠ none → Denied i s .setOut) ∧
    (c.state = .present → c.held = false → force = 1 ∨ c.lent = none →
      (∀ n m, c.lent = some (n, m) → (s.slot n).car = some h) →
      ∃ t : State,
        exec i s = .next (t.answered .ok [c.orders.length, match c.lent with
          | none => 0
          | some (_, .lent) => 1
          | some (_, .issuing) => 2]) ∧
        CarRetired (s.atWork i) t h c ∧
        t.entry h = { car := none, touched := (s.entry h).touched } ∧
        (∀ l, t.lane l =
          { s.lane l with served := if (s.lane l).served = some h then none else (s.lane l).served }) ∧
        (∀ k, k ≠ .sets .lost → (∀ j, k ≠ .kitchen j) → t.tally k = s.tally k) ∧
        t.attention = ((s.atWork i).ordersLoseCar c.orders).attention ∧
        t = { s.atWork i with
          entries := t.entries, fieldUnits := t.fieldUnits, sets := t.sets, lanes := t.lanes, tallies := t.tallies
          orders := t.orders, parked := t.parked, stations := t.stations, hold := t.hold, trips := t.trips
          readyList := t.readyList, attention := t.attention })

/-- R42: READ TOUCHED reports the lowest-numbered touched handles, 32 at most, in ascending order, clears their flags
alone, and says whether touched handles remain. -/
def Obligations.ReadTouchedReportsAndClears : Prop :=
  ∀ s : State, PortFree s →
    let i := Instr.readTouched
    ∃ (reported : List CarHandle) (t : State),
      reported.Pairwise (· < ·) ∧ reported.length ≤ 32 ∧
      (∀ h ∈ reported, (s.entry h).touched = true) ∧
      (∀ h, (s.entry h).touched = true → h ∉ reported → reported.length = 32 ∧ ∀ h' ∈ reported, h' < h) ∧
      exec i s = .next (t.answered .ok
        ([reported.length, if ∃ h, (s.entry h).touched = true ∧ h ∉ reported then 1 else 0] ++
          reported.flatMap fun h => be2 h.val)) ∧
      t = { s.atWork i with entries := t.entries } ∧
      ∀ h, t.entry h = { s.entry h with touched := (s.entry h).touched && !reported.contains h }

/-- The stall law and the class law are kept at every step: every live entry occupies exactly one stall, in its own
field's map, which names it, and which its class fits; no stall names a VACANT entry or two entries (R7, R8). So are the
laws of the gate: a lane that is not OPEN serves no entry, its timer is stopped, its barrier DOWN, no pass begun, and it is
IDLE exactly while its arrival loop is CLEAR (R44, R47); ARRIVING and LEAVING entries are those that lanes serve (R38, R58);
tickets of live entries differ (R20). -/
def Obligations.StallLawIsKept : Prop :=
  ∀ s t : State, step s = .next t → (StallLaw s → StallLaw t) ∧ (GateLaw s → GateLaw t)

/-! ### Receiver sets (R112 to R130) -/

/-- R116: ENROL SET makes its checks in order, and puts the serial into the lowest-numbered UNENROLLED slot, ABSENT with
charge 0, no bay, no car and no channel. -/
def Obligations.EnrolSetTakesTheLowestFreeSlot : Prop :=
  ∀ (s : State) (serial : Nat), PortFree s →
    let i := Instr.enrolSet serial
    let held := ∃ n, (s.slot n).state ≠ .unenrolled ∧ (s.slot n).serial = serial
    (serial = 0 → Denied i s .badArg) ∧
    (serial ≠ 0 → held → Denied i s .duplicate) ∧
    (serial ≠ 0 → ¬ held → (∀ n, (s.slot n).state ≠ .unenrolled) → Denied i s .full) ∧
    (∀ n, serial ≠ 0 → ¬ held → (s.slot n).state = .unenrolled → (∀ m, m < n → (s.slot m).state ≠ .unenrolled) →
      exec i s = .next
        (({ s.atWork i with
            sets := put s.sets n
              { state := .absent, serial := serial, bay := none, charge := 0, car := none, channel := none
                timer := none } } : State).answered .ok [n.val]))

/-- REMOVE SET clears the slot and its bay, but for a set ISSUING or LENT (R117). LEND SET gives a PRESENT car that is not
held and has no set the READY set of the highest charge, and of these the lowest handle: ISSUING with the field's
channel and a running timer; it is refused with ISSUE_LIMIT while four are ISSUING and with NO_SET when none is READY
(R118, R119), and with STATE for a VACANT entry. A handle out of its range refuses either with BAD_ARG. -/
def Obligations.SetsAreRemovedAndLent : Prop :=
  ∀ s : State, PortFree s →
    (∀ slot car : Nat,
      (128 ≤ slot → Denied (.removeSet slot) s .badArg) ∧
      (1024 ≤ car → Denied (.lendSet car) s .badArg) ∧
      ∀ h : CarHandle, h.val = car → s.car h = none → Denied (.lendSet car) s .state) ∧
    (∀ n : SetHandle,
      let i := Instr.removeSet n
      let x := s.slot n
      (x.state = .unenrolled → Denied i s .notFound) ∧
      (x.state = .issuing ∨ x.state = .lent → Denied i s .state) ∧
      (x.state ≠ .unenrolled → x.state ≠ .issuing → x.state ≠ .lent →
        exec i s = .next
          (({ s.atWork i with
              bays := match x.bay with
                | none => s.bays
                | some b => put s.bays b none
              sets := put s.sets n {} } : State).answered .ok []))) ∧
    (∀ (h : CarHandle) (c : Car),
      let i := Instr.lendSet h
      let issuing := countOf fun n => (s.slot n).state == .issuing
      s.car h = some c →
      (c.state ≠ .present → Denied i s .state) ∧
      (c.state = .present → c.held = true → Denied i s .editing) ∧
      (c.state = .present → c.held = false → c.lent ≠ none → Denied i s .setOut) ∧
      (c.state = .present → c.held = false → c.lent = none → (s.program c.field).state = .ended →
        Denied i s .showOver) ∧
      (c.state = .present → c.held = false → c.lent = none → (s.program c.field).state ≠ .ended →
        (4 ≤ issuing → Denied i s .issueLimit) ∧
        (issuing < 4 → (∀ n, (s.slot n).state ≠ .ready) → Denied i s .noSet) ∧
        (∀ n, issuing < 4 → (s.slot n).state = .ready →
          (∀ m, (s.slot m).state = .ready →
            (s.slot m).charge < (s.slot n).charge ∨ ((s.slot m).charge = (s.slot n).charge ∧ n ≤ m)) →
          exec i s = .next
            (({ s.atWork i with
                sets := put s.sets n
                  { s.slot n with
                    state := .issuing, car := some h, channel := (s.unit c.field).channel
                    timer := some (s.issueTime * 1000) }
                entries := put s.entries h
                  { s.entry h with car := some { c with lent := some (n, .issuing) } } } : State).answered .ok
              [n.val, ((s.slot n).bay.map Fin.val).getD 0xFF, (s.unit c.field).channel.getD 0xFF, s.issueTime]))))

/-- DOCK IN, in a state whose slots, bays and cars agree: a foreign serial raises SET alone; a known set stands in the
reported bay with the reported charge, by charge or FAULTY, its car cleared and touched, a return counted; its old bay is
empty, and a set found in the bay is ABSENT, or FAULTY, without one (R120, R122, R123). DOCK OUT completes a lend, or is
an unlawful removal, or lifts a FAULTY set; the bay is empty afterwards, and an empty bay is answered NOT_FOUND (R125). A
bay, a serial or a charge out of its range is refused with BAD_ARG (R122, R187). -/
def Obligations.SetsAreDockedAndLifted : Prop :=
  (∀ (s : State) (bay serial level : Nat), PortFree s →
    (128 ≤ bay ∨ serial = 0 ∨ 100 < level → Denied (.dockIn bay serial level) s .badArg) ∧
    (128 ≤ bay → Denied (.dockOut bay) s .badArg)) ∧
  (∀ (s : State) (b : BayNo) (serial level : Nat), PortFree s → SetLaw s → serial ≠ 0 → level ≤ 100 →
    let i := Instr.dockIn b serial level
    let a := (s.atWork i).attention
    ((∀ n, (s.slot n).state ≠ .unenrolled → (s.slot n).serial ≠ serial) →
      exec i s = .next
        (({ s.atWork i with
            attention := { a with causes := a.causes ||| 0x10#10, setKinds := a.setKinds ||| 4#3 } } : State).answered
          .unknownSet [])) ∧
    (∀ n, (s.slot n).state ≠ .unenrolled → (s.slot n).serial = serial →
      let x := s.slot n
      let other : Option SetHandle := if s.bay b = some n then none else s.bay b
      let carOf (m : Option SetHandle) : Option CarHandle := m.bind fun m => (s.slot m).car
      let docked : SetState := if s.readyLevel ≤ level then .ready else .charging
      let outcome : Nat := match x.state with
        | .absent | .unenrolled => 0
        | .charging | .ready => if x.bay = some b then 0 else 1
        | .issuing => 2
        | .lent => 3
        | .lost => 4
        | .faulty => 5
      ∃ t : State,
        exec i s = .next (t.answered .ok
          [n.val, outcome, setStateCode (t.slot n).state, (other.map Fin.val).getD 0xFF]) ∧
        t.slot n =
          { x with
            state := if x.state = .faulty then .faulty else docked
            bay := some b, charge := level, car := none, timer := none } ∧
        (∀ m, other = some m → t.slot m =
          { s.slot m with
            state := if (s.slot m).state = .faulty then .faulty else .absent
            bay := none, car := none, timer := none }) ∧
        (∀ m, m ≠ n → other ≠ some m → t.slot m = s.slot m) ∧
        (∀ b', t.bay b' = if b' = b then some n else if x.bay = some b' then none else s.bay b') ∧
        (∀ h, t.entry h =
          if x.car = some h ∨ carOf other = some h then
            { car := (s.car h).map fun c => { c with lent := none }, touched := true }
          else s.entry h) ∧
        t = { s.atWork i with
          sets := t.sets, bays := t.bays, entries := t.entries
          tallies :=
            if x.state = .lent then
              put s.tallies (Tally.sets .returns).index (min 65535 (s.tally (.sets .returns) + 1))
            else s.tallies
          attention :=
            if x.car = none ∧ carOf other = none then a else { a with causes := a.causes ||| 0x100#10 } })) ∧
  ∀ (s : State) (b : BayNo), PortFree s →
    let i := Instr.dockOut b
    let a := (s.atWork i).attention
    (s.bay b = none → Denied i s .notFound) ∧
    ∀ n, s.bay b = some n →
      let x := s.slot n
      let lifted (y : SetSlot) : State :=
        { s.atWork i with bays := put s.bays b none, sets := put s.sets n { y with bay := none } }
      (∀ h c, x.state = .issuing → x.car = some h → s.car h = some c →
        exec i s = .next
          (({ lifted { x with state := .lent, timer := none } with
              entries := put s.entries h { car := some { c with lent := some (n, .lent) }, touched := true }
              tallies := put s.tallies (Tally.sets .lends).index (min 65535 (s.tally (.sets .lends) + 1))
              attention := { a with causes := a.causes ||| 0x100#10 } } : State).answered .ok
            ([n.val, 0] ++ be2 h.val))) ∧
      (x.state = .ready ∨ x.state = .charging →
        exec i s = .next
          (({ lifted { x with state := .absent } with
              tallies := put s.tallies (Tally.sets .unlawfulRemovals).index
                (min 65535 (s.tally (.sets .unlawfulRemovals) + 1))
              attention := { a with causes := a.causes ||| 0x10#10, setKinds := a.setKinds ||| 2#3 } } : State).answered
            .ok [n.val, 1, 0xFF, 0xFF])) ∧
      (x.state = .faulty → exec i s = .next ((lifted x).answered .ok [n.val, 2, 0xFF, 0xFF]))

/-- R124: CHARGE writes the reading of the set in a bay; a CHARGING set becomes READY at the ready level, a READY one
CHARGING only below the ready level less ten, an ISSUING or FAULTY one stays. R126: SET FAULT makes the set FAULTY in its
bay, an issue of it cancelled and its car touched. R127: SERVICE SET returns a FAULTY set by its charge where it is
docked, else ABSENT. -/
def Obligations.ChargeFaultAndService : Prop :=
  ∀ s : State, PortFree s →
    (∀ (bay level : Nat),
      let i := Instr.charge bay level
      (128 ≤ bay ∨ 100 < level → Denied i s .badArg) ∧
      (∀ b : BayNo, b.val = bay → level ≤ 100 →
        (s.bay b = none → Denied i s .notFound) ∧
        ∀ n, s.bay b = some n →
          let x := s.slot n
          let st : SetState := match x.state with
            | .charging => if s.readyLevel ≤ level then .ready else .charging
            | .ready => if level + 10 < s.readyLevel then .charging else .ready
            | other => other
          exec i s = .next
            (({ s.atWork i with
                sets := put s.sets n { x with charge := level, state := st } } : State).answered .ok
              [n.val, level, setStateCode st]))) ∧
    (∀ bay : Nat,
      let i := Instr.setFault bay
      let a := (s.atWork i).attention
      (128 ≤ bay → Denied i s .badArg) ∧
      ∀ b : BayNo, b.val = bay →
        (s.bay b = none → Denied i s .notFound) ∧
        ∀ n, s.bay b = some n →
          let x := s.slot n
          (x.state ≠ .issuing →
            exec i s = .next
              (({ s.atWork i with
                  sets := put s.sets n { x with state := .faulty } } : State).answered .ok [n.val, 0])) ∧
          (∀ h c, x.state = .issuing → x.car = some h → s.car h = some c →
            exec i s = .next
              (({ s.atWork i with
                  sets := put s.sets n { x with state := .faulty, car := none, timer := none }
                  entries := put s.entries h { car := some { c with lent := none }, touched := true }
                  attention := { a with causes := a.causes ||| 0x100#10 } } : State).answered .ok [n.val, 1]))) ∧
    (∀ slot : Nat,
      let i := Instr.serviceSet slot
      (128 ≤ slot → Denied i s .badArg) ∧
      ∀ n : SetHandle, n.val = slot →
        let x := s.slot n
        (x.state ≠ .faulty → Denied i s .state) ∧
        (x.state = .faulty →
          let st : SetState :=
            if x.bay = none then .absent else if s.readyLevel ≤ x.charge then .ready else .charging
          exec i s = .next
            (({ s.atWork i with sets := put s.sets n { x with state := st } } : State).answered .ok
              [setStateCode st])))

/-- The laws of the set pool are kept at every step: bay map and slots agree (R113), each state holds the parts R112 gives
it, a car names a set as LENT or ISSUING exactly when the set is so with that car (R114), at most four sets are ISSUING
(R118), serials are unique (R112). -/
def Obligations.SetLawIsKept : Prop :=
  ∀ s t : State, SetLaw s → step s = .next t → SetLaw t

/-! ### Orders and stations (R131 to R154, R167 to R170) -/

/-- The due rule: NOW always; AT_INTERMISSION when the field is ENDED, or stands in an INTERMISSION segment, or no
INTERMISSION segment follows, or the frames left in the current segment and in the segments before the next INTERMISSION are
at most the program's lead (R137, R138); in ENDED wherever the position stands, past the last segment too. The due check of a
field marks its parked orders that the rule makes due, and runs a release pass if it has set a mark (R139, R140). -/
def Obligations.OrdersFallDueByTheRule : Prop :=
  (∀ (s : State) (f : FieldNo),
    let falls (ord : Order) : Prop :=
      ord.stage = .parked ∧ ord.due = false ∧ ord.field = f ∧ (s.program f).isDue ord.mode = true
    let some' := ∃ o ∈ s.parked, ∃ ord, s.order o = some ord ∧ falls ord
    (¬ some' → s.dueCheckField f = s) ∧
    (some' → ∃ marked : State, s.dueCheckField f = marked.releasePass ∧ marked = { s with orders := marked.orders } ∧
      ∀ o,
        (∀ ord, s.order o = some ord → o ∈ s.parked → falls ord →
          marked.order o = some { ord with due := true }) ∧
        ((∀ ord, s.order o = some ord → o ∈ s.parked → ¬ falls ord) → marked.order o = s.order o))) ∧
  (∀ p : ProgramUnit, p.isDue .now = true ∧ (p.state = .ended → p.isDue .atIntermission = true)) ∧
  ∀ (p : ProgramUnit) (seg : Segment),
    let segs := p.record.segments
    let lead := (p.program?.map Header.lead).getD 0
    segs[p.segment]? = some seg →
    (seg.kind = .intermission → p.isDue .atIntermission = true) ∧
    ((∀ n seg', p.segment < n → segs[n]? = some seg' → seg'.kind = .picture) → p.isDue .atIntermission = true) ∧
    (∀ n seg', p.segment < n → segs[n]? = some seg' → seg'.kind = .intermission →
      (∀ m seg'', p.segment < m → m < n → segs[m]? = some seg'' → seg''.kind = .picture) →
      p.state ≠ .ended → seg.kind = .picture →
      (p.isDue .atIntermission = true ↔
        seg.length - p.frame + (((segs.take n).drop (p.segment + 1)).map Segment.length).sum ≤ lead))

/-- PLACE ORDER is refused with the code of its first check that fails: handle, release mode, line count (BAD_ARG), an entry
that is not PRESENT (STATE), held (EDITING), in a field that is ENDED (SHOW_OVER), with four orders (ORDER_LIMIT), no free
slot (FULL), a line out of its ranges (BAD_ARG) (R134). Its checks passed: the lowest-numbered free slot takes the order,
PARKED and stamped; it joins the parked list and the car's list; it is counted; and it is due-checked. Due, it starts a
release pass, whatever stands in the parked list before it, and the reply names the stage in which the pass leaves it. Not
due, or due while the kitchen is in HOLD, it stays PARKED; due, with room in its queues and no older due order, it is
released at once, and HOLD evaluated (R134, R135, R139 to R142, R148). A release pass does nothing in HOLD; else it walks the
parked list from its oldest order, releases each due order whose lines find room behind those released before it, counts each
other due order a deferral, and ends at the release that brings HOLD on (R140, R141, R142). -/
def Obligations.PlaceOrderParksOrReleases : Prop :=
  (∀ s : State,
    (s.hold = true → s.releasePass = s) ∧
    (s.hold = false → s.parked.Nodup → (∀ o ∈ s.parked, s.order o ≠ none) →
      let linesOf (o : OrderHandle) (n : StationNo) : List (OrderHandle × Nat) :=
        ((((s.order o).map Order.lines).getD []).zipIdx.filter fun l => l.1.station == n).map fun l => (o, l.2)
      let isDue (o : OrderHandle) : Bool := ((s.order o).map Order.due).getD false
      let backlog (done : List OrderHandle) (n : StationNo) : Nat :=
        (s.station n).queue.length + (done.flatMap fun o => linesOf o n).length
      let fits (done : List OrderHandle) (o : OrderHandle) : Prop :=
        ∀ n, linesOf o n = [] ∨ backlog done n + (linesOf o n).length ≤ 255
      let full (done : List OrderHandle) : Prop := ∃ n, (s.station n).xoff ≤ backlog done n
      let t := s.releasePass
      ∃ walked left released : List OrderHandle, s.parked = walked ++ left ∧
        (∀ before o after, walked = before ++ o :: after →
          (o ∈ released ↔ isDue o = true ∧ fits (released.filter (before.contains ·)) o)) ∧
        released.Sublist walked ∧
        (∀ done o more, released = done ++ o :: more → (full (done ++ [o]) ↔ more = [] ∧ t.hold = true)) ∧
        (t.hold = false → left = []) ∧
        (t.hold = true → ∃ done o, walked = done ++ [o] ∧ o ∈ released) ∧
        t.parked = s.parked.filter (fun o => !released.contains o) ∧
        (∀ n, t.station n =
          { s.station n with queue := (s.station n).queue ++ released.flatMap fun o => linesOf o n }) ∧
        (∀ o ∈ released, t.order o = (s.order o).map fun ord =>
          { ord with stage := .queued, due := false, timer := some (s.prepLimit * 60000) }) ∧
        (∀ o, o ∉ released → t.order o = s.order o) ∧
        (s.tally (.kitchen .stationDeferrals) ≤ 65535 →
          t.tally (.kitchen .stationDeferrals) = min 65535 (s.tally (.kitchen .stationDeferrals) +
            (walked.filter fun o => isDue o && !released.contains o).length)) ∧
        (∀ k, k ≠ .kitchen .stationDeferrals → t.tally k = s.tally k) ∧
        t = { s with
          orders := t.orders, parked := t.parked, stations := t.stations, tallies := t.tallies, hold := t.hold
          attention :=
            if t.hold = true then { s.attention with causes := s.attention.causes ||| 0x80#10 }
            else s.attention })) ∧
  (∀ (s : State) (car mode count : Nat) (lines : List LineArg), PortFree s →
    let i := Instr.placeOrder car mode count lines
    (1024 ≤ car ∨ 1 < mode ∨ count = 0 ∨ 6 < count ∨ count ≠ lines.length → Denied i s .badArg) ∧
    ∀ h : CarHandle, h.val = car → mode ≤ 1 → 1 ≤ count → count ≤ 6 → count = lines.length →
      (s.car h = none → Denied i s .state) ∧
      ∀ c, s.car h = some c → ∀ code,
        (if c.state ≠ .present then some ResultCode.state
         else if c.held = true then some .editing
         else if (s.program c.field).state = .ended then some .showOver
         else if 4 ≤ c.orders.length then some .orderLimit
         else if ∀ o, s.order o ≠ none then some .full
         else if ∃ l ∈ lines, l.quantity = 0 ∨ 9 < l.quantity ∨ 4 ≤ l.station then some .badArg
         else none) = some code → Denied i s code) ∧
  ∀ (s : State) (h : CarHandle) (c : Car) (mode : ReleaseMode) (o : OrderHandle) (lines : List OrderLine), PortFree s →
    let i := Instr.placeOrder h (releaseModeCode mode) lines.length
      (lines.map fun l => ⟨l.item, l.quantity, l.station⟩)
    s.car h = some c → c.state = .present → c.held = false → (s.program c.field).state ≠ .ended →
    c.orders.length < 4 → s.order o = none → (∀ o', o' < o → s.order o' ≠ none) →
    1 ≤ lines.length → lines.length ≤ 6 → (∀ l ∈ lines, 1 ≤ l.quantity ∧ l.quantity ≤ 9 ∧ l.state = .waiting) →
    let isDue := (s.program c.field).isDue mode
    let serial := min 4294967295 (s.placement + 1)
    let new (due : Bool) : Order :=
      { car := some h, field := c.field, mode := mode, stage := .parked, due := due, cancelPending := false
        late := false, serial := serial, trip := none, timer := none, lines := lines }
    let placed := { s.atWork i with
      orders := put s.orders o (some (new isDue))
      placement := serial
      parked := s.parked ++ [o]
      entries := put s.entries h { s.entry h with car := some { c with orders := c.orders ++ [o] } }
      tallies := put s.tallies (Tally.kitchen .placed).index (min 65535 (s.tally (.kitchen .placed) + 1)) }
    (isDue = false → exec i s = .next (placed.answered .ok [o.val, 0, 0])) ∧
    (isDue = true → s.hold = true → exec i s = .next (placed.answered .ok [o.val, 0, 1])) ∧
    (isDue = true →
      let t := placed.releasePass
      ∃ ord, t.order o = some ord ∧ (ord.stage = .parked ∨ ord.stage = .queued) ∧
        exec i s = .next (t.answered .ok [o.val, stageCode ord.stage, 1])) ∧
    (isDue = true → s.hold = false → o ∉ s.parked →
      (∀ p ∈ s.parked, ∀ ord, s.order p = some ord → ord.due = false) →
      (∀ n, lines.countP (fun l => l.station == n) = 0 ∨
        (s.station n).queue.length + lines.countP (fun l => l.station == n) ≤ 255) →
      let queue (n : StationNo) : List (OrderHandle × Nat) :=
        (s.station n).queue ++ (lines.zipIdx.filter fun l => l.1.station == n).map fun l => (o, l.2)
      let full : Bool := decide (∃ n, (s.station n).xoff ≤ (queue n).length)
      exec i s = .next
        (({ placed with
            orders := put s.orders o
              (some { new false with stage := .queued, timer := some (s.prepLimit * 60000) })
            parked := s.parked
            stations := Vector.ofFn fun n => { s.station n with queue := queue n }
            hold := full
            attention :=
              if full then { placed.attention with causes := placed.attention.causes ||| 0x80#10 }
              else placed.attention } : State).answered .ok [o.val, 1, 1]))

/-- The retirement of an order (R151) takes its handle from the parked list and the ready list and its lines from the queues;
the order leaves its trip, `State.leaveTrip`, and its car's list, and its slot is free; if a backlog has fallen,
`State.afterFall` follows: HOLD is evaluated and a release pass runs (R140, R148, R149). The cancellation by stage,
`State.cancelAtStage`: PARKED, QUEUED and READY orders are counted, a READY one with its waste, their car is touched, and
they are retired; a PREPARING order loses its WAITING lines and its timer and is pending while a line of it is on the stove,
and settles at once with its waste and an ORDER note when none is, and if a WAITING line left a queue a release pass follows;
an ON_TRIP order is pending (R146, R167, R168, R169). CANCEL ORDER makes it, is refused with PENDING where a cancel is
pending and with NOT_FOUND and BAD_ARG where the handle names no order and no slot, and answers CANCELLED once the slot is
free, else PENDING. A READY order's FIELD_HOLD trip takes ready orders of its field in its place, up to six (R159). -/
def Obligations.CancelOrderSettlesByStage : Prop :=
  (∀ (s : State) (o : OrderHandle) (ord : Order), s.order o = some ord →
    let untold : State := { s with
      parked := s.parked.erase o, readyList := s.readyList.erase o
      stations := Vector.ofFn fun n =>
        { s.station n with queue := (s.station n).queue.filter fun e => !(e.1 == o) } }
    let offTrip : State := match ord.trip with
      | none => untold
      | some k => untold.leaveTrip k o
    let freed : State := { offTrip with
      orders := put offTrip.orders o none
      entries := match ord.car with
        | none => s.entries
        | some h => put s.entries h
          { s.entry h with car := (s.car h).map fun c => { c with orders := c.orders.erase o } } }
    let fell := ∃ n k, (o, k) ∈ (s.station n).queue
    (fell → s.retireOrder o = freed.afterFall) ∧ (¬ fell → s.retireOrder o = freed)) ∧
  (∀ (s : State) (o : OrderHandle) (ord : Order),
    let t := s.cancelAtStage o ord
    let pending := { ord with cancelPending := true }
    let bank : Vector Nat 64 :=
      put s.tallies (Tally.kitchen .cancelled).index (min 65535 (s.tally (.kitchen .cancelled) + 1))
    let wasted (n : Nat) : Vector Nat 64 :=
      put bank (Tally.kitchen .wasteLines).index (min 65535 (s.tally (.kitchen .wasteLines) + n))
    let noted : Attention := { s.attention with
      causes := s.attention.causes ||| 0x40#10
      notes :=
        if s.attention.notes.length < 8 then s.attention.notes ++ [(o, .cancelSettled)] else s.attention.notes
      overflow := if s.attention.notes.length < 8 then s.attention.overflow else true }
    let told (b : State) (tallies : Vector Nat 64) (a : Attention) : State := { b with
      tallies := tallies
      entries := match ord.car with
        | none => s.entries
        | some h => put s.entries h { s.entry h with touched := true }
      attention := if ord.car = none then a else { a with causes := a.causes ||| 0x100#10 } }
    let waits (e : OrderHandle × Nat) : Bool :=
      e.1 == o && ord.lines[e.2]?.map OrderLine.state == some .waiting
    let withdrawn : State := { s with
      stations := Vector.ofFn fun n => { s.station n with queue := (s.station n).queue.filter fun e => !waits e }
      orders := put s.orders o (some { pending with timer := none }) }
    let settled : State :=
      (told withdrawn (wasted ((ord.lines.filter fun l => l.state == .finished).map OrderLine.quantity).sum)
        noted).retireOrder o
    let onStove := ∃ n k, (o, k) ∈ (s.station n).queue ∧ waits (o, k) = false
    let fell := ∃ n k, (o, k) ∈ (s.station n).queue ∧ waits (o, k) = true
    (ord.stage = .parked ∨ ord.stage = .queued → t = (told s bank s.attention).retireOrder o) ∧
    (ord.stage = .ready →
      t = (told s (wasted (ord.lines.map OrderLine.quantity).sum) s.attention).retireOrder o) ∧
    (ord.stage = .onTrip → t = { s with orders := put s.orders o (some pending) }) ∧
    (ord.stage = .preparing → onStove → fell → t = withdrawn.afterFall) ∧
    (ord.stage = .preparing → onStove → ¬ fell → t = withdrawn) ∧
    (ord.stage = .preparing → ¬ onStove → fell → t = settled.afterFall) ∧
    (ord.stage = .preparing → ¬ onStove → ¬ fell → t = settled)) ∧
  (∀ (s : State) (order : Nat), PortFree s → 256 ≤ order → Denied (.cancelOrder order) s .badArg) ∧
  ∀ (s : State) (o : OrderHandle), PortFree s →
    let i := Instr.cancelOrder o
    (s.order o = none → Denied i s .notFound) ∧
    ∀ ord, s.order o = some ord →
      let pending := { ord with cancelPending := true }
      let carSettled (t : State) : Prop :=
        (∀ h c, ord.car = some h → s.car h = some c →
          t.entry h = { car := some { c with orders := c.orders.erase o }, touched := true }) ∧
        ∀ h, ord.car ≠ some h → t.entry h = s.entry h
      let gone (t : State) (waste : Nat) : Prop :=
        t.order o = none ∧ carSettled t ∧ (∀ n k, (o, k) ∉ (t.station n).queue) ∧
        t.tally (.kitchen .cancelled) = min 65535 (s.tally (.kitchen .cancelled) + 1) ∧
        t.tally (.kitchen .wasteLines) = min 65535 (s.tally (.kitchen .wasteLines) + waste)
      let frame (t : State) : Prop := t = { s.atWork i with
        entries := t.entries, tallies := t.tallies, orders := t.orders, parked := t.parked, stations := t.stations
        hold := t.hold, trips := t.trips, readyList := t.readyList, attention := t.attention }
      let isWaiting (k : Nat) : Prop := ord.lines[k]?.map OrderLine.state = some .waiting
      let onStove := ∃ n k, (o, k) ∈ (s.station n).queue ∧ ¬ isWaiting k
      (ord.cancelPending = true → Denied i s .pending) ∧
      (ord.cancelPending = false →
        let t := (s.atWork i).cancelAtStage o ord
        exec i s = .next (t.answered (if t.order o = none then .cancelled else .pending) [])) ∧
      (∀ k f, ord.cancelPending = false → ord.stage = .ready → ord.trip = some k → (s.trip k).state = .fieldHold →
        (s.trip k).field = some f → (s.trip k).orders.erase o ≠ [] →
        let rest := (s.trip k).orders.erase o
        let more := ((s.readyList.erase o).filter fun o' => (s.order o').any fun y => y.field == f).take
          (6 - rest.length)
        ∃ t : State, exec i s = .next (t.answered .cancelled []) ∧
          t.trip k = { s.trip k with orders := rest ++ more } ∧
          t.readyList = (s.readyList.erase o).filter (fun o' => !more.contains o') ∧
          ∀ o' ∈ more, o' ≠ o → o' ∉ s.parked →
            t.order o' = (s.order o').map fun y => { y with trip := some k }) ∧
      (ord.cancelPending = false → ord.stage = .onTrip →
        exec i s = .next
          (({ s.atWork i with orders := put s.orders o (some pending) } : State).answered .pending [])) ∧
      (ord.cancelPending = false → ord.stage = .parked ∨ ord.stage = .queued ∨ ord.stage = .ready →
        s.tally (.kitchen .wasteLines) ≤ 65535 →
        ∃ t : State, exec i s = .next (t.answered .cancelled []) ∧ frame t ∧
          gone t (if ord.stage = .ready then (ord.lines.map OrderLine.quantity).sum else 0) ∧
          t.attention.notes = s.attention.notes) ∧
      (ord.cancelPending = false → ord.stage = .preparing → onStove → o ∉ s.parked →
        ∃ t : State, exec i s = .next (t.answered .pending []) ∧ frame t ∧
          t.order o = some { pending with timer := none } ∧ t.entries = s.entries ∧
          (∀ n k, (o, k) ∈ (t.station n).queue ↔ (o, k) ∈ (s.station n).queue ∧ ¬ isWaiting k) ∧
          t.tally (.kitchen .cancelled) = s.tally (.kitchen .cancelled)) ∧
      (ord.cancelPending = false → ord.stage = .preparing → ¬ onStove →
        ∃ t : State, exec i s = .next (t.answered .cancelled []) ∧ frame t ∧
          gone t ((ord.lines.filter fun l => l.state == .finished).map OrderLine.quantity).sum ∧
          t.attention.causes.getLsbD 6 = true ∧
          (s.attention.notes.length < 8 → t.attention.notes = s.attention.notes ++ [(o, .cancelSettled)]))

/-- STATION NEXT hands out the oldest WAITING line of the station's queue: STARTED, its order PREPARING if it was QUEUED, the
line still queued; NOT_FOUND when none waits (R144). LINE DONE takes a STARTED line out of its queue as DONE: while another
line of the order is queued the order stands; at its last line it finishes, READY or on the way out without a pending cancel,
settled with its waste and an ORDER note with one (R145, R146). The rest of an order that is handed out, stands or finishes
without a cancel (car, field, mode, serial, marks, late flag) is as it was. An order that becomes READY joins the
lowest-numbered trip of its field that takes joins, at its end, which restarts the gather timer of a GATHERING trip; the
sixth closes such a trip, OUT with its orders ON_TRIP and TRIP raised if runners may walk its field, FIELD_HOLD if not; else
it forms the lowest-numbered IDLE trip; else it joins the end of the ready list (R158, R160, R162). In each case the fall of
the backlog is followed by `State.afterFall`: HOLD is evaluated and a release pass runs (R140, R145, R148). A station, an
order or a line out of its range is refused with BAD_ARG, a line number past the order's lines too, a free slot with
NOT_FOUND. -/
def Obligations.StationsHandOutAndFinishLines : Prop :=
  (∀ (s : State) (station order line : Nat), PortFree s →
    (4 ≤ station → Denied (.stationNext station) s .badArg) ∧
    (256 ≤ order ∨ 5 < line → Denied (.lineDone order line) s .badArg) ∧
    ∀ o : OrderHandle, o.val = order → line ≤ 5 →
      (s.order o = none → Denied (.lineDone order line) s .notFound) ∧
      ∀ ord, s.order o = some ord → ord.lines.length ≤ line → Denied (.lineDone order line) s .badArg) ∧
  (∀ (s : State) (n : StationNo), PortFree s →
    let i := Instr.stationNext n
    let waits (e : OrderHandle × Nat) : Prop :=
      ∃ ord l, s.order e.1 = some ord ∧ ord.lines[e.2]? = some l ∧ l.state = .waiting
    ((∀ e ∈ (s.station n).queue, ¬ waits e) → Denied i s .notFound) ∧
    (∀ (ahead behind : List (OrderHandle × Nat)) (o : OrderHandle) (k : Nat) (ord : Order) (l : OrderLine),
      (s.station n).queue = ahead ++ (o, k) :: behind → (∀ e ∈ ahead, ¬ waits e) →
      s.order o = some ord → ord.lines[k]? = some l → l.state = .waiting →
      exec i s = .next
        (({ s.atWork i with
            orders := put s.orders o (some
              { ord with
                lines := ord.lines.set k { l with state := .started }
                stage := if ord.stage = .queued then .preparing else ord.stage }) } : State).answered .ok
          [o.val, k, l.item, l.quantity, ord.field.val, if ord.late then 1 else 0]))) ∧
  ∀ (s : State) (o : OrderHandle) (k : Nat) (ord : Order) (l : OrderLine), PortFree s → k ≤ 5 →
    let i := Instr.lineDone o k
    s.order o = some ord → ord.lines[k]? = some l →
    (l.state ≠ .started → Denied i s .state) ∧
    (l.state = .started → o ∉ s.parked →
      let lines := ord.lines.set k { l with state := .finished }
      let more := ∃ n j, (o, j) ∈ (s.station n).queue ∧ j ≠ k
      let a := (s.atWork i).attention
      let written : State := { s.atWork i with
        orders := put s.orders o (some { ord with lines := lines })
        stations := Vector.ofFn fun n => { s.station n with queue := (s.station n).queue.filter fun e => !(e == (o, k)) } }
      let frame (t : State) : Prop := t = { s.atWork i with
        entries := t.entries, tallies := t.tallies, orders := t.orders, parked := t.parked, stations := t.stations
        hold := t.hold, trips := t.trips, readyList := t.readyList, attention := t.attention }
      (more →
        ∃ t : State, exec i s = .next (t.answered .ok [stageCode ord.stage]) ∧ frame t ∧ t = written.afterFall ∧
          t.order o = some { ord with lines := lines } ∧ t.entries = s.entries ∧
          ∀ n j, (o, j) ∈ (t.station n).queue ↔ (o, j) ∈ (s.station n).queue ∧ j ≠ k) ∧
      (¬ more → ord.cancelPending = false →
        ∃ (placed t : State) (ord' : Order),
          exec i s = .next (t.answered .ok [stageCode ord'.stage]) ∧ frame t ∧ t = placed.afterFall ∧
          t.order o = some ord' ∧ (ord'.stage = .ready ∨ ord'.stage = .onTrip) ∧ ord'.timer = none ∧
          ord' = { ord with lines := lines, stage := ord'.stage, timer := none, trip := ord'.trip } ∧
          t.entries = s.entries ∧
          (∀ n j, (o, j) ∉ (t.station n).queue) ∧
          let takes (k : TripHandle) : Prop := (s.trip k).Joinable ∧ (s.trip k).field = some ord.field
          let othersStand (k : TripHandle) : Prop := t.readyList = s.readyList ∧ ∀ k', k' ≠ k → t.trip k' = s.trip k'
          let stands (o' : OrderHandle) : Prop := o' ≠ o → o' ∉ s.parked → t.order o' = s.order o'
          let ready (k : Option TripHandle) : Prop :=
            ord'.stage = .ready ∧ ord'.trip = k ∧ (∀ o', stands o') ∧
              t.attention.dispatched = s.attention.dispatched ∧
              placed = { written with
                orders := put s.orders o (some ord'), trips := t.trips, readyList := t.readyList }
          let p := s.program ord.field
          let allowed := p.state = .dark ∨ p.state = .opened ∨ p.state = .ended ∨
            ∃ seg, p.record.segments[p.segment]? = some seg ∧ seg.runners = true
          (∀ k, takes k → (∀ k', k' < k → ¬ takes k') →
            let x := s.trip k
            let joined := { x with orders := x.orders ++ [o] }
            let closes := x.state = .gathering ∧ x.orders.length = 5
            othersStand k ∧
            (¬ closes → ready (some k) ∧ t.trip k =
              { joined with timer := if x.state = .gathering then some (s.window * 1000) else x.timer }) ∧
            (closes → ¬ allowed → ready (some k) ∧ t.trip k = { joined with state := .fieldHold, timer := none }) ∧
            (closes → allowed →
              ord'.stage = .onTrip ∧ ord'.trip = some k ∧ t.trip k = { joined with state := .out, timer := none } ∧
                (∀ o', o' ∉ x.orders → stands o') ∧
                (∀ o' ∈ x.orders, o' ≠ o → o' ∉ s.parked →
                  t.order o' = (s.order o').map fun y => { y with stage := .onTrip }) ∧
                t.attention.causes.getLsbD 5 = true ∧
                t.attention.dispatched = s.attention.dispatched ||| BitVec.twoPow 8 k.val ∧
                placed.order o = some ord' ∧
                (∀ o', o' ≠ o → placed.order o' =
                  if o' ∈ x.orders then (s.order o').map fun y => { y with stage := .onTrip } else s.order o') ∧
                placed = { written with
                  orders := placed.orders, trips := t.trips
                  attention :=
                    { a with causes := a.causes ||| 0x20#10, dispatched := a.dispatched ||| BitVec.twoPow 8 k.val } })) ∧
          ((∀ k, ¬ takes k) →
            (∀ k, (s.trip k).state = .idle → (∀ k', k' < k → (s.trip k').state ≠ .idle) →
              othersStand k ∧ ready (some k) ∧ t.trip k =
                { state := .gathering, field := some ord.field, orders := [o], timer := some (s.window * 1000) }) ∧
            ((∀ k, (s.trip k).state ≠ .idle) →
              ready ord.trip ∧ t.trips = s.trips ∧ t.readyList = s.readyList ++ [o]))) ∧
      (¬ more → ord.cancelPending = true →
        let settled : State := { written with
          tallies := put
            (put s.tallies (Tally.kitchen .cancelled).index (min 65535 (s.tally (.kitchen .cancelled) + 1)))
            (Tally.kitchen .wasteLines).index (min 65535 (s.tally (.kitchen .wasteLines) +
              ((lines.filter fun x => x.state == .finished).map OrderLine.quantity).sum))
          entries := match ord.car with
            | none => s.entries
            | some h => put s.entries h { s.entry h with touched := true }
          attention := { a with
            causes := a.causes ||| 0x40#10 ||| if ord.car = none then 0#10 else 0x100#10
            notes := if a.notes.length < 8 then a.notes ++ [(o, .cancelSettled)] else a.notes
            overflow := if a.notes.length < 8 then a.overflow else true } }
        ∃ t : State, exec i s = .next (t.answered .ok [5]) ∧ frame t ∧ t = (settled.retireOrder o).afterFall ∧
          t.order o = none ∧
          (∀ n j, (o, j) ∉ (t.station n).queue) ∧
          (∀ h c, ord.car = some h → s.car h = some c →
            t.entry h = { car := some { c with orders := c.orders.erase o }, touched := true }) ∧
          (∀ h, ord.car ≠ some h → t.entry h = s.entry h) ∧
          t.tally (.kitchen .cancelled) = min 65535 (s.tally (.kitchen .cancelled) + 1) ∧
          t.tally (.kitchen .wasteLines) = min 65535 (s.tally (.kitchen .wasteLines) +
            ((lines.filter fun x => x.state == .finished).map OrderLine.quantity).sum) ∧
          t.attention.causes.getLsbD 6 = true))

/-- HOLD is evaluated after a fall in a backlog and after CONFIGURE KITCHEN, and a change raises KITCHEN; where the kitchen
leaves HOLD, every parked order that the due rule makes due is marked, and a release pass runs; a fall alone, out of HOLD,
starts a release pass too (R140, R148, R149). That a fall which takes HOLD off starts one pass is the model's reading (log
entry 10). CONFIGURE KITCHEN writes the thresholds of the flagged stations and the prep limit, and is followed by just that
(R147); out of its ranges it is refused with BAD_ARG, an undefined mask bit with them (log entry 9). Unless it takes the
kitchen out of HOLD no order and no queue changes. That the release pass which it starts on leaving HOLD counts its station
deferrals, where R65 has the configuration commands leave the tally bank as it is, is the model's reading (log entry 28), and
so is that the reply gives the thresholds station by station, xoff before xon (R190, log entry 27). -/
def Obligations.ConfigureKitchenEvaluatesHold : Prop :=
  (∀ s : State,
    let full := ∃ n, (s.station n).xoff ≤ (s.station n).queue.length
    let slack := ∀ n, (s.station n).queue.length ≤ (s.station n).xon
    let hold : Bool := if full then true else if slack then false else s.hold
    let held : State := { s with
      hold := hold
      attention :=
        if hold = s.hold then s.attention else { s.attention with causes := s.attention.causes ||| 0x80#10 } }
    let falls (ord : Order) : Prop :=
      ord.stage = .parked ∧ ord.due = false ∧ (s.program ord.field).isDue ord.mode = true
    (s.hold = false ∨ hold = true → s.afterFall = held.releasePass ∧ s.afterThresholds = held) ∧
    (s.hold = true → hold = false →
      ∃ marked : State, marked = { held with orders := marked.orders } ∧
        (∀ o,
          (∀ ord, s.order o = some ord → o ∈ s.parked → falls ord →
            marked.order o = some { ord with due := true }) ∧
          ((∀ ord, s.order o = some ord → o ∈ s.parked → ¬ falls ord) → marked.order o = s.order o)) ∧
        s.afterFall = marked.releasePass ∧ s.afterThresholds = marked.releasePass)) ∧
  (∀ (s : State) (mask xoff xon limit : Nat), PortFree s →
    16 ≤ mask ∨ xoff < 2 ∨ 255 < xoff ∨ xoff ≤ xon ∨ limit = 0 ∨ 60 < limit →
    Denied (.configureKitchen mask xoff xon limit) s .badArg) ∧
  ∀ (s : State) (mask xoff xon limit : Nat), PortFree s → mask < 16 → 2 ≤ xoff → xoff ≤ 255 → xon < xoff →
    1 ≤ limit → limit ≤ 60 →
    let i := Instr.configureKitchen mask xoff xon limit
    let a := (s.atWork i).attention
    let flagged (n : StationNo) : Bool := mask.testBit n.val
    let off (n : StationNo) : Nat := if flagged n then xoff else (s.station n).xoff
    let on (n : StationNo) : Nat := if flagged n then xon else (s.station n).xon
    let full := ∃ n, off n ≤ (s.station n).queue.length
    let slack := ∀ n, (s.station n).queue.length ≤ on n
    let reply (hold : Bool) : List Nat :=
      (List.finRange 4).flatMap (fun n => [off n, on n]) ++ [limit, if hold then 1 else 0]
    let hold : Bool := if full then true else if slack then false else s.hold
    (let written : State := { s.atWork i with
        stations := Vector.ofFn fun n => { s.station n with xoff := off n, xon := on n }, prepLimit := limit }
     exec i s = .next (written.afterThresholds.answered .ok (reply written.afterThresholds.hold))) ∧
    (s.hold = false ∨ hold = true →
      exec i s = .next
        (({ s.atWork i with
            stations := Vector.ofFn fun n => { s.station n with xoff := off n, xon := on n }
            prepLimit := limit
            hold := hold
            attention := if hold = s.hold then a else { a with causes := a.causes ||| 0x80#10 } } : State).answered .ok
          (reply hold))) ∧
    (s.hold = true → hold = false →
      ∃ t : State, exec i s = .next (t.answered .ok (reply t.hold)) ∧
        (∀ n, (t.station n).xoff = off n ∧ (t.station n).xon = on n) ∧ t.prepLimit = limit ∧
        t.attention.causes.getLsbD 7 = true ∧
        (∀ o, (t.order o).map Order.kept = (s.order o).map Order.kept) ∧
        t = { s.atWork i with
          stations := t.stations, prepLimit := limit, hold := t.hold, tallies := t.tallies, orders := t.orders
          parked := t.parked, attention := t.attention })

/-- HOLD is what backlogs and thresholds call for, at every step: on while a backlog is at its station's xoff or above,
off while every one is at its xon or below; and xon stays below xoff (R147, R148). -/
def Obligations.HoldIsKeptByTheBacklogs : Prop :=
  ∀ s t : State, HoldLaw s → step s = .next t → HoldLaw t

/-- At every step the limits are kept: backlogs to 255 (R143), order lists to 4 (R133), trips to 6 (R155), ORDER notes to
8 (R181), segments to 24 (R66), tallies and admission serial to 65,535 (R61, R23), the placement counter to its limit
(R135). -/
def Obligations.CapacitiesAreKept : Prop :=
  ∀ s t : State, CapacityLaw s → step s = .next t → CapacityLaw t

/-- The laws of the order book's lists are kept at every step. Every order with a car reference stands in that car's list,
every handle in a list names an order of that car, and no list names an order twice (R20, R133). The parked list holds
exactly the PARKED orders, and the queues exactly the lines that are WAITING or STARTED of QUEUED and PREPARING orders and
not withdrawn by a cancel, each once (R131, R136, R143, R146). A trip's orders are of one field, each on one trip, READY or,
exactly while the trip is OUT, ON_TRIP; the ready list holds exactly the READY orders on no trip, and none waits there that
a trip could take (R155, R156, R158, R159). -/
def Obligations.OrderListsAgreeWithTheBook : Prop :=
  ∀ s t : State, step s = .next t →
    (OrderListLaw s → OrderListLaw t) ∧ (QueueLaw s → TripLaw s → QueueLaw t ∧ TripLaw t)

/-! ### Trips and timers (R121, R150, R155 to R166) -/

/-- TRIP REPORT settles an ON_TRIP order by its outcome and its cancel, retires it and touches its car (R164, R165). The trip
keeps its other orders; one left empty is IDLE while no order waits for it, and else is formed again from the ready list: the
oldest ready order gives the field, the others of that field join up to six, and six close it (R159, R160). What is left, and
that the trip became IDLE, is told as the report leaves the trip, before it is formed again: the model's reading (log entry
11). A free slot is refused with NOT_FOUND, a handle or an outcome out of its range with BAD_ARG. -/
def Obligations.TripReportSettlesTheOrder : Prop :=
  (∀ (s : State) (order outcome : Nat), PortFree s →
    (256 ≤ order ∨ 1 < outcome → Denied (.tripReport order outcome) s .badArg) ∧
    ∀ o : OrderHandle, o.val = order → outcome ≤ 1 → s.order o = none →
      Denied (.tripReport order outcome) s .notFound) ∧
  ∀ (s : State) (o : OrderHandle) (ord : Order) (outcome : Nat), PortFree s → outcome ≤ 1 → s.order o = some ord →
    let i := Instr.tripReport o outcome
    (ord.stage ≠ .onTrip → Denied i s .state) ∧
    (∀ k, ord.stage = .onTrip → ord.trip = some k →
      let left := ((s.trip k).orders.erase o).length
      let counted : Nat := match outcome, ord.cancelPending with
        | 0, false => 0
        | 0, true => 3
        | _, false => 1
        | _, true => 2
      let added (j : KitchenTally) : Nat := match counted, j with
        | 0, .delivered => 1
        | 1, .undeliverable => 1
        | 2, .cancelled => 1
        | 2, .wasteLines => (ord.lines.map OrderLine.quantity).sum
        | 3, .delivered => 1
        | _, _ => 0
      let a := (s.atWork i).attention
      let noted (kind : NoteKind) : Attention := { a with
        causes := a.causes ||| 0x40#10
        notes := if a.notes.length < 8 then a.notes ++ [(o, kind)] else a.notes
        overflow := if a.notes.length < 8 then a.overflow else true }
      let reported : Attention := match counted with
        | 2 => noted .cancelSettled
        | 3 => noted .tooLate
        | _ => a
      let one (j : KitchenTally) : Vector Nat 64 :=
        put s.tallies (Tally.kitchen j).index (min 65535 (s.tally (.kitchen j) + 1))
      let told : State := { s.atWork i with
        tallies := match counted with
          | 1 => one .undeliverable
          | 2 => put (one .cancelled) (Tally.kitchen .wasteLines).index
            (min 65535 (s.tally (.kitchen .wasteLines) + (ord.lines.map OrderLine.quantity).sum))
          | _ => one .delivered
        entries := match ord.car with
          | none => s.entries
          | some h => put s.entries h { s.entry h with touched := true }
        attention :=
          if ord.car = none then reported else { reported with causes := reported.causes ||| 0x100#10 } }
      exec i s = .next ((told.retireOrder o).answered .ok [counted, k.val, left, if left = 0 then 1 else 0]) ∧
      (∀ first more y, left = 0 → s.readyList = first :: more → o ∉ s.readyList → s.order first = some y →
        let t := told.retireOrder o
        let p := s.program y.field
        let allowed := p.state = .dark ∨ p.state = .opened ∨ p.state = .ended ∨
          ∃ seg, p.record.segments[p.segment]? = some seg ∧ seg.runners = true
        let members := (s.readyList.filter fun o' => (s.order o').any fun z => z.field == y.field).take 6
        let formed (st : TripState) (timer : Option Nat) : Prop :=
          t.trip k = { state := st, field := some y.field, orders := members, timer := timer } ∧
          ∀ o' ∈ members, o' ∉ s.parked → t.order o' = (s.order o').map fun z =>
            { z with trip := some k, stage := if st = .out then .onTrip else z.stage }
        t.readyList = s.readyList.filter (fun o' => !members.contains o') ∧
        (members.length < 6 → formed .gathering (some (s.window * 1000))) ∧
        (members.length = 6 → ¬ allowed → formed .fieldHold none) ∧
        (members.length = 6 → allowed →
          formed .out none ∧ t.attention.causes.getLsbD 5 = true ∧
            t.attention.dispatched = s.attention.dispatched ||| BitVec.twoPow 8 k.val)) ∧
      ((∀ j, s.tally (.kitchen j) ≤ 65535) →
        ∃ t : State,
          exec i s = .next (t.answered .ok [counted, k.val, left, if left = 0 then 1 else 0]) ∧
          t.order o = none ∧
          (∀ j, j ≠ .stationDeferrals →
            t.tally (.kitchen j) = min 65535 (s.tally (.kitchen j) + added j)) ∧
          (∀ h c, ord.car = some h → s.car h = some c →
            t.entry h = { car := some { c with orders := c.orders.erase o }, touched := true }) ∧
          (∀ h, ord.car ≠ some h → t.entry h = s.entry h) ∧
          (2 ≤ counted → t.attention.causes.getLsbD 6 = true) ∧
          ((s.trip k).state = .out → left ≠ 0 →
            t.trip k = { s.trip k with orders := (s.trip k).orders.erase o }) ∧
          (left = 0 → s.readyList = [] → t.trip k = {}) ∧
          t = { s.atWork i with
            entries := t.entries, tallies := t.tallies, orders := t.orders, parked := t.parked, stations := t.stations
            hold := t.hold, trips := t.trips, readyList := t.readyList, attention := t.attention }))

/-- Orders that join a trip stand behind its others, in list order, with the trip as theirs; a join restarts the timer of a
GATHERING trip, and its sixth order closes it: OUT, with its orders ON_TRIP and TRIP raised, if runners may walk its field,
FIELD_HOLD if not (R84, R158, R160, R162). A trip that has become IDLE is formed again from the ready list: its oldest order
gives the field, and the orders of that field join, six at most. A GATHERING or FIELD_HOLD trip that an order leaves takes
ready orders of its field, up to six; any other keeps the rest (R159, R164, R169). RECALL TRIP takes the orders of an OUT
trip back, READY, to the head of the ready list in route order, and forms the trip again (R159, R166): alone, fewer than six
orders of one field gather again in route order, and six close it at once. The route order is the trip's orders by stall, an
order without a car last, and equals in joining order (R163). No car entry changes. -/
def Obligations.RecallTripGathersAgain : Prop :=
  (∀ (s : State) (k : TripHandle) (os : List OrderHandle),
    let x := s.trip k
    let members := x.orders ++ os
    let joins := x.state = .gathering ∧ os ≠ []
    let t := s.joinTrip k os
    let marked (o : OrderHandle) : Option Order :=
      if o ∈ os then (s.order o).map fun ord => { ord with trip := some k } else s.order o
    (¬ (joins ∧ members.length = 6) →
      (∀ o, t.order o = marked o) ∧
      t = { s with
        trips := put s.trips k
          { x with orders := members, timer := if joins then some (s.window * 1000) else x.timer }
        orders := t.orders }) ∧
    (∀ f, joins → members.length = 6 → x.field = some f →
      let p := s.program f
      let allowed := p.state = .dark ∨ p.state = .opened ∨ p.state = .ended ∨
        ∃ seg, p.record.segments[p.segment]? = some seg ∧ seg.runners = true
      (¬ allowed →
        (∀ o, t.order o = marked o) ∧
        t = { s with
          trips := put s.trips k { x with state := .fieldHold, orders := members, timer := none }
          orders := t.orders }) ∧
      (allowed →
        (∀ o, t.order o =
          if o ∈ members then (marked o).map fun ord => { ord with stage := .onTrip } else marked o) ∧
        t = { s with
          trips := put s.trips k { x with state := .out, orders := members, timer := none }
          orders := t.orders
          attention :=
            { s.attention with
              causes := s.attention.causes ||| 0x20#10
              dispatched := s.attention.dispatched ||| BitVec.twoPow 8 k.val } }))) ∧
  (∀ (s : State) (k : TripHandle),
    let ready (f : FieldNo) (n : Nat) : List OrderHandle :=
      (s.readyList.filter fun o => (s.order o).any fun y => y.field == f).take n
    let without (os : List OrderHandle) : List OrderHandle := s.readyList.filter fun o => !os.contains o
    (s.readyList = [] → s.reformTrip k = s) ∧
    (∀ first more y, s.readyList = first :: more → s.order first = some y →
      let members := ready y.field 6
      s.reformTrip k =
        State.joinTrip
          { s with
            trips := put s.trips k { state := .gathering, field := some y.field, orders := [], timer := none }
            readyList := without members } k members) ∧
    ∀ o : OrderHandle,
      let x := s.trip k
      let rest := x.orders.erase o
      let left := { s with trips := put s.trips k { x with orders := rest } }
      (rest = [] → s.leaveTrip k o = State.reformTrip { s with trips := put s.trips k {} } k) ∧
      (rest ≠ [] → x.state ≠ .gathering → x.state ≠ .fieldHold → s.leaveTrip k o = left) ∧
      (∀ f, rest ≠ [] → x.state = .gathering ∨ x.state = .fieldHold → x.field = some f →
        let more := ready f (6 - rest.length)
        s.leaveTrip k o = State.joinTrip { left with readyList := without more } k more)) ∧
  (∀ (s : State) (trip : Nat), PortFree s → 8 ≤ trip → Denied (.recallTrip trip) s .badArg) ∧
  ∀ (s : State) (k : TripHandle), PortFree s →
    let i := Instr.recallTrip k
    let x := s.trip k
    let rank (o : OrderHandle) : Nat :=
      match (s.order o).bind fun ord => ord.car.bind s.car with
      | some c => c.stall.row * 32 + c.stall.post
      | none => 1000
    (s.routeOrder k).Perm x.orders ∧
    (s.routeOrder k).Pairwise (fun a b => rank a ≤ rank b) ∧
    (∀ r, (s.routeOrder k).filter (fun o => rank o == r) = x.orders.filter fun o => rank o == r) ∧
    (x.state ≠ .out → Denied i s .state) ∧
    (x.state = .out →
      ∃ t : State,
        exec i s = .next (t.answered .ok
          [x.orders.length, tripStateCode (t.trip k).state, (t.trip k).orders.length]) ∧
        (∀ o, (t.order o).map (fun ord => (ord.car, ord.lines, ord.cancelPending, ord.late)) =
          (s.order o).map fun ord => (ord.car, ord.lines, ord.cancelPending, ord.late)) ∧
        t = { s.atWork i with
          orders := t.orders, trips := t.trips, readyList := t.readyList, attention := t.attention } ∧
        (∀ f, s.readyList = [] → x.orders ≠ [] → x.orders.length < 6 → x.orders.Nodup →
          (∀ o ∈ x.orders, ∃ ord, s.order o = some ord ∧ ord.field = f) →
          t.trip k =
            { state := .gathering, field := some f, orders := s.routeOrder k, timer := some (s.window * 1000) } ∧
          t.readyList = [] ∧
          ∀ o ∈ x.orders, ∀ ord, s.order o = some ord →
            t.order o = some { ord with stage := .ready, trip := some k }) ∧
        (∀ f, s.readyList = [] → x.orders.length = 6 → x.orders.Nodup →
          (∀ o ∈ x.orders, ∃ ord, s.order o = some ord ∧ ord.field = f) →
          let p := s.program f
          let allowed := p.state = .dark ∨ p.state = .opened ∨ p.state = .ended ∨
            ∃ seg, p.record.segments[p.segment]? = some seg ∧ seg.runners = true
          let closed (st : TripState) (stage : Stage) : Prop :=
            t.trip k = { state := st, field := some f, orders := s.routeOrder k, timer := none } ∧
            t.readyList = [] ∧
            ∀ o ∈ x.orders, ∀ ord, s.order o = some ord →
              t.order o = some { ord with stage := stage, trip := some k }
          (¬ allowed → closed .fieldHold .ready ∧ t.attention = (s.atWork i).attention) ∧
          (allowed → closed .out .onTrip ∧ t.attention.causes.getLsbD 5 = true ∧
            t.attention.dispatched = s.attention.dispatched ||| BitVec.twoPow 8 k.val)) ∧
        ∃ back : State, t = back.reformTrip k ∧
          (∀ o, back.order o =
            if o ∈ x.orders then (s.order o).map fun ord => { ord with stage := .ready, trip := none }
            else s.order o) ∧
          back = { s.atWork i with
            orders := back.orders, trips := put s.trips k {}, readyList := s.routeOrder k ++ s.readyList })

/-- The gather timer closes a GATHERING trip: OUT with its orders ON_TRIP and TRIP raised if runners may walk its field,
FIELD_HOLD if not (R84, R160, R162). The issue timer cancels the issue, touches the car, counts the timeout and raises
SET (R120, R121). The prep timer makes the order late, counts it and notes it (R150). A row whose timer is stopped
changes nothing: the model's choice (log entry 8). -/
def Obligations.TimersRunOut : Prop :=
  ∀ s : State,
    (∀ k : TripHandle,
      let x := s.trip k
      let i := Instr.gatherTimerExpiry k
      (x.state ≠ .gathering ∨ x.timer = none → exec i s = .next s) ∧
      (∀ f, x.state = .gathering → x.timer ≠ none → x.field = some f →
        let p := s.program f
        let allowed := p.state = .dark ∨ p.state = .opened ∨ p.state = .ended ∨
          ∃ seg, p.record.segments[p.segment]? = some seg ∧ seg.runners = true
        (¬ allowed → exec i s = .next
          { s with trips := put s.trips k { x with state := .fieldHold, timer := none } }) ∧
        (allowed → ∃ t : State, exec i s = .next t ∧
          (∀ o, t.order o =
            if o ∈ x.orders then (s.order o).map fun ord => { ord with stage := .onTrip } else s.order o) ∧
          t = { s with
            trips := put s.trips k { x with state := .out, timer := none }
            orders := t.orders
            attention :=
              { s.attention with
                causes := s.attention.causes ||| 0x20#10
                dispatched := s.attention.dispatched ||| BitVec.twoPow 8 k.val } }))) ∧
    (∀ n : SetHandle,
      let x := s.slot n
      let i := Instr.issueTimerExpiry n
      (x.state ≠ .issuing ∨ x.timer = none → exec i s = .next s) ∧
      (∀ h c, x.state = .issuing → x.timer ≠ none → x.car = some h → s.car h = some c →
        exec i s = .next
          { s with
            sets := put s.sets n
              { x with
                state := if s.readyLevel ≤ x.charge then .ready else .charging
                car := none, timer := none }
            entries := put s.entries h { car := some { c with lent := none }, touched := true }
            tallies := put s.tallies (Tally.sets .issueTimeouts).index (min 65535 (s.tally (.sets .issueTimeouts) + 1))
            attention :=
              { s.attention with
                causes := s.attention.causes ||| 0x110#10, setKinds := s.attention.setKinds ||| 1#3 } })) ∧
    (∀ o : OrderHandle,
      let i := Instr.prepTimerExpiry o
      ((∀ ord, s.order o = some ord → ord.timer = none) → exec i s = .next s) ∧
      (∀ ord, s.order o = some ord → ord.timer ≠ none →
        exec i s = .next
          { s with
            orders := put s.orders o (some { ord with late := true, timer := none })
            tallies := put s.tallies (Tally.kitchen .late).index (min 65535 (s.tally (.kitchen .late) + 1))
            attention :=
              { s.attention with
                causes := s.attention.causes ||| 0x40#10
                notes :=
                  if s.attention.notes.length < 8 then s.attention.notes ++ [(o, .late)] else s.attention.notes
                overflow := if s.attention.notes.length < 8 then s.attention.overflow else true } }))
end

