-- ==== Sys2Proof/Laws/State.lean ====
section
/-! SUPPORT. One lemma per field per update of a record of the state, and what each record reads as after each update of
its own table. -/

namespace Sys2Proof.Machine

variable (s : State)

/-! `setUnit` writes `fieldUnits` alone. -/

@[simp] theorem State.setUnit_entries (f : FieldNo) (u : FieldUnit) : (s.setUnit f u).entries = s.entries := rfl
@[simp] theorem State.setUnit_serialCounter (f : FieldNo) (u : FieldUnit) : (s.setUnit f u).serialCounter = s.serialCounter := rfl
@[simp] theorem State.setUnit_lanes (f : FieldNo) (u : FieldUnit) : (s.setUnit f u).lanes = s.lanes := rfl
@[simp] theorem State.setUnit_tallies (f : FieldNo) (u : FieldUnit) : (s.setUnit f u).tallies = s.tallies := rfl
@[simp] theorem State.setUnit_programs (f : FieldNo) (u : FieldUnit) : (s.setUnit f u).programs = s.programs := rfl
@[simp] theorem State.setUnit_timebases (f : FieldNo) (u : FieldUnit) : (s.setUnit f u).timebases = s.timebases := rfl
@[simp] theorem State.setUnit_sets (f : FieldNo) (u : FieldUnit) : (s.setUnit f u).sets = s.sets := rfl
@[simp] theorem State.setUnit_bays (f : FieldNo) (u : FieldUnit) : (s.setUnit f u).bays = s.bays := rfl
@[simp] theorem State.setUnit_readyLevel (f : FieldNo) (u : FieldUnit) : (s.setUnit f u).readyLevel = s.readyLevel := rfl
@[simp] theorem State.setUnit_issueTime (f : FieldNo) (u : FieldUnit) : (s.setUnit f u).issueTime = s.issueTime := rfl
@[simp] theorem State.setUnit_orders (f : FieldNo) (u : FieldUnit) : (s.setUnit f u).orders = s.orders := rfl
@[simp] theorem State.setUnit_parked (f : FieldNo) (u : FieldUnit) : (s.setUnit f u).parked = s.parked := rfl
@[simp] theorem State.setUnit_placement (f : FieldNo) (u : FieldUnit) : (s.setUnit f u).placement = s.placement := rfl
@[simp] theorem State.setUnit_stations (f : FieldNo) (u : FieldUnit) : (s.setUnit f u).stations = s.stations := rfl
@[simp] theorem State.setUnit_prepLimit (f : FieldNo) (u : FieldUnit) : (s.setUnit f u).prepLimit = s.prepLimit := rfl
@[simp] theorem State.setUnit_hold (f : FieldNo) (u : FieldUnit) : (s.setUnit f u).hold = s.hold := rfl
@[simp] theorem State.setUnit_trips (f : FieldNo) (u : FieldUnit) : (s.setUnit f u).trips = s.trips := rfl
@[simp] theorem State.setUnit_readyList (f : FieldNo) (u : FieldUnit) : (s.setUnit f u).readyList = s.readyList := rfl
@[simp] theorem State.setUnit_window (f : FieldNo) (u : FieldUnit) : (s.setUnit f u).window = s.window := rfl
@[simp] theorem State.setUnit_attention (f : FieldNo) (u : FieldUnit) : (s.setUnit f u).attention = s.attention := rfl
@[simp] theorem State.setUnit_port (f : FieldNo) (u : FieldUnit) : (s.setUnit f u).port = s.port := rfl
@[simp] theorem State.setUnit_phase (f : FieldNo) (u : FieldUnit) : (s.setUnit f u).phase = s.phase := rfl
@[simp] theorem State.setUnit_freeCount (f : FieldNo) (u : FieldUnit) : (s.setUnit f u).freeCount = s.freeCount := rfl
@[simp] theorem State.setUnit_pending (f : FieldNo) (u : FieldUnit) : (s.setUnit f u).pending = s.pending := rfl

/-! `setEntry` writes `entries` alone. -/

@[simp] theorem State.setEntry_fieldUnits (h : CarHandle) (e : Entry) : (s.setEntry h e).fieldUnits = s.fieldUnits := rfl
@[simp] theorem State.setEntry_serialCounter (h : CarHandle) (e : Entry) : (s.setEntry h e).serialCounter = s.serialCounter := rfl
@[simp] theorem State.setEntry_lanes (h : CarHandle) (e : Entry) : (s.setEntry h e).lanes = s.lanes := rfl
@[simp] theorem State.setEntry_tallies (h : CarHandle) (e : Entry) : (s.setEntry h e).tallies = s.tallies := rfl
@[simp] theorem State.setEntry_programs (h : CarHandle) (e : Entry) : (s.setEntry h e).programs = s.programs := rfl
@[simp] theorem State.setEntry_timebases (h : CarHandle) (e : Entry) : (s.setEntry h e).timebases = s.timebases := rfl
@[simp] theorem State.setEntry_sets (h : CarHandle) (e : Entry) : (s.setEntry h e).sets = s.sets := rfl
@[simp] theorem State.setEntry_bays (h : CarHandle) (e : Entry) : (s.setEntry h e).bays = s.bays := rfl
@[simp] theorem State.setEntry_readyLevel (h : CarHandle) (e : Entry) : (s.setEntry h e).readyLevel = s.readyLevel := rfl
@[simp] theorem State.setEntry_issueTime (h : CarHandle) (e : Entry) : (s.setEntry h e).issueTime = s.issueTime := rfl
@[simp] theorem State.setEntry_orders (h : CarHandle) (e : Entry) : (s.setEntry h e).orders = s.orders := rfl
@[simp] theorem State.setEntry_parked (h : CarHandle) (e : Entry) : (s.setEntry h e).parked = s.parked := rfl
@[simp] theorem State.setEntry_placement (h : CarHandle) (e : Entry) : (s.setEntry h e).placement = s.placement := rfl
@[simp] theorem State.setEntry_stations (h : CarHandle) (e : Entry) : (s.setEntry h e).stations = s.stations := rfl
@[simp] theorem State.setEntry_prepLimit (h : CarHandle) (e : Entry) : (s.setEntry h e).prepLimit = s.prepLimit := rfl
@[simp] theorem State.setEntry_hold (h : CarHandle) (e : Entry) : (s.setEntry h e).hold = s.hold := rfl
@[simp] theorem State.setEntry_trips (h : CarHandle) (e : Entry) : (s.setEntry h e).trips = s.trips := rfl
@[simp] theorem State.setEntry_readyList (h : CarHandle) (e : Entry) : (s.setEntry h e).readyList = s.readyList := rfl
@[simp] theorem State.setEntry_window (h : CarHandle) (e : Entry) : (s.setEntry h e).window = s.window := rfl
@[simp] theorem State.setEntry_attention (h : CarHandle) (e : Entry) : (s.setEntry h e).attention = s.attention := rfl
@[simp] theorem State.setEntry_port (h : CarHandle) (e : Entry) : (s.setEntry h e).port = s.port := rfl
@[simp] theorem State.setEntry_phase (h : CarHandle) (e : Entry) : (s.setEntry h e).phase = s.phase := rfl
@[simp] theorem State.setEntry_freeCount (h : CarHandle) (e : Entry) : (s.setEntry h e).freeCount = s.freeCount := rfl
@[simp] theorem State.setEntry_pending (h : CarHandle) (e : Entry) : (s.setEntry h e).pending = s.pending := rfl

/-! `setCar` writes `entries` alone. -/

@[simp] theorem State.setCar_fieldUnits (h : CarHandle) (c : Option Car) : (s.setCar h c).fieldUnits = s.fieldUnits := rfl
@[simp] theorem State.setCar_serialCounter (h : CarHandle) (c : Option Car) : (s.setCar h c).serialCounter = s.serialCounter := rfl
@[simp] theorem State.setCar_lanes (h : CarHandle) (c : Option Car) : (s.setCar h c).lanes = s.lanes := rfl
@[simp] theorem State.setCar_tallies (h : CarHandle) (c : Option Car) : (s.setCar h c).tallies = s.tallies := rfl
@[simp] theorem State.setCar_programs (h : CarHandle) (c : Option Car) : (s.setCar h c).programs = s.programs := rfl
@[simp] theorem State.setCar_timebases (h : CarHandle) (c : Option Car) : (s.setCar h c).timebases = s.timebases := rfl
@[simp] theorem State.setCar_sets (h : CarHandle) (c : Option Car) : (s.setCar h c).sets = s.sets := rfl
@[simp] theorem State.setCar_bays (h : CarHandle) (c : Option Car) : (s.setCar h c).bays = s.bays := rfl
@[simp] theorem State.setCar_readyLevel (h : CarHandle) (c : Option Car) : (s.setCar h c).readyLevel = s.readyLevel := rfl
@[simp] theorem State.setCar_issueTime (h : CarHandle) (c : Option Car) : (s.setCar h c).issueTime = s.issueTime := rfl
@[simp] theorem State.setCar_orders (h : CarHandle) (c : Option Car) : (s.setCar h c).orders = s.orders := rfl
@[simp] theorem State.setCar_parked (h : CarHandle) (c : Option Car) : (s.setCar h c).parked = s.parked := rfl
@[simp] theorem State.setCar_placement (h : CarHandle) (c : Option Car) : (s.setCar h c).placement = s.placement := rfl
@[simp] theorem State.setCar_stations (h : CarHandle) (c : Option Car) : (s.setCar h c).stations = s.stations := rfl
@[simp] theorem State.setCar_prepLimit (h : CarHandle) (c : Option Car) : (s.setCar h c).prepLimit = s.prepLimit := rfl
@[simp] theorem State.setCar_hold (h : CarHandle) (c : Option Car) : (s.setCar h c).hold = s.hold := rfl
@[simp] theorem State.setCar_trips (h : CarHandle) (c : Option Car) : (s.setCar h c).trips = s.trips := rfl
@[simp] theorem State.setCar_readyList (h : CarHandle) (c : Option Car) : (s.setCar h c).readyList = s.readyList := rfl
@[simp] theorem State.setCar_window (h : CarHandle) (c : Option Car) : (s.setCar h c).window = s.window := rfl
@[simp] theorem State.setCar_attention (h : CarHandle) (c : Option Car) : (s.setCar h c).attention = s.attention := rfl
@[simp] theorem State.setCar_port (h : CarHandle) (c : Option Car) : (s.setCar h c).port = s.port := rfl
@[simp] theorem State.setCar_phase (h : CarHandle) (c : Option Car) : (s.setCar h c).phase = s.phase := rfl
@[simp] theorem State.setCar_freeCount (h : CarHandle) (c : Option Car) : (s.setCar h c).freeCount = s.freeCount := rfl
@[simp] theorem State.setCar_pending (h : CarHandle) (c : Option Car) : (s.setCar h c).pending = s.pending := rfl

/-! `modCar` writes `entries` alone. -/

@[simp] theorem State.modCar_fieldUnits (h : CarHandle) (g : Car → Car) : (s.modCar h g).fieldUnits = s.fieldUnits := rfl
@[simp] theorem State.modCar_serialCounter (h : CarHandle) (g : Car → Car) : (s.modCar h g).serialCounter = s.serialCounter := rfl
@[simp] theorem State.modCar_lanes (h : CarHandle) (g : Car → Car) : (s.modCar h g).lanes = s.lanes := rfl
@[simp] theorem State.modCar_tallies (h : CarHandle) (g : Car → Car) : (s.modCar h g).tallies = s.tallies := rfl
@[simp] theorem State.modCar_programs (h : CarHandle) (g : Car → Car) : (s.modCar h g).programs = s.programs := rfl
@[simp] theorem State.modCar_timebases (h : CarHandle) (g : Car → Car) : (s.modCar h g).timebases = s.timebases := rfl
@[simp] theorem State.modCar_sets (h : CarHandle) (g : Car → Car) : (s.modCar h g).sets = s.sets := rfl
@[simp] theorem State.modCar_bays (h : CarHandle) (g : Car → Car) : (s.modCar h g).bays = s.bays := rfl
@[simp] theorem State.modCar_readyLevel (h : CarHandle) (g : Car → Car) : (s.modCar h g).readyLevel = s.readyLevel := rfl
@[simp] theorem State.modCar_issueTime (h : CarHandle) (g : Car → Car) : (s.modCar h g).issueTime = s.issueTime := rfl
@[simp] theorem State.modCar_orders (h : CarHandle) (g : Car → Car) : (s.modCar h g).orders = s.orders := rfl
@[simp] theorem State.modCar_parked (h : CarHandle) (g : Car → Car) : (s.modCar h g).parked = s.parked := rfl
@[simp] theorem State.modCar_placement (h : CarHandle) (g : Car → Car) : (s.modCar h g).placement = s.placement := rfl
@[simp] theorem State.modCar_stations (h : CarHandle) (g : Car → Car) : (s.modCar h g).stations = s.stations := rfl
@[simp] theorem State.modCar_prepLimit (h : CarHandle) (g : Car → Car) : (s.modCar h g).prepLimit = s.prepLimit := rfl
@[simp] theorem State.modCar_hold (h : CarHandle) (g : Car → Car) : (s.modCar h g).hold = s.hold := rfl
@[simp] theorem State.modCar_trips (h : CarHandle) (g : Car → Car) : (s.modCar h g).trips = s.trips := rfl
@[simp] theorem State.modCar_readyList (h : CarHandle) (g : Car → Car) : (s.modCar h g).readyList = s.readyList := rfl
@[simp] theorem State.modCar_window (h : CarHandle) (g : Car → Car) : (s.modCar h g).window = s.window := rfl
@[simp] theorem State.modCar_attention (h : CarHandle) (g : Car → Car) : (s.modCar h g).attention = s.attention := rfl
@[simp] theorem State.modCar_port (h : CarHandle) (g : Car → Car) : (s.modCar h g).port = s.port := rfl
@[simp] theorem State.modCar_phase (h : CarHandle) (g : Car → Car) : (s.modCar h g).phase = s.phase := rfl
@[simp] theorem State.modCar_freeCount (h : CarHandle) (g : Car → Car) : (s.modCar h g).freeCount = s.freeCount := rfl
@[simp] theorem State.modCar_pending (h : CarHandle) (g : Car → Car) : (s.modCar h g).pending = s.pending := rfl

/-! `setLane` writes `lanes` alone. -/

@[simp] theorem State.setLane_fieldUnits (l : LaneNo) (x : Lane) : (s.setLane l x).fieldUnits = s.fieldUnits := rfl
@[simp] theorem State.setLane_entries (l : LaneNo) (x : Lane) : (s.setLane l x).entries = s.entries := rfl
@[simp] theorem State.setLane_serialCounter (l : LaneNo) (x : Lane) : (s.setLane l x).serialCounter = s.serialCounter := rfl
@[simp] theorem State.setLane_tallies (l : LaneNo) (x : Lane) : (s.setLane l x).tallies = s.tallies := rfl
@[simp] theorem State.setLane_programs (l : LaneNo) (x : Lane) : (s.setLane l x).programs = s.programs := rfl
@[simp] theorem State.setLane_timebases (l : LaneNo) (x : Lane) : (s.setLane l x).timebases = s.timebases := rfl
@[simp] theorem State.setLane_sets (l : LaneNo) (x : Lane) : (s.setLane l x).sets = s.sets := rfl
@[simp] theorem State.setLane_bays (l : LaneNo) (x : Lane) : (s.setLane l x).bays = s.bays := rfl
@[simp] theorem State.setLane_readyLevel (l : LaneNo) (x : Lane) : (s.setLane l x).readyLevel = s.readyLevel := rfl
@[simp] theorem State.setLane_issueTime (l : LaneNo) (x : Lane) : (s.setLane l x).issueTime = s.issueTime := rfl
@[simp] theorem State.setLane_orders (l : LaneNo) (x : Lane) : (s.setLane l x).orders = s.orders := rfl
@[simp] theorem State.setLane_parked (l : LaneNo) (x : Lane) : (s.setLane l x).parked = s.parked := rfl
@[simp] theorem State.setLane_placement (l : LaneNo) (x : Lane) : (s.setLane l x).placement = s.placement := rfl
@[simp] theorem State.setLane_stations (l : LaneNo) (x : Lane) : (s.setLane l x).stations = s.stations := rfl
@[simp] theorem State.setLane_prepLimit (l : LaneNo) (x : Lane) : (s.setLane l x).prepLimit = s.prepLimit := rfl
@[simp] theorem State.setLane_hold (l : LaneNo) (x : Lane) : (s.setLane l x).hold = s.hold := rfl
@[simp] theorem State.setLane_trips (l : LaneNo) (x : Lane) : (s.setLane l x).trips = s.trips := rfl
@[simp] theorem State.setLane_readyList (l : LaneNo) (x : Lane) : (s.setLane l x).readyList = s.readyList := rfl
@[simp] theorem State.setLane_window (l : LaneNo) (x : Lane) : (s.setLane l x).window = s.window := rfl
@[simp] theorem State.setLane_attention (l : LaneNo) (x : Lane) : (s.setLane l x).attention = s.attention := rfl
@[simp] theorem State.setLane_port (l : LaneNo) (x : Lane) : (s.setLane l x).port = s.port := rfl
@[simp] theorem State.setLane_phase (l : LaneNo) (x : Lane) : (s.setLane l x).phase = s.phase := rfl
@[simp] theorem State.setLane_freeCount (l : LaneNo) (x : Lane) : (s.setLane l x).freeCount = s.freeCount := rfl
@[simp] theorem State.setLane_pending (l : LaneNo) (x : Lane) : (s.setLane l x).pending = s.pending := rfl

/-! `setProgram` writes `programs` alone. -/

@[simp] theorem State.setProgram_fieldUnits (f : FieldNo) (p : ProgramUnit) : (s.setProgram f p).fieldUnits = s.fieldUnits := rfl
@[simp] theorem State.setProgram_entries (f : FieldNo) (p : ProgramUnit) : (s.setProgram f p).entries = s.entries := rfl
@[simp] theorem State.setProgram_serialCounter (f : FieldNo) (p : ProgramUnit) : (s.setProgram f p).serialCounter = s.serialCounter := rfl
@[simp] theorem State.setProgram_lanes (f : FieldNo) (p : ProgramUnit) : (s.setProgram f p).lanes = s.lanes := rfl
@[simp] theorem State.setProgram_tallies (f : FieldNo) (p : ProgramUnit) : (s.setProgram f p).tallies = s.tallies := rfl
@[simp] theorem State.setProgram_timebases (f : FieldNo) (p : ProgramUnit) : (s.setProgram f p).timebases = s.timebases := rfl
@[simp] theorem State.setProgram_sets (f : FieldNo) (p : ProgramUnit) : (s.setProgram f p).sets = s.sets := rfl
@[simp] theorem State.setProgram_bays (f : FieldNo) (p : ProgramUnit) : (s.setProgram f p).bays = s.bays := rfl
@[simp] theorem State.setProgram_readyLevel (f : FieldNo) (p : ProgramUnit) : (s.setProgram f p).readyLevel = s.readyLevel := rfl
@[simp] theorem State.setProgram_issueTime (f : FieldNo) (p : ProgramUnit) : (s.setProgram f p).issueTime = s.issueTime := rfl
@[simp] theorem State.setProgram_orders (f : FieldNo) (p : ProgramUnit) : (s.setProgram f p).orders = s.orders := rfl
@[simp] theorem State.setProgram_parked (f : FieldNo) (p : ProgramUnit) : (s.setProgram f p).parked = s.parked := rfl
@[simp] theorem State.setProgram_placement (f : FieldNo) (p : ProgramUnit) : (s.setProgram f p).placement = s.placement := rfl
@[simp] theorem State.setProgram_stations (f : FieldNo) (p : ProgramUnit) : (s.setProgram f p).stations = s.stations := rfl
@[simp] theorem State.setProgram_prepLimit (f : FieldNo) (p : ProgramUnit) : (s.setProgram f p).prepLimit = s.prepLimit := rfl
@[simp] theorem State.setProgram_hold (f : FieldNo) (p : ProgramUnit) : (s.setProgram f p).hold = s.hold := rfl
@[simp] theorem State.setProgram_trips (f : FieldNo) (p : ProgramUnit) : (s.setProgram f p).trips = s.trips := rfl
@[simp] theorem State.setProgram_readyList (f : FieldNo) (p : ProgramUnit) : (s.setProgram f p).readyList = s.readyList := rfl
@[simp] theorem State.setProgram_window (f : FieldNo) (p : ProgramUnit) : (s.setProgram f p).window = s.window := rfl
@[simp] theorem State.setProgram_attention (f : FieldNo) (p : ProgramUnit) : (s.setProgram f p).attention = s.attention := rfl
@[simp] theorem State.setProgram_port (f : FieldNo) (p : ProgramUnit) : (s.setProgram f p).port = s.port := rfl
@[simp] theorem State.setProgram_phase (f : FieldNo) (p : ProgramUnit) : (s.setProgram f p).phase = s.phase := rfl
@[simp] theorem State.setProgram_freeCount (f : FieldNo) (p : ProgramUnit) : (s.setProgram f p).freeCount = s.freeCount := rfl
@[simp] theorem State.setProgram_pending (f : FieldNo) (p : ProgramUnit) : (s.setProgram f p).pending = s.pending := rfl

/-! `setTimebase` writes `timebases` alone. -/

@[simp] theorem State.setTimebase_fieldUnits (f : FieldNo) (t : Timebase) : (s.setTimebase f t).fieldUnits = s.fieldUnits := rfl
@[simp] theorem State.setTimebase_entries (f : FieldNo) (t : Timebase) : (s.setTimebase f t).entries = s.entries := rfl
@[simp] theorem State.setTimebase_serialCounter (f : FieldNo) (t : Timebase) : (s.setTimebase f t).serialCounter = s.serialCounter := rfl
@[simp] theorem State.setTimebase_lanes (f : FieldNo) (t : Timebase) : (s.setTimebase f t).lanes = s.lanes := rfl
@[simp] theorem State.setTimebase_tallies (f : FieldNo) (t : Timebase) : (s.setTimebase f t).tallies = s.tallies := rfl
@[simp] theorem State.setTimebase_programs (f : FieldNo) (t : Timebase) : (s.setTimebase f t).programs = s.programs := rfl
@[simp] theorem State.setTimebase_sets (f : FieldNo) (t : Timebase) : (s.setTimebase f t).sets = s.sets := rfl
@[simp] theorem State.setTimebase_bays (f : FieldNo) (t : Timebase) : (s.setTimebase f t).bays = s.bays := rfl
@[simp] theorem State.setTimebase_readyLevel (f : FieldNo) (t : Timebase) : (s.setTimebase f t).readyLevel = s.readyLevel := rfl
@[simp] theorem State.setTimebase_issueTime (f : FieldNo) (t : Timebase) : (s.setTimebase f t).issueTime = s.issueTime := rfl
@[simp] theorem State.setTimebase_orders (f : FieldNo) (t : Timebase) : (s.setTimebase f t).orders = s.orders := rfl
@[simp] theorem State.setTimebase_parked (f : FieldNo) (t : Timebase) : (s.setTimebase f t).parked = s.parked := rfl
@[simp] theorem State.setTimebase_placement (f : FieldNo) (t : Timebase) : (s.setTimebase f t).placement = s.placement := rfl
@[simp] theorem State.setTimebase_stations (f : FieldNo) (t : Timebase) : (s.setTimebase f t).stations = s.stations := rfl
@[simp] theorem State.setTimebase_prepLimit (f : FieldNo) (t : Timebase) : (s.setTimebase f t).prepLimit = s.prepLimit := rfl
@[simp] theorem State.setTimebase_hold (f : FieldNo) (t : Timebase) : (s.setTimebase f t).hold = s.hold := rfl
@[simp] theorem State.setTimebase_trips (f : FieldNo) (t : Timebase) : (s.setTimebase f t).trips = s.trips := rfl
@[simp] theorem State.setTimebase_readyList (f : FieldNo) (t : Timebase) : (s.setTimebase f t).readyList = s.readyList := rfl
@[simp] theorem State.setTimebase_window (f : FieldNo) (t : Timebase) : (s.setTimebase f t).window = s.window := rfl
@[simp] theorem State.setTimebase_attention (f : FieldNo) (t : Timebase) : (s.setTimebase f t).attention = s.attention := rfl
@[simp] theorem State.setTimebase_port (f : FieldNo) (t : Timebase) : (s.setTimebase f t).port = s.port := rfl
@[simp] theorem State.setTimebase_phase (f : FieldNo) (t : Timebase) : (s.setTimebase f t).phase = s.phase := rfl
@[simp] theorem State.setTimebase_freeCount (f : FieldNo) (t : Timebase) : (s.setTimebase f t).freeCount = s.freeCount := rfl
@[simp] theorem State.setTimebase_pending (f : FieldNo) (t : Timebase) : (s.setTimebase f t).pending = s.pending := rfl

/-! `setSlot` writes `sets` alone. -/

@[simp] theorem State.setSlot_fieldUnits (n : SetHandle) (x : SetSlot) : (s.setSlot n x).fieldUnits = s.fieldUnits := rfl
@[simp] theorem State.setSlot_entries (n : SetHandle) (x : SetSlot) : (s.setSlot n x).entries = s.entries := rfl
@[simp] theorem State.setSlot_serialCounter (n : SetHandle) (x : SetSlot) : (s.setSlot n x).serialCounter = s.serialCounter := rfl
@[simp] theorem State.setSlot_lanes (n : SetHandle) (x : SetSlot) : (s.setSlot n x).lanes = s.lanes := rfl
@[simp] theorem State.setSlot_tallies (n : SetHandle) (x : SetSlot) : (s.setSlot n x).tallies = s.tallies := rfl
@[simp] theorem State.setSlot_programs (n : SetHandle) (x : SetSlot) : (s.setSlot n x).programs = s.programs := rfl
@[simp] theorem State.setSlot_timebases (n : SetHandle) (x : SetSlot) : (s.setSlot n x).timebases = s.timebases := rfl
@[simp] theorem State.setSlot_bays (n : SetHandle) (x : SetSlot) : (s.setSlot n x).bays = s.bays := rfl
@[simp] theorem State.setSlot_readyLevel (n : SetHandle) (x : SetSlot) : (s.setSlot n x).readyLevel = s.readyLevel := rfl
@[simp] theorem State.setSlot_issueTime (n : SetHandle) (x : SetSlot) : (s.setSlot n x).issueTime = s.issueTime := rfl
@[simp] theorem State.setSlot_orders (n : SetHandle) (x : SetSlot) : (s.setSlot n x).orders = s.orders := rfl
@[simp] theorem State.setSlot_parked (n : SetHandle) (x : SetSlot) : (s.setSlot n x).parked = s.parked := rfl
@[simp] theorem State.setSlot_placement (n : SetHandle) (x : SetSlot) : (s.setSlot n x).placement = s.placement := rfl
@[simp] theorem State.setSlot_stations (n : SetHandle) (x : SetSlot) : (s.setSlot n x).stations = s.stations := rfl
@[simp] theorem State.setSlot_prepLimit (n : SetHandle) (x : SetSlot) : (s.setSlot n x).prepLimit = s.prepLimit := rfl
@[simp] theorem State.setSlot_hold (n : SetHandle) (x : SetSlot) : (s.setSlot n x).hold = s.hold := rfl
@[simp] theorem State.setSlot_trips (n : SetHandle) (x : SetSlot) : (s.setSlot n x).trips = s.trips := rfl
@[simp] theorem State.setSlot_readyList (n : SetHandle) (x : SetSlot) : (s.setSlot n x).readyList = s.readyList := rfl
@[simp] theorem State.setSlot_window (n : SetHandle) (x : SetSlot) : (s.setSlot n x).window = s.window := rfl
@[simp] theorem State.setSlot_attention (n : SetHandle) (x : SetSlot) : (s.setSlot n x).attention = s.attention := rfl
@[simp] theorem State.setSlot_port (n : SetHandle) (x : SetSlot) : (s.setSlot n x).port = s.port := rfl
@[simp] theorem State.setSlot_phase (n : SetHandle) (x : SetSlot) : (s.setSlot n x).phase = s.phase := rfl
@[simp] theorem State.setSlot_freeCount (n : SetHandle) (x : SetSlot) : (s.setSlot n x).freeCount = s.freeCount := rfl
@[simp] theorem State.setSlot_pending (n : SetHandle) (x : SetSlot) : (s.setSlot n x).pending = s.pending := rfl

/-! `setBay` writes `bays` alone. -/

@[simp] theorem State.setBay_fieldUnits (b : BayNo) (x : Option SetHandle) : (s.setBay b x).fieldUnits = s.fieldUnits := rfl
@[simp] theorem State.setBay_entries (b : BayNo) (x : Option SetHandle) : (s.setBay b x).entries = s.entries := rfl
@[simp] theorem State.setBay_serialCounter (b : BayNo) (x : Option SetHandle) : (s.setBay b x).serialCounter = s.serialCounter := rfl
@[simp] theorem State.setBay_lanes (b : BayNo) (x : Option SetHandle) : (s.setBay b x).lanes = s.lanes := rfl
@[simp] theorem State.setBay_tallies (b : BayNo) (x : Option SetHandle) : (s.setBay b x).tallies = s.tallies := rfl
@[simp] theorem State.setBay_programs (b : BayNo) (x : Option SetHandle) : (s.setBay b x).programs = s.programs := rfl
@[simp] theorem State.setBay_timebases (b : BayNo) (x : Option SetHandle) : (s.setBay b x).timebases = s.timebases := rfl
@[simp] theorem State.setBay_sets (b : BayNo) (x : Option SetHandle) : (s.setBay b x).sets = s.sets := rfl
@[simp] theorem State.setBay_readyLevel (b : BayNo) (x : Option SetHandle) : (s.setBay b x).readyLevel = s.readyLevel := rfl
@[simp] theorem State.setBay_issueTime (b : BayNo) (x : Option SetHandle) : (s.setBay b x).issueTime = s.issueTime := rfl
@[simp] theorem State.setBay_orders (b : BayNo) (x : Option SetHandle) : (s.setBay b x).orders = s.orders := rfl
@[simp] theorem State.setBay_parked (b : BayNo) (x : Option SetHandle) : (s.setBay b x).parked = s.parked := rfl
@[simp] theorem State.setBay_placement (b : BayNo) (x : Option SetHandle) : (s.setBay b x).placement = s.placement := rfl
@[simp] theorem State.setBay_stations (b : BayNo) (x : Option SetHandle) : (s.setBay b x).stations = s.stations := rfl
@[simp] theorem State.setBay_prepLimit (b : BayNo) (x : Option SetHandle) : (s.setBay b x).prepLimit = s.prepLimit := rfl
@[simp] theorem State.setBay_hold (b : BayNo) (x : Option SetHandle) : (s.setBay b x).hold = s.hold := rfl
@[simp] theorem State.setBay_trips (b : BayNo) (x : Option SetHandle) : (s.setBay b x).trips = s.trips := rfl
@[simp] theorem State.setBay_readyList (b : BayNo) (x : Option SetHandle) : (s.setBay b x).readyList = s.readyList := rfl
@[simp] theorem State.setBay_window (b : BayNo) (x : Option SetHandle) : (s.setBay b x).window = s.window := rfl
@[simp] theorem State.setBay_attention (b : BayNo) (x : Option SetHandle) : (s.setBay b x).attention = s.attention := rfl
@[simp] theorem State.setBay_port (b : BayNo) (x : Option SetHandle) : (s.setBay b x).port = s.port := rfl
@[simp] theorem State.setBay_phase (b : BayNo) (x : Option SetHandle) : (s.setBay b x).phase = s.phase := rfl
@[simp] theorem State.setBay_freeCount (b : BayNo) (x : Option SetHandle) : (s.setBay b x).freeCount = s.freeCount := rfl
@[simp] theorem State.setBay_pending (b : BayNo) (x : Option SetHandle) : (s.setBay b x).pending = s.pending := rfl

/-! `setOrder` writes `orders` alone. -/

@[simp] theorem State.setOrder_fieldUnits (o : OrderHandle) (x : Option Order) : (s.setOrder o x).fieldUnits = s.fieldUnits := rfl
@[simp] theorem State.setOrder_entries (o : OrderHandle) (x : Option Order) : (s.setOrder o x).entries = s.entries := rfl
@[simp] theorem State.setOrder_serialCounter (o : OrderHandle) (x : Option Order) : (s.setOrder o x).serialCounter = s.serialCounter := rfl
@[simp] theorem State.setOrder_lanes (o : OrderHandle) (x : Option Order) : (s.setOrder o x).lanes = s.lanes := rfl
@[simp] theorem State.setOrder_tallies (o : OrderHandle) (x : Option Order) : (s.setOrder o x).tallies = s.tallies := rfl
@[simp] theorem State.setOrder_programs (o : OrderHandle) (x : Option Order) : (s.setOrder o x).programs = s.programs := rfl
@[simp] theorem State.setOrder_timebases (o : OrderHandle) (x : Option Order) : (s.setOrder o x).timebases = s.timebases := rfl
@[simp] theorem State.setOrder_sets (o : OrderHandle) (x : Option Order) : (s.setOrder o x).sets = s.sets := rfl
@[simp] theorem State.setOrder_bays (o : OrderHandle) (x : Option Order) : (s.setOrder o x).bays = s.bays := rfl
@[simp] theorem State.setOrder_readyLevel (o : OrderHandle) (x : Option Order) : (s.setOrder o x).readyLevel = s.readyLevel := rfl
@[simp] theorem State.setOrder_issueTime (o : OrderHandle) (x : Option Order) : (s.setOrder o x).issueTime = s.issueTime := rfl
@[simp] theorem State.setOrder_parked (o : OrderHandle) (x : Option Order) : (s.setOrder o x).parked = s.parked := rfl
@[simp] theorem State.setOrder_placement (o : OrderHandle) (x : Option Order) : (s.setOrder o x).placement = s.placement := rfl
@[simp] theorem State.setOrder_stations (o : OrderHandle) (x : Option Order) : (s.setOrder o x).stations = s.stations := rfl
@[simp] theorem State.setOrder_prepLimit (o : OrderHandle) (x : Option Order) : (s.setOrder o x).prepLimit = s.prepLimit := rfl
@[simp] theorem State.setOrder_hold (o : OrderHandle) (x : Option Order) : (s.setOrder o x).hold = s.hold := rfl
@[simp] theorem State.setOrder_trips (o : OrderHandle) (x : Option Order) : (s.setOrder o x).trips = s.trips := rfl
@[simp] theorem State.setOrder_readyList (o : OrderHandle) (x : Option Order) : (s.setOrder o x).readyList = s.readyList := rfl
@[simp] theorem State.setOrder_window (o : OrderHandle) (x : Option Order) : (s.setOrder o x).window = s.window := rfl
@[simp] theorem State.setOrder_attention (o : OrderHandle) (x : Option Order) : (s.setOrder o x).attention = s.attention := rfl
@[simp] theorem State.setOrder_port (o : OrderHandle) (x : Option Order) : (s.setOrder o x).port = s.port := rfl
@[simp] theorem State.setOrder_phase (o : OrderHandle) (x : Option Order) : (s.setOrder o x).phase = s.phase := rfl
@[simp] theorem State.setOrder_freeCount (o : OrderHandle) (x : Option Order) : (s.setOrder o x).freeCount = s.freeCount := rfl
@[simp] theorem State.setOrder_pending (o : OrderHandle) (x : Option Order) : (s.setOrder o x).pending = s.pending := rfl

/-! `modOrder` writes `orders` alone. -/

@[simp] theorem State.modOrder_fieldUnits (o : OrderHandle) (g : Order → Order) : (s.modOrder o g).fieldUnits = s.fieldUnits := rfl
@[simp] theorem State.modOrder_entries (o : OrderHandle) (g : Order → Order) : (s.modOrder o g).entries = s.entries := rfl
@[simp] theorem State.modOrder_serialCounter (o : OrderHandle) (g : Order → Order) : (s.modOrder o g).serialCounter = s.serialCounter := rfl
@[simp] theorem State.modOrder_lanes (o : OrderHandle) (g : Order → Order) : (s.modOrder o g).lanes = s.lanes := rfl
@[simp] theorem State.modOrder_tallies (o : OrderHandle) (g : Order → Order) : (s.modOrder o g).tallies = s.tallies := rfl
@[simp] theorem State.modOrder_programs (o : OrderHandle) (g : Order → Order) : (s.modOrder o g).programs = s.programs := rfl
@[simp] theorem State.modOrder_timebases (o : OrderHandle) (g : Order → Order) : (s.modOrder o g).timebases = s.timebases := rfl
@[simp] theorem State.modOrder_sets (o : OrderHandle) (g : Order → Order) : (s.modOrder o g).sets = s.sets := rfl
@[simp] theorem State.modOrder_bays (o : OrderHandle) (g : Order → Order) : (s.modOrder o g).bays = s.bays := rfl
@[simp] theorem State.modOrder_readyLevel (o : OrderHandle) (g : Order → Order) : (s.modOrder o g).readyLevel = s.readyLevel := rfl
@[simp] theorem State.modOrder_issueTime (o : OrderHandle) (g : Order → Order) : (s.modOrder o g).issueTime = s.issueTime := rfl
@[simp] theorem State.modOrder_parked (o : OrderHandle) (g : Order → Order) : (s.modOrder o g).parked = s.parked := rfl
@[simp] theorem State.modOrder_placement (o : OrderHandle) (g : Order → Order) : (s.modOrder o g).placement = s.placement := rfl
@[simp] theorem State.modOrder_stations (o : OrderHandle) (g : Order → Order) : (s.modOrder o g).stations = s.stations := rfl
@[simp] theorem State.modOrder_prepLimit (o : OrderHandle) (g : Order → Order) : (s.modOrder o g).prepLimit = s.prepLimit := rfl
@[simp] theorem State.modOrder_hold (o : OrderHandle) (g : Order → Order) : (s.modOrder o g).hold = s.hold := rfl
@[simp] theorem State.modOrder_trips (o : OrderHandle) (g : Order → Order) : (s.modOrder o g).trips = s.trips := rfl
@[simp] theorem State.modOrder_readyList (o : OrderHandle) (g : Order → Order) : (s.modOrder o g).readyList = s.readyList := rfl
@[simp] theorem State.modOrder_window (o : OrderHandle) (g : Order → Order) : (s.modOrder o g).window = s.window := rfl
@[simp] theorem State.modOrder_attention (o : OrderHandle) (g : Order → Order) : (s.modOrder o g).attention = s.attention := rfl
@[simp] theorem State.modOrder_port (o : OrderHandle) (g : Order → Order) : (s.modOrder o g).port = s.port := rfl
@[simp] theorem State.modOrder_phase (o : OrderHandle) (g : Order → Order) : (s.modOrder o g).phase = s.phase := rfl
@[simp] theorem State.modOrder_freeCount (o : OrderHandle) (g : Order → Order) : (s.modOrder o g).freeCount = s.freeCount := rfl
@[simp] theorem State.modOrder_pending (o : OrderHandle) (g : Order → Order) : (s.modOrder o g).pending = s.pending := rfl

/-! `setStation` writes `stations` alone. -/

@[simp] theorem State.setStation_fieldUnits (n : StationNo) (x : Station) : (s.setStation n x).fieldUnits = s.fieldUnits := rfl
@[simp] theorem State.setStation_entries (n : StationNo) (x : Station) : (s.setStation n x).entries = s.entries := rfl
@[simp] theorem State.setStation_serialCounter (n : StationNo) (x : Station) : (s.setStation n x).serialCounter = s.serialCounter := rfl
@[simp] theorem State.setStation_lanes (n : StationNo) (x : Station) : (s.setStation n x).lanes = s.lanes := rfl
@[simp] theorem State.setStation_tallies (n : StationNo) (x : Station) : (s.setStation n x).tallies = s.tallies := rfl
@[simp] theorem State.setStation_programs (n : StationNo) (x : Station) : (s.setStation n x).programs = s.programs := rfl
@[simp] theorem State.setStation_timebases (n : StationNo) (x : Station) : (s.setStation n x).timebases = s.timebases := rfl
@[simp] theorem State.setStation_sets (n : StationNo) (x : Station) : (s.setStation n x).sets = s.sets := rfl
@[simp] theorem State.setStation_bays (n : StationNo) (x : Station) : (s.setStation n x).bays = s.bays := rfl
@[simp] theorem State.setStation_readyLevel (n : StationNo) (x : Station) : (s.setStation n x).readyLevel = s.readyLevel := rfl
@[simp] theorem State.setStation_issueTime (n : StationNo) (x : Station) : (s.setStation n x).issueTime = s.issueTime := rfl
@[simp] theorem State.setStation_orders (n : StationNo) (x : Station) : (s.setStation n x).orders = s.orders := rfl
@[simp] theorem State.setStation_parked (n : StationNo) (x : Station) : (s.setStation n x).parked = s.parked := rfl
@[simp] theorem State.setStation_placement (n : StationNo) (x : Station) : (s.setStation n x).placement = s.placement := rfl
@[simp] theorem State.setStation_prepLimit (n : StationNo) (x : Station) : (s.setStation n x).prepLimit = s.prepLimit := rfl
@[simp] theorem State.setStation_hold (n : StationNo) (x : Station) : (s.setStation n x).hold = s.hold := rfl
@[simp] theorem State.setStation_trips (n : StationNo) (x : Station) : (s.setStation n x).trips = s.trips := rfl
@[simp] theorem State.setStation_readyList (n : StationNo) (x : Station) : (s.setStation n x).readyList = s.readyList := rfl
@[simp] theorem State.setStation_window (n : StationNo) (x : Station) : (s.setStation n x).window = s.window := rfl
@[simp] theorem State.setStation_attention (n : StationNo) (x : Station) : (s.setStation n x).attention = s.attention := rfl
@[simp] theorem State.setStation_port (n : StationNo) (x : Station) : (s.setStation n x).port = s.port := rfl
@[simp] theorem State.setStation_phase (n : StationNo) (x : Station) : (s.setStation n x).phase = s.phase := rfl
@[simp] theorem State.setStation_freeCount (n : StationNo) (x : Station) : (s.setStation n x).freeCount = s.freeCount := rfl
@[simp] theorem State.setStation_pending (n : StationNo) (x : Station) : (s.setStation n x).pending = s.pending := rfl

/-! `setTrip` writes `trips` alone. -/

@[simp] theorem State.setTrip_fieldUnits (t : TripHandle) (x : Trip) : (s.setTrip t x).fieldUnits = s.fieldUnits := rfl
@[simp] theorem State.setTrip_entries (t : TripHandle) (x : Trip) : (s.setTrip t x).entries = s.entries := rfl
@[simp] theorem State.setTrip_serialCounter (t : TripHandle) (x : Trip) : (s.setTrip t x).serialCounter = s.serialCounter := rfl
@[simp] theorem State.setTrip_lanes (t : TripHandle) (x : Trip) : (s.setTrip t x).lanes = s.lanes := rfl
@[simp] theorem State.setTrip_tallies (t : TripHandle) (x : Trip) : (s.setTrip t x).tallies = s.tallies := rfl
@[simp] theorem State.setTrip_programs (t : TripHandle) (x : Trip) : (s.setTrip t x).programs = s.programs := rfl
@[simp] theorem State.setTrip_timebases (t : TripHandle) (x : Trip) : (s.setTrip t x).timebases = s.timebases := rfl
@[simp] theorem State.setTrip_sets (t : TripHandle) (x : Trip) : (s.setTrip t x).sets = s.sets := rfl
@[simp] theorem State.setTrip_bays (t : TripHandle) (x : Trip) : (s.setTrip t x).bays = s.bays := rfl
@[simp] theorem State.setTrip_readyLevel (t : TripHandle) (x : Trip) : (s.setTrip t x).readyLevel = s.readyLevel := rfl
@[simp] theorem State.setTrip_issueTime (t : TripHandle) (x : Trip) : (s.setTrip t x).issueTime = s.issueTime := rfl
@[simp] theorem State.setTrip_orders (t : TripHandle) (x : Trip) : (s.setTrip t x).orders = s.orders := rfl
@[simp] theorem State.setTrip_parked (t : TripHandle) (x : Trip) : (s.setTrip t x).parked = s.parked := rfl
@[simp] theorem State.setTrip_placement (t : TripHandle) (x : Trip) : (s.setTrip t x).placement = s.placement := rfl
@[simp] theorem State.setTrip_stations (t : TripHandle) (x : Trip) : (s.setTrip t x).stations = s.stations := rfl
@[simp] theorem State.setTrip_prepLimit (t : TripHandle) (x : Trip) : (s.setTrip t x).prepLimit = s.prepLimit := rfl
@[simp] theorem State.setTrip_hold (t : TripHandle) (x : Trip) : (s.setTrip t x).hold = s.hold := rfl
@[simp] theorem State.setTrip_readyList (t : TripHandle) (x : Trip) : (s.setTrip t x).readyList = s.readyList := rfl
@[simp] theorem State.setTrip_window (t : TripHandle) (x : Trip) : (s.setTrip t x).window = s.window := rfl
@[simp] theorem State.setTrip_attention (t : TripHandle) (x : Trip) : (s.setTrip t x).attention = s.attention := rfl
@[simp] theorem State.setTrip_port (t : TripHandle) (x : Trip) : (s.setTrip t x).port = s.port := rfl
@[simp] theorem State.setTrip_phase (t : TripHandle) (x : Trip) : (s.setTrip t x).phase = s.phase := rfl
@[simp] theorem State.setTrip_freeCount (t : TripHandle) (x : Trip) : (s.setTrip t x).freeCount = s.freeCount := rfl
@[simp] theorem State.setTrip_pending (t : TripHandle) (x : Trip) : (s.setTrip t x).pending = s.pending := rfl

/-! `count` writes `tallies` alone. -/

@[simp] theorem State.count_fieldUnits (k : Tally) (n : Nat) : (s.count k n).fieldUnits = s.fieldUnits := rfl
@[simp] theorem State.count_entries (k : Tally) (n : Nat) : (s.count k n).entries = s.entries := rfl
@[simp] theorem State.count_serialCounter (k : Tally) (n : Nat) : (s.count k n).serialCounter = s.serialCounter := rfl
@[simp] theorem State.count_lanes (k : Tally) (n : Nat) : (s.count k n).lanes = s.lanes := rfl
@[simp] theorem State.count_programs (k : Tally) (n : Nat) : (s.count k n).programs = s.programs := rfl
@[simp] theorem State.count_timebases (k : Tally) (n : Nat) : (s.count k n).timebases = s.timebases := rfl
@[simp] theorem State.count_sets (k : Tally) (n : Nat) : (s.count k n).sets = s.sets := rfl
@[simp] theorem State.count_bays (k : Tally) (n : Nat) : (s.count k n).bays = s.bays := rfl
@[simp] theorem State.count_readyLevel (k : Tally) (n : Nat) : (s.count k n).readyLevel = s.readyLevel := rfl
@[simp] theorem State.count_issueTime (k : Tally) (n : Nat) : (s.count k n).issueTime = s.issueTime := rfl
@[simp] theorem State.count_orders (k : Tally) (n : Nat) : (s.count k n).orders = s.orders := rfl
@[simp] theorem State.count_parked (k : Tally) (n : Nat) : (s.count k n).parked = s.parked := rfl
@[simp] theorem State.count_placement (k : Tally) (n : Nat) : (s.count k n).placement = s.placement := rfl
@[simp] theorem State.count_stations (k : Tally) (n : Nat) : (s.count k n).stations = s.stations := rfl
@[simp] theorem State.count_prepLimit (k : Tally) (n : Nat) : (s.count k n).prepLimit = s.prepLimit := rfl
@[simp] theorem State.count_hold (k : Tally) (n : Nat) : (s.count k n).hold = s.hold := rfl
@[simp] theorem State.count_trips (k : Tally) (n : Nat) : (s.count k n).trips = s.trips := rfl
@[simp] theorem State.count_readyList (k : Tally) (n : Nat) : (s.count k n).readyList = s.readyList := rfl
@[simp] theorem State.count_window (k : Tally) (n : Nat) : (s.count k n).window = s.window := rfl
@[simp] theorem State.count_attention (k : Tally) (n : Nat) : (s.count k n).attention = s.attention := rfl
@[simp] theorem State.count_port (k : Tally) (n : Nat) : (s.count k n).port = s.port := rfl
@[simp] theorem State.count_phase (k : Tally) (n : Nat) : (s.count k n).phase = s.phase := rfl
@[simp] theorem State.count_freeCount (k : Tally) (n : Nat) : (s.count k n).freeCount = s.freeCount := rfl
@[simp] theorem State.count_pending (k : Tally) (n : Nat) : (s.count k n).pending = s.pending := rfl

/-! `raise` writes `attention` alone. -/

@[simp] theorem State.raise_fieldUnits (c : Cause) : (s.raise c).fieldUnits = s.fieldUnits := rfl
@[simp] theorem State.raise_entries (c : Cause) : (s.raise c).entries = s.entries := rfl
@[simp] theorem State.raise_serialCounter (c : Cause) : (s.raise c).serialCounter = s.serialCounter := rfl
@[simp] theorem State.raise_lanes (c : Cause) : (s.raise c).lanes = s.lanes := rfl
@[simp] theorem State.raise_tallies (c : Cause) : (s.raise c).tallies = s.tallies := rfl
@[simp] theorem State.raise_programs (c : Cause) : (s.raise c).programs = s.programs := rfl
@[simp] theorem State.raise_timebases (c : Cause) : (s.raise c).timebases = s.timebases := rfl
@[simp] theorem State.raise_sets (c : Cause) : (s.raise c).sets = s.sets := rfl
@[simp] theorem State.raise_bays (c : Cause) : (s.raise c).bays = s.bays := rfl
@[simp] theorem State.raise_readyLevel (c : Cause) : (s.raise c).readyLevel = s.readyLevel := rfl
@[simp] theorem State.raise_issueTime (c : Cause) : (s.raise c).issueTime = s.issueTime := rfl
@[simp] theorem State.raise_orders (c : Cause) : (s.raise c).orders = s.orders := rfl
@[simp] theorem State.raise_parked (c : Cause) : (s.raise c).parked = s.parked := rfl
@[simp] theorem State.raise_placement (c : Cause) : (s.raise c).placement = s.placement := rfl
@[simp] theorem State.raise_stations (c : Cause) : (s.raise c).stations = s.stations := rfl
@[simp] theorem State.raise_prepLimit (c : Cause) : (s.raise c).prepLimit = s.prepLimit := rfl
@[simp] theorem State.raise_hold (c : Cause) : (s.raise c).hold = s.hold := rfl
@[simp] theorem State.raise_trips (c : Cause) : (s.raise c).trips = s.trips := rfl
@[simp] theorem State.raise_readyList (c : Cause) : (s.raise c).readyList = s.readyList := rfl
@[simp] theorem State.raise_window (c : Cause) : (s.raise c).window = s.window := rfl
@[simp] theorem State.raise_port (c : Cause) : (s.raise c).port = s.port := rfl
@[simp] theorem State.raise_phase (c : Cause) : (s.raise c).phase = s.phase := rfl
@[simp] theorem State.raise_freeCount (c : Cause) : (s.raise c).freeCount = s.freeCount := rfl
@[simp] theorem State.raise_pending (c : Cause) : (s.raise c).pending = s.pending := rfl

/-! `raiseTailgate` writes `attention` alone. -/

@[simp] theorem State.raiseTailgate_fieldUnits (l : LaneNo) : (s.raiseTailgate l).fieldUnits = s.fieldUnits := rfl
@[simp] theorem State.raiseTailgate_entries (l : LaneNo) : (s.raiseTailgate l).entries = s.entries := rfl
@[simp] theorem State.raiseTailgate_serialCounter (l : LaneNo) : (s.raiseTailgate l).serialCounter = s.serialCounter := rfl
@[simp] theorem State.raiseTailgate_lanes (l : LaneNo) : (s.raiseTailgate l).lanes = s.lanes := rfl
@[simp] theorem State.raiseTailgate_tallies (l : LaneNo) : (s.raiseTailgate l).tallies = s.tallies := rfl
@[simp] theorem State.raiseTailgate_programs (l : LaneNo) : (s.raiseTailgate l).programs = s.programs := rfl
@[simp] theorem State.raiseTailgate_timebases (l : LaneNo) : (s.raiseTailgate l).timebases = s.timebases := rfl
@[simp] theorem State.raiseTailgate_sets (l : LaneNo) : (s.raiseTailgate l).sets = s.sets := rfl
@[simp] theorem State.raiseTailgate_bays (l : LaneNo) : (s.raiseTailgate l).bays = s.bays := rfl
@[simp] theorem State.raiseTailgate_readyLevel (l : LaneNo) : (s.raiseTailgate l).readyLevel = s.readyLevel := rfl
@[simp] theorem State.raiseTailgate_issueTime (l : LaneNo) : (s.raiseTailgate l).issueTime = s.issueTime := rfl
@[simp] theorem State.raiseTailgate_orders (l : LaneNo) : (s.raiseTailgate l).orders = s.orders := rfl
@[simp] theorem State.raiseTailgate_parked (l : LaneNo) : (s.raiseTailgate l).parked = s.parked := rfl
@[simp] theorem State.raiseTailgate_placement (l : LaneNo) : (s.raiseTailgate l).placement = s.placement := rfl
@[simp] theorem State.raiseTailgate_stations (l : LaneNo) : (s.raiseTailgate l).stations = s.stations := rfl
@[simp] theorem State.raiseTailgate_prepLimit (l : LaneNo) : (s.raiseTailgate l).prepLimit = s.prepLimit := rfl
@[simp] theorem State.raiseTailgate_hold (l : LaneNo) : (s.raiseTailgate l).hold = s.hold := rfl
@[simp] theorem State.raiseTailgate_trips (l : LaneNo) : (s.raiseTailgate l).trips = s.trips := rfl
@[simp] theorem State.raiseTailgate_readyList (l : LaneNo) : (s.raiseTailgate l).readyList = s.readyList := rfl
@[simp] theorem State.raiseTailgate_window (l : LaneNo) : (s.raiseTailgate l).window = s.window := rfl
@[simp] theorem State.raiseTailgate_port (l : LaneNo) : (s.raiseTailgate l).port = s.port := rfl
@[simp] theorem State.raiseTailgate_phase (l : LaneNo) : (s.raiseTailgate l).phase = s.phase := rfl
@[simp] theorem State.raiseTailgate_freeCount (l : LaneNo) : (s.raiseTailgate l).freeCount = s.freeCount := rfl
@[simp] theorem State.raiseTailgate_pending (l : LaneNo) : (s.raiseTailgate l).pending = s.pending := rfl

/-! `raiseSegment` writes `attention` alone. -/

@[simp] theorem State.raiseSegment_fieldUnits (f : FieldNo) : (s.raiseSegment f).fieldUnits = s.fieldUnits := rfl
@[simp] theorem State.raiseSegment_entries (f : FieldNo) : (s.raiseSegment f).entries = s.entries := rfl
@[simp] theorem State.raiseSegment_serialCounter (f : FieldNo) : (s.raiseSegment f).serialCounter = s.serialCounter := rfl
@[simp] theorem State.raiseSegment_lanes (f : FieldNo) : (s.raiseSegment f).lanes = s.lanes := rfl
@[simp] theorem State.raiseSegment_tallies (f : FieldNo) : (s.raiseSegment f).tallies = s.tallies := rfl
@[simp] theorem State.raiseSegment_programs (f : FieldNo) : (s.raiseSegment f).programs = s.programs := rfl
@[simp] theorem State.raiseSegment_timebases (f : FieldNo) : (s.raiseSegment f).timebases = s.timebases := rfl
@[simp] theorem State.raiseSegment_sets (f : FieldNo) : (s.raiseSegment f).sets = s.sets := rfl
@[simp] theorem State.raiseSegment_bays (f : FieldNo) : (s.raiseSegment f).bays = s.bays := rfl
@[simp] theorem State.raiseSegment_readyLevel (f : FieldNo) : (s.raiseSegment f).readyLevel = s.readyLevel := rfl
@[simp] theorem State.raiseSegment_issueTime (f : FieldNo) : (s.raiseSegment f).issueTime = s.issueTime := rfl
@[simp] theorem State.raiseSegment_orders (f : FieldNo) : (s.raiseSegment f).orders = s.orders := rfl
@[simp] theorem State.raiseSegment_parked (f : FieldNo) : (s.raiseSegment f).parked = s.parked := rfl
@[simp] theorem State.raiseSegment_placement (f : FieldNo) : (s.raiseSegment f).placement = s.placement := rfl
@[simp] theorem State.raiseSegment_stations (f : FieldNo) : (s.raiseSegment f).stations = s.stations := rfl
@[simp] theorem State.raiseSegment_prepLimit (f : FieldNo) : (s.raiseSegment f).prepLimit = s.prepLimit := rfl
@[simp] theorem State.raiseSegment_hold (f : FieldNo) : (s.raiseSegment f).hold = s.hold := rfl
@[simp] theorem State.raiseSegment_trips (f : FieldNo) : (s.raiseSegment f).trips = s.trips := rfl
@[simp] theorem State.raiseSegment_readyList (f : FieldNo) : (s.raiseSegment f).readyList = s.readyList := rfl
@[simp] theorem State.raiseSegment_window (f : FieldNo) : (s.raiseSegment f).window = s.window := rfl
@[simp] theorem State.raiseSegment_port (f : FieldNo) : (s.raiseSegment f).port = s.port := rfl
@[simp] theorem State.raiseSegment_phase (f : FieldNo) : (s.raiseSegment f).phase = s.phase := rfl
@[simp] theorem State.raiseSegment_freeCount (f : FieldNo) : (s.raiseSegment f).freeCount = s.freeCount := rfl
@[simp] theorem State.raiseSegment_pending (f : FieldNo) : (s.raiseSegment f).pending = s.pending := rfl

/-! `raiseSound` writes `attention` alone. -/

@[simp] theorem State.raiseSound_fieldUnits (f : FieldNo) : (s.raiseSound f).fieldUnits = s.fieldUnits := rfl
@[simp] theorem State.raiseSound_entries (f : FieldNo) : (s.raiseSound f).entries = s.entries := rfl
@[simp] theorem State.raiseSound_serialCounter (f : FieldNo) : (s.raiseSound f).serialCounter = s.serialCounter := rfl
@[simp] theorem State.raiseSound_lanes (f : FieldNo) : (s.raiseSound f).lanes = s.lanes := rfl
@[simp] theorem State.raiseSound_tallies (f : FieldNo) : (s.raiseSound f).tallies = s.tallies := rfl
@[simp] theorem State.raiseSound_programs (f : FieldNo) : (s.raiseSound f).programs = s.programs := rfl
@[simp] theorem State.raiseSound_timebases (f : FieldNo) : (s.raiseSound f).timebases = s.timebases := rfl
@[simp] theorem State.raiseSound_sets (f : FieldNo) : (s.raiseSound f).sets = s.sets := rfl
@[simp] theorem State.raiseSound_bays (f : FieldNo) : (s.raiseSound f).bays = s.bays := rfl
@[simp] theorem State.raiseSound_readyLevel (f : FieldNo) : (s.raiseSound f).readyLevel = s.readyLevel := rfl
@[simp] theorem State.raiseSound_issueTime (f : FieldNo) : (s.raiseSound f).issueTime = s.issueTime := rfl
@[simp] theorem State.raiseSound_orders (f : FieldNo) : (s.raiseSound f).orders = s.orders := rfl
@[simp] theorem State.raiseSound_parked (f : FieldNo) : (s.raiseSound f).parked = s.parked := rfl
@[simp] theorem State.raiseSound_placement (f : FieldNo) : (s.raiseSound f).placement = s.placement := rfl
@[simp] theorem State.raiseSound_stations (f : FieldNo) : (s.raiseSound f).stations = s.stations := rfl
@[simp] theorem State.raiseSound_prepLimit (f : FieldNo) : (s.raiseSound f).prepLimit = s.prepLimit := rfl
@[simp] theorem State.raiseSound_hold (f : FieldNo) : (s.raiseSound f).hold = s.hold := rfl
@[simp] theorem State.raiseSound_trips (f : FieldNo) : (s.raiseSound f).trips = s.trips := rfl
@[simp] theorem State.raiseSound_readyList (f : FieldNo) : (s.raiseSound f).readyList = s.readyList := rfl
@[simp] theorem State.raiseSound_window (f : FieldNo) : (s.raiseSound f).window = s.window := rfl
@[simp] theorem State.raiseSound_port (f : FieldNo) : (s.raiseSound f).port = s.port := rfl
@[simp] theorem State.raiseSound_phase (f : FieldNo) : (s.raiseSound f).phase = s.phase := rfl
@[simp] theorem State.raiseSound_freeCount (f : FieldNo) : (s.raiseSound f).freeCount = s.freeCount := rfl
@[simp] theorem State.raiseSound_pending (f : FieldNo) : (s.raiseSound f).pending = s.pending := rfl

/-! `raiseSet` writes `attention` alone. -/

@[simp] theorem State.raiseSet_fieldUnits (k : SetKind) : (s.raiseSet k).fieldUnits = s.fieldUnits := rfl
@[simp] theorem State.raiseSet_entries (k : SetKind) : (s.raiseSet k).entries = s.entries := rfl
@[simp] theorem State.raiseSet_serialCounter (k : SetKind) : (s.raiseSet k).serialCounter = s.serialCounter := rfl
@[simp] theorem State.raiseSet_lanes (k : SetKind) : (s.raiseSet k).lanes = s.lanes := rfl
@[simp] theorem State.raiseSet_tallies (k : SetKind) : (s.raiseSet k).tallies = s.tallies := rfl
@[simp] theorem State.raiseSet_programs (k : SetKind) : (s.raiseSet k).programs = s.programs := rfl
@[simp] theorem State.raiseSet_timebases (k : SetKind) : (s.raiseSet k).timebases = s.timebases := rfl
@[simp] theorem State.raiseSet_sets (k : SetKind) : (s.raiseSet k).sets = s.sets := rfl
@[simp] theorem State.raiseSet_bays (k : SetKind) : (s.raiseSet k).bays = s.bays := rfl
@[simp] theorem State.raiseSet_readyLevel (k : SetKind) : (s.raiseSet k).readyLevel = s.readyLevel := rfl
@[simp] theorem State.raiseSet_issueTime (k : SetKind) : (s.raiseSet k).issueTime = s.issueTime := rfl
@[simp] theorem State.raiseSet_orders (k : SetKind) : (s.raiseSet k).orders = s.orders := rfl
@[simp] theorem State.raiseSet_parked (k : SetKind) : (s.raiseSet k).parked = s.parked := rfl
@[simp] theorem State.raiseSet_placement (k : SetKind) : (s.raiseSet k).placement = s.placement := rfl
@[simp] theorem State.raiseSet_stations (k : SetKind) : (s.raiseSet k).stations = s.stations := rfl
@[simp] theorem State.raiseSet_prepLimit (k : SetKind) : (s.raiseSet k).prepLimit = s.prepLimit := rfl
@[simp] theorem State.raiseSet_hold (k : SetKind) : (s.raiseSet k).hold = s.hold := rfl
@[simp] theorem State.raiseSet_trips (k : SetKind) : (s.raiseSet k).trips = s.trips := rfl
@[simp] theorem State.raiseSet_readyList (k : SetKind) : (s.raiseSet k).readyList = s.readyList := rfl
@[simp] theorem State.raiseSet_window (k : SetKind) : (s.raiseSet k).window = s.window := rfl
@[simp] theorem State.raiseSet_port (k : SetKind) : (s.raiseSet k).port = s.port := rfl
@[simp] theorem State.raiseSet_phase (k : SetKind) : (s.raiseSet k).phase = s.phase := rfl
@[simp] theorem State.raiseSet_freeCount (k : SetKind) : (s.raiseSet k).freeCount = s.freeCount := rfl
@[simp] theorem State.raiseSet_pending (k : SetKind) : (s.raiseSet k).pending = s.pending := rfl

/-! `raiseTrip` writes `attention` alone. -/

@[simp] theorem State.raiseTrip_fieldUnits (t : TripHandle) : (s.raiseTrip t).fieldUnits = s.fieldUnits := rfl
@[simp] theorem State.raiseTrip_entries (t : TripHandle) : (s.raiseTrip t).entries = s.entries := rfl
@[simp] theorem State.raiseTrip_serialCounter (t : TripHandle) : (s.raiseTrip t).serialCounter = s.serialCounter := rfl
@[simp] theorem State.raiseTrip_lanes (t : TripHandle) : (s.raiseTrip t).lanes = s.lanes := rfl
@[simp] theorem State.raiseTrip_tallies (t : TripHandle) : (s.raiseTrip t).tallies = s.tallies := rfl
@[simp] theorem State.raiseTrip_programs (t : TripHandle) : (s.raiseTrip t).programs = s.programs := rfl
@[simp] theorem State.raiseTrip_timebases (t : TripHandle) : (s.raiseTrip t).timebases = s.timebases := rfl
@[simp] theorem State.raiseTrip_sets (t : TripHandle) : (s.raiseTrip t).sets = s.sets := rfl
@[simp] theorem State.raiseTrip_bays (t : TripHandle) : (s.raiseTrip t).bays = s.bays := rfl
@[simp] theorem State.raiseTrip_readyLevel (t : TripHandle) : (s.raiseTrip t).readyLevel = s.readyLevel := rfl
@[simp] theorem State.raiseTrip_issueTime (t : TripHandle) : (s.raiseTrip t).issueTime = s.issueTime := rfl
@[simp] theorem State.raiseTrip_orders (t : TripHandle) : (s.raiseTrip t).orders = s.orders := rfl
@[simp] theorem State.raiseTrip_parked (t : TripHandle) : (s.raiseTrip t).parked = s.parked := rfl
@[simp] theorem State.raiseTrip_placement (t : TripHandle) : (s.raiseTrip t).placement = s.placement := rfl
@[simp] theorem State.raiseTrip_stations (t : TripHandle) : (s.raiseTrip t).stations = s.stations := rfl
@[simp] theorem State.raiseTrip_prepLimit (t : TripHandle) : (s.raiseTrip t).prepLimit = s.prepLimit := rfl
@[simp] theorem State.raiseTrip_hold (t : TripHandle) : (s.raiseTrip t).hold = s.hold := rfl
@[simp] theorem State.raiseTrip_trips (t : TripHandle) : (s.raiseTrip t).trips = s.trips := rfl
@[simp] theorem State.raiseTrip_readyList (t : TripHandle) : (s.raiseTrip t).readyList = s.readyList := rfl
@[simp] theorem State.raiseTrip_window (t : TripHandle) : (s.raiseTrip t).window = s.window := rfl
@[simp] theorem State.raiseTrip_port (t : TripHandle) : (s.raiseTrip t).port = s.port := rfl
@[simp] theorem State.raiseTrip_phase (t : TripHandle) : (s.raiseTrip t).phase = s.phase := rfl
@[simp] theorem State.raiseTrip_freeCount (t : TripHandle) : (s.raiseTrip t).freeCount = s.freeCount := rfl
@[simp] theorem State.raiseTrip_pending (t : TripHandle) : (s.raiseTrip t).pending = s.pending := rfl

/-! `raisePort` writes `attention` alone. -/

@[simp] theorem State.raisePort_fieldUnits (k : PortKind) : (s.raisePort k).fieldUnits = s.fieldUnits := rfl
@[simp] theorem State.raisePort_entries (k : PortKind) : (s.raisePort k).entries = s.entries := rfl
@[simp] theorem State.raisePort_serialCounter (k : PortKind) : (s.raisePort k).serialCounter = s.serialCounter := rfl
@[simp] theorem State.raisePort_lanes (k : PortKind) : (s.raisePort k).lanes = s.lanes := rfl
@[simp] theorem State.raisePort_tallies (k : PortKind) : (s.raisePort k).tallies = s.tallies := rfl
@[simp] theorem State.raisePort_programs (k : PortKind) : (s.raisePort k).programs = s.programs := rfl
@[simp] theorem State.raisePort_timebases (k : PortKind) : (s.raisePort k).timebases = s.timebases := rfl
@[simp] theorem State.raisePort_sets (k : PortKind) : (s.raisePort k).sets = s.sets := rfl
@[simp] theorem State.raisePort_bays (k : PortKind) : (s.raisePort k).bays = s.bays := rfl
@[simp] theorem State.raisePort_readyLevel (k : PortKind) : (s.raisePort k).readyLevel = s.readyLevel := rfl
@[simp] theorem State.raisePort_issueTime (k : PortKind) : (s.raisePort k).issueTime = s.issueTime := rfl
@[simp] theorem State.raisePort_orders (k : PortKind) : (s.raisePort k).orders = s.orders := rfl
@[simp] theorem State.raisePort_parked (k : PortKind) : (s.raisePort k).parked = s.parked := rfl
@[simp] theorem State.raisePort_placement (k : PortKind) : (s.raisePort k).placement = s.placement := rfl
@[simp] theorem State.raisePort_stations (k : PortKind) : (s.raisePort k).stations = s.stations := rfl
@[simp] theorem State.raisePort_prepLimit (k : PortKind) : (s.raisePort k).prepLimit = s.prepLimit := rfl
@[simp] theorem State.raisePort_hold (k : PortKind) : (s.raisePort k).hold = s.hold := rfl
@[simp] theorem State.raisePort_trips (k : PortKind) : (s.raisePort k).trips = s.trips := rfl
@[simp] theorem State.raisePort_readyList (k : PortKind) : (s.raisePort k).readyList = s.readyList := rfl
@[simp] theorem State.raisePort_window (k : PortKind) : (s.raisePort k).window = s.window := rfl
@[simp] theorem State.raisePort_port (k : PortKind) : (s.raisePort k).port = s.port := rfl
@[simp] theorem State.raisePort_phase (k : PortKind) : (s.raisePort k).phase = s.phase := rfl
@[simp] theorem State.raisePort_freeCount (k : PortKind) : (s.raisePort k).freeCount = s.freeCount := rfl
@[simp] theorem State.raisePort_pending (k : PortKind) : (s.raisePort k).pending = s.pending := rfl

/-! `raiseOrder` writes `attention` alone. -/

@[simp] theorem State.raiseOrder_fieldUnits (o : OrderHandle) (k : NoteKind) : (s.raiseOrder o k).fieldUnits = s.fieldUnits := rfl
@[simp] theorem State.raiseOrder_entries (o : OrderHandle) (k : NoteKind) : (s.raiseOrder o k).entries = s.entries := rfl
@[simp] theorem State.raiseOrder_serialCounter (o : OrderHandle) (k : NoteKind) : (s.raiseOrder o k).serialCounter = s.serialCounter := rfl
@[simp] theorem State.raiseOrder_lanes (o : OrderHandle) (k : NoteKind) : (s.raiseOrder o k).lanes = s.lanes := rfl
@[simp] theorem State.raiseOrder_tallies (o : OrderHandle) (k : NoteKind) : (s.raiseOrder o k).tallies = s.tallies := rfl
@[simp] theorem State.raiseOrder_programs (o : OrderHandle) (k : NoteKind) : (s.raiseOrder o k).programs = s.programs := rfl
@[simp] theorem State.raiseOrder_timebases (o : OrderHandle) (k : NoteKind) : (s.raiseOrder o k).timebases = s.timebases := rfl
@[simp] theorem State.raiseOrder_sets (o : OrderHandle) (k : NoteKind) : (s.raiseOrder o k).sets = s.sets := rfl
@[simp] theorem State.raiseOrder_bays (o : OrderHandle) (k : NoteKind) : (s.raiseOrder o k).bays = s.bays := rfl
@[simp] theorem State.raiseOrder_readyLevel (o : OrderHandle) (k : NoteKind) : (s.raiseOrder o k).readyLevel = s.readyLevel := rfl
@[simp] theorem State.raiseOrder_issueTime (o : OrderHandle) (k : NoteKind) : (s.raiseOrder o k).issueTime = s.issueTime := rfl
@[simp] theorem State.raiseOrder_orders (o : OrderHandle) (k : NoteKind) : (s.raiseOrder o k).orders = s.orders := rfl
@[simp] theorem State.raiseOrder_parked (o : OrderHandle) (k : NoteKind) : (s.raiseOrder o k).parked = s.parked := rfl
@[simp] theorem State.raiseOrder_placement (o : OrderHandle) (k : NoteKind) : (s.raiseOrder o k).placement = s.placement := rfl
@[simp] theorem State.raiseOrder_stations (o : OrderHandle) (k : NoteKind) : (s.raiseOrder o k).stations = s.stations := rfl
@[simp] theorem State.raiseOrder_prepLimit (o : OrderHandle) (k : NoteKind) : (s.raiseOrder o k).prepLimit = s.prepLimit := rfl
@[simp] theorem State.raiseOrder_hold (o : OrderHandle) (k : NoteKind) : (s.raiseOrder o k).hold = s.hold := rfl
@[simp] theorem State.raiseOrder_trips (o : OrderHandle) (k : NoteKind) : (s.raiseOrder o k).trips = s.trips := rfl
@[simp] theorem State.raiseOrder_readyList (o : OrderHandle) (k : NoteKind) : (s.raiseOrder o k).readyList = s.readyList := rfl
@[simp] theorem State.raiseOrder_window (o : OrderHandle) (k : NoteKind) : (s.raiseOrder o k).window = s.window := rfl
@[simp] theorem State.raiseOrder_port (o : OrderHandle) (k : NoteKind) : (s.raiseOrder o k).port = s.port := rfl
@[simp] theorem State.raiseOrder_phase (o : OrderHandle) (k : NoteKind) : (s.raiseOrder o k).phase = s.phase := rfl
@[simp] theorem State.raiseOrder_freeCount (o : OrderHandle) (k : NoteKind) : (s.raiseOrder o k).freeCount = s.freeCount := rfl
@[simp] theorem State.raiseOrder_pending (o : OrderHandle) (k : NoteKind) : (s.raiseOrder o k).pending = s.pending := rfl

/-! `setStall` writes `fieldUnits` alone. -/

@[simp] theorem State.setStall_entries (f : FieldNo) (st : Stall) (h : Option CarHandle) : (s.setStall f st h).entries = s.entries := rfl
@[simp] theorem State.setStall_serialCounter (f : FieldNo) (st : Stall) (h : Option CarHandle) : (s.setStall f st h).serialCounter = s.serialCounter := rfl
@[simp] theorem State.setStall_lanes (f : FieldNo) (st : Stall) (h : Option CarHandle) : (s.setStall f st h).lanes = s.lanes := rfl
@[simp] theorem State.setStall_tallies (f : FieldNo) (st : Stall) (h : Option CarHandle) : (s.setStall f st h).tallies = s.tallies := rfl
@[simp] theorem State.setStall_programs (f : FieldNo) (st : Stall) (h : Option CarHandle) : (s.setStall f st h).programs = s.programs := rfl
@[simp] theorem State.setStall_timebases (f : FieldNo) (st : Stall) (h : Option CarHandle) : (s.setStall f st h).timebases = s.timebases := rfl
@[simp] theorem State.setStall_sets (f : FieldNo) (st : Stall) (h : Option CarHandle) : (s.setStall f st h).sets = s.sets := rfl
@[simp] theorem State.setStall_bays (f : FieldNo) (st : Stall) (h : Option CarHandle) : (s.setStall f st h).bays = s.bays := rfl
@[simp] theorem State.setStall_readyLevel (f : FieldNo) (st : Stall) (h : Option CarHandle) : (s.setStall f st h).readyLevel = s.readyLevel := rfl
@[simp] theorem State.setStall_issueTime (f : FieldNo) (st : Stall) (h : Option CarHandle) : (s.setStall f st h).issueTime = s.issueTime := rfl
@[simp] theorem State.setStall_orders (f : FieldNo) (st : Stall) (h : Option CarHandle) : (s.setStall f st h).orders = s.orders := rfl
@[simp] theorem State.setStall_parked (f : FieldNo) (st : Stall) (h : Option CarHandle) : (s.setStall f st h).parked = s.parked := rfl
@[simp] theorem State.setStall_placement (f : FieldNo) (st : Stall) (h : Option CarHandle) : (s.setStall f st h).placement = s.placement := rfl
@[simp] theorem State.setStall_stations (f : FieldNo) (st : Stall) (h : Option CarHandle) : (s.setStall f st h).stations = s.stations := rfl
@[simp] theorem State.setStall_prepLimit (f : FieldNo) (st : Stall) (h : Option CarHandle) : (s.setStall f st h).prepLimit = s.prepLimit := rfl
@[simp] theorem State.setStall_hold (f : FieldNo) (st : Stall) (h : Option CarHandle) : (s.setStall f st h).hold = s.hold := rfl
@[simp] theorem State.setStall_trips (f : FieldNo) (st : Stall) (h : Option CarHandle) : (s.setStall f st h).trips = s.trips := rfl
@[simp] theorem State.setStall_readyList (f : FieldNo) (st : Stall) (h : Option CarHandle) : (s.setStall f st h).readyList = s.readyList := rfl
@[simp] theorem State.setStall_window (f : FieldNo) (st : Stall) (h : Option CarHandle) : (s.setStall f st h).window = s.window := rfl
@[simp] theorem State.setStall_attention (f : FieldNo) (st : Stall) (h : Option CarHandle) : (s.setStall f st h).attention = s.attention := rfl
@[simp] theorem State.setStall_port (f : FieldNo) (st : Stall) (h : Option CarHandle) : (s.setStall f st h).port = s.port := rfl
@[simp] theorem State.setStall_phase (f : FieldNo) (st : Stall) (h : Option CarHandle) : (s.setStall f st h).phase = s.phase := rfl
@[simp] theorem State.setStall_freeCount (f : FieldNo) (st : Stall) (h : Option CarHandle) : (s.setStall f st h).freeCount = s.freeCount := rfl
@[simp] theorem State.setStall_pending (f : FieldNo) (st : Stall) (h : Option CarHandle) : (s.setStall f st h).pending = s.pending := rfl

/-! `evaluateSign` writes `fieldUnits` alone. -/

@[simp] theorem State.evaluateSign_entries (f : FieldNo) : (s.evaluateSign f).entries = s.entries := rfl
@[simp] theorem State.evaluateSign_serialCounter (f : FieldNo) : (s.evaluateSign f).serialCounter = s.serialCounter := rfl
@[simp] theorem State.evaluateSign_lanes (f : FieldNo) : (s.evaluateSign f).lanes = s.lanes := rfl
@[simp] theorem State.evaluateSign_tallies (f : FieldNo) : (s.evaluateSign f).tallies = s.tallies := rfl
@[simp] theorem State.evaluateSign_programs (f : FieldNo) : (s.evaluateSign f).programs = s.programs := rfl
@[simp] theorem State.evaluateSign_timebases (f : FieldNo) : (s.evaluateSign f).timebases = s.timebases := rfl
@[simp] theorem State.evaluateSign_sets (f : FieldNo) : (s.evaluateSign f).sets = s.sets := rfl
@[simp] theorem State.evaluateSign_bays (f : FieldNo) : (s.evaluateSign f).bays = s.bays := rfl
@[simp] theorem State.evaluateSign_readyLevel (f : FieldNo) : (s.evaluateSign f).readyLevel = s.readyLevel := rfl
@[simp] theorem State.evaluateSign_issueTime (f : FieldNo) : (s.evaluateSign f).issueTime = s.issueTime := rfl
@[simp] theorem State.evaluateSign_orders (f : FieldNo) : (s.evaluateSign f).orders = s.orders := rfl
@[simp] theorem State.evaluateSign_parked (f : FieldNo) : (s.evaluateSign f).parked = s.parked := rfl
@[simp] theorem State.evaluateSign_placement (f : FieldNo) : (s.evaluateSign f).placement = s.placement := rfl
@[simp] theorem State.evaluateSign_stations (f : FieldNo) : (s.evaluateSign f).stations = s.stations := rfl
@[simp] theorem State.evaluateSign_prepLimit (f : FieldNo) : (s.evaluateSign f).prepLimit = s.prepLimit := rfl
@[simp] theorem State.evaluateSign_hold (f : FieldNo) : (s.evaluateSign f).hold = s.hold := rfl
@[simp] theorem State.evaluateSign_trips (f : FieldNo) : (s.evaluateSign f).trips = s.trips := rfl
@[simp] theorem State.evaluateSign_readyList (f : FieldNo) : (s.evaluateSign f).readyList = s.readyList := rfl
@[simp] theorem State.evaluateSign_window (f : FieldNo) : (s.evaluateSign f).window = s.window := rfl
@[simp] theorem State.evaluateSign_attention (f : FieldNo) : (s.evaluateSign f).attention = s.attention := rfl
@[simp] theorem State.evaluateSign_port (f : FieldNo) : (s.evaluateSign f).port = s.port := rfl
@[simp] theorem State.evaluateSign_phase (f : FieldNo) : (s.evaluateSign f).phase = s.phase := rfl
@[simp] theorem State.evaluateSign_freeCount (f : FieldNo) : (s.evaluateSign f).freeCount = s.freeCount := rfl
@[simp] theorem State.evaluateSign_pending (f : FieldNo) : (s.evaluateSign f).pending = s.pending := rfl

/-! `setArrival` writes `lanes` alone. -/

@[simp] theorem State.setArrival_fieldUnits (l : LaneNo) (v : LoopLevel) : (s.setArrival l v).fieldUnits = s.fieldUnits := rfl
@[simp] theorem State.setArrival_entries (l : LaneNo) (v : LoopLevel) : (s.setArrival l v).entries = s.entries := rfl
@[simp] theorem State.setArrival_serialCounter (l : LaneNo) (v : LoopLevel) : (s.setArrival l v).serialCounter = s.serialCounter := rfl
@[simp] theorem State.setArrival_tallies (l : LaneNo) (v : LoopLevel) : (s.setArrival l v).tallies = s.tallies := rfl
@[simp] theorem State.setArrival_programs (l : LaneNo) (v : LoopLevel) : (s.setArrival l v).programs = s.programs := rfl
@[simp] theorem State.setArrival_timebases (l : LaneNo) (v : LoopLevel) : (s.setArrival l v).timebases = s.timebases := rfl
@[simp] theorem State.setArrival_sets (l : LaneNo) (v : LoopLevel) : (s.setArrival l v).sets = s.sets := rfl
@[simp] theorem State.setArrival_bays (l : LaneNo) (v : LoopLevel) : (s.setArrival l v).bays = s.bays := rfl
@[simp] theorem State.setArrival_readyLevel (l : LaneNo) (v : LoopLevel) : (s.setArrival l v).readyLevel = s.readyLevel := rfl
@[simp] theorem State.setArrival_issueTime (l : LaneNo) (v : LoopLevel) : (s.setArrival l v).issueTime = s.issueTime := rfl
@[simp] theorem State.setArrival_orders (l : LaneNo) (v : LoopLevel) : (s.setArrival l v).orders = s.orders := rfl
@[simp] theorem State.setArrival_parked (l : LaneNo) (v : LoopLevel) : (s.setArrival l v).parked = s.parked := rfl
@[simp] theorem State.setArrival_placement (l : LaneNo) (v : LoopLevel) : (s.setArrival l v).placement = s.placement := rfl
@[simp] theorem State.setArrival_stations (l : LaneNo) (v : LoopLevel) : (s.setArrival l v).stations = s.stations := rfl
@[simp] theorem State.setArrival_prepLimit (l : LaneNo) (v : LoopLevel) : (s.setArrival l v).prepLimit = s.prepLimit := rfl
@[simp] theorem State.setArrival_hold (l : LaneNo) (v : LoopLevel) : (s.setArrival l v).hold = s.hold := rfl
@[simp] theorem State.setArrival_trips (l : LaneNo) (v : LoopLevel) : (s.setArrival l v).trips = s.trips := rfl
@[simp] theorem State.setArrival_readyList (l : LaneNo) (v : LoopLevel) : (s.setArrival l v).readyList = s.readyList := rfl
@[simp] theorem State.setArrival_window (l : LaneNo) (v : LoopLevel) : (s.setArrival l v).window = s.window := rfl
@[simp] theorem State.setArrival_attention (l : LaneNo) (v : LoopLevel) : (s.setArrival l v).attention = s.attention := rfl
@[simp] theorem State.setArrival_port (l : LaneNo) (v : LoopLevel) : (s.setArrival l v).port = s.port := rfl
@[simp] theorem State.setArrival_phase (l : LaneNo) (v : LoopLevel) : (s.setArrival l v).phase = s.phase := rfl
@[simp] theorem State.setArrival_freeCount (l : LaneNo) (v : LoopLevel) : (s.setArrival l v).freeCount = s.freeCount := rfl
@[simp] theorem State.setArrival_pending (l : LaneNo) (v : LoopLevel) : (s.setArrival l v).pending = s.pending := rfl

/-! `setPass` writes `lanes` alone. -/

@[simp] theorem State.setPass_fieldUnits (l : LaneNo) (v : LoopLevel) : (s.setPass l v).fieldUnits = s.fieldUnits := rfl
@[simp] theorem State.setPass_entries (l : LaneNo) (v : LoopLevel) : (s.setPass l v).entries = s.entries := rfl
@[simp] theorem State.setPass_serialCounter (l : LaneNo) (v : LoopLevel) : (s.setPass l v).serialCounter = s.serialCounter := rfl
@[simp] theorem State.setPass_tallies (l : LaneNo) (v : LoopLevel) : (s.setPass l v).tallies = s.tallies := rfl
@[simp] theorem State.setPass_programs (l : LaneNo) (v : LoopLevel) : (s.setPass l v).programs = s.programs := rfl
@[simp] theorem State.setPass_timebases (l : LaneNo) (v : LoopLevel) : (s.setPass l v).timebases = s.timebases := rfl
@[simp] theorem State.setPass_sets (l : LaneNo) (v : LoopLevel) : (s.setPass l v).sets = s.sets := rfl
@[simp] theorem State.setPass_bays (l : LaneNo) (v : LoopLevel) : (s.setPass l v).bays = s.bays := rfl
@[simp] theorem State.setPass_readyLevel (l : LaneNo) (v : LoopLevel) : (s.setPass l v).readyLevel = s.readyLevel := rfl
@[simp] theorem State.setPass_issueTime (l : LaneNo) (v : LoopLevel) : (s.setPass l v).issueTime = s.issueTime := rfl
@[simp] theorem State.setPass_orders (l : LaneNo) (v : LoopLevel) : (s.setPass l v).orders = s.orders := rfl
@[simp] theorem State.setPass_parked (l : LaneNo) (v : LoopLevel) : (s.setPass l v).parked = s.parked := rfl
@[simp] theorem State.setPass_placement (l : LaneNo) (v : LoopLevel) : (s.setPass l v).placement = s.placement := rfl
@[simp] theorem State.setPass_stations (l : LaneNo) (v : LoopLevel) : (s.setPass l v).stations = s.stations := rfl
@[simp] theorem State.setPass_prepLimit (l : LaneNo) (v : LoopLevel) : (s.setPass l v).prepLimit = s.prepLimit := rfl
@[simp] theorem State.setPass_hold (l : LaneNo) (v : LoopLevel) : (s.setPass l v).hold = s.hold := rfl
@[simp] theorem State.setPass_trips (l : LaneNo) (v : LoopLevel) : (s.setPass l v).trips = s.trips := rfl
@[simp] theorem State.setPass_readyList (l : LaneNo) (v : LoopLevel) : (s.setPass l v).readyList = s.readyList := rfl
@[simp] theorem State.setPass_window (l : LaneNo) (v : LoopLevel) : (s.setPass l v).window = s.window := rfl
@[simp] theorem State.setPass_attention (l : LaneNo) (v : LoopLevel) : (s.setPass l v).attention = s.attention := rfl
@[simp] theorem State.setPass_port (l : LaneNo) (v : LoopLevel) : (s.setPass l v).port = s.port := rfl
@[simp] theorem State.setPass_phase (l : LaneNo) (v : LoopLevel) : (s.setPass l v).phase = s.phase := rfl
@[simp] theorem State.setPass_freeCount (l : LaneNo) (v : LoopLevel) : (s.setPass l v).freeCount = s.freeCount := rfl
@[simp] theorem State.setPass_pending (l : LaneNo) (v : LoopLevel) : (s.setPass l v).pending = s.pending := rfl

/-! `clockStatus` writes `port` alone. -/

@[simp] theorem State.clockStatus_fieldUnits (n : Nat) : (s.clockStatus n).fieldUnits = s.fieldUnits := rfl
@[simp] theorem State.clockStatus_entries (n : Nat) : (s.clockStatus n).entries = s.entries := rfl
@[simp] theorem State.clockStatus_serialCounter (n : Nat) : (s.clockStatus n).serialCounter = s.serialCounter := rfl
@[simp] theorem State.clockStatus_lanes (n : Nat) : (s.clockStatus n).lanes = s.lanes := rfl
@[simp] theorem State.clockStatus_tallies (n : Nat) : (s.clockStatus n).tallies = s.tallies := rfl
@[simp] theorem State.clockStatus_programs (n : Nat) : (s.clockStatus n).programs = s.programs := rfl
@[simp] theorem State.clockStatus_timebases (n : Nat) : (s.clockStatus n).timebases = s.timebases := rfl
@[simp] theorem State.clockStatus_sets (n : Nat) : (s.clockStatus n).sets = s.sets := rfl
@[simp] theorem State.clockStatus_bays (n : Nat) : (s.clockStatus n).bays = s.bays := rfl
@[simp] theorem State.clockStatus_readyLevel (n : Nat) : (s.clockStatus n).readyLevel = s.readyLevel := rfl
@[simp] theorem State.clockStatus_issueTime (n : Nat) : (s.clockStatus n).issueTime = s.issueTime := rfl
@[simp] theorem State.clockStatus_orders (n : Nat) : (s.clockStatus n).orders = s.orders := rfl
@[simp] theorem State.clockStatus_parked (n : Nat) : (s.clockStatus n).parked = s.parked := rfl
@[simp] theorem State.clockStatus_placement (n : Nat) : (s.clockStatus n).placement = s.placement := rfl
@[simp] theorem State.clockStatus_stations (n : Nat) : (s.clockStatus n).stations = s.stations := rfl
@[simp] theorem State.clockStatus_prepLimit (n : Nat) : (s.clockStatus n).prepLimit = s.prepLimit := rfl
@[simp] theorem State.clockStatus_hold (n : Nat) : (s.clockStatus n).hold = s.hold := rfl
@[simp] theorem State.clockStatus_trips (n : Nat) : (s.clockStatus n).trips = s.trips := rfl
@[simp] theorem State.clockStatus_readyList (n : Nat) : (s.clockStatus n).readyList = s.readyList := rfl
@[simp] theorem State.clockStatus_window (n : Nat) : (s.clockStatus n).window = s.window := rfl
@[simp] theorem State.clockStatus_attention (n : Nat) : (s.clockStatus n).attention = s.attention := rfl
@[simp] theorem State.clockStatus_phase (n : Nat) : (s.clockStatus n).phase = s.phase := rfl
@[simp] theorem State.clockStatus_freeCount (n : Nat) : (s.clockStatus n).freeCount = s.freeCount := rfl
@[simp] theorem State.clockStatus_pending (n : Nat) : (s.clockStatus n).pending = s.pending := rfl

/-! `answered` writes `port` alone. -/

@[simp] theorem State.answered_fieldUnits (c : ResultCode) (bs : List Nat) : (s.answered c bs).fieldUnits = s.fieldUnits := rfl
@[simp] theorem State.answered_entries (c : ResultCode) (bs : List Nat) : (s.answered c bs).entries = s.entries := rfl
@[simp] theorem State.answered_serialCounter (c : ResultCode) (bs : List Nat) : (s.answered c bs).serialCounter = s.serialCounter := rfl
@[simp] theorem State.answered_lanes (c : ResultCode) (bs : List Nat) : (s.answered c bs).lanes = s.lanes := rfl
@[simp] theorem State.answered_tallies (c : ResultCode) (bs : List Nat) : (s.answered c bs).tallies = s.tallies := rfl
@[simp] theorem State.answered_programs (c : ResultCode) (bs : List Nat) : (s.answered c bs).programs = s.programs := rfl
@[simp] theorem State.answered_timebases (c : ResultCode) (bs : List Nat) : (s.answered c bs).timebases = s.timebases := rfl
@[simp] theorem State.answered_sets (c : ResultCode) (bs : List Nat) : (s.answered c bs).sets = s.sets := rfl
@[simp] theorem State.answered_bays (c : ResultCode) (bs : List Nat) : (s.answered c bs).bays = s.bays := rfl
@[simp] theorem State.answered_readyLevel (c : ResultCode) (bs : List Nat) : (s.answered c bs).readyLevel = s.readyLevel := rfl
@[simp] theorem State.answered_issueTime (c : ResultCode) (bs : List Nat) : (s.answered c bs).issueTime = s.issueTime := rfl
@[simp] theorem State.answered_orders (c : ResultCode) (bs : List Nat) : (s.answered c bs).orders = s.orders := rfl
@[simp] theorem State.answered_parked (c : ResultCode) (bs : List Nat) : (s.answered c bs).parked = s.parked := rfl
@[simp] theorem State.answered_placement (c : ResultCode) (bs : List Nat) : (s.answered c bs).placement = s.placement := rfl
@[simp] theorem State.answered_stations (c : ResultCode) (bs : List Nat) : (s.answered c bs).stations = s.stations := rfl
@[simp] theorem State.answered_prepLimit (c : ResultCode) (bs : List Nat) : (s.answered c bs).prepLimit = s.prepLimit := rfl
@[simp] theorem State.answered_hold (c : ResultCode) (bs : List Nat) : (s.answered c bs).hold = s.hold := rfl
@[simp] theorem State.answered_trips (c : ResultCode) (bs : List Nat) : (s.answered c bs).trips = s.trips := rfl
@[simp] theorem State.answered_readyList (c : ResultCode) (bs : List Nat) : (s.answered c bs).readyList = s.readyList := rfl
@[simp] theorem State.answered_window (c : ResultCode) (bs : List Nat) : (s.answered c bs).window = s.window := rfl
@[simp] theorem State.answered_attention (c : ResultCode) (bs : List Nat) : (s.answered c bs).attention = s.attention := rfl
@[simp] theorem State.answered_phase (c : ResultCode) (bs : List Nat) : (s.answered c bs).phase = s.phase := rfl
@[simp] theorem State.answered_freeCount (c : ResultCode) (bs : List Nat) : (s.answered c bs).freeCount = s.freeCount := rfl
@[simp] theorem State.answered_pending (c : ResultCode) (bs : List Nat) : (s.answered c bs).pending = s.pending := rfl

/-! ### A read after a write of the same table -/

@[simp] theorem State.unit_setUnit_self (i : FieldNo) (x : FieldUnit) : (s.setUnit i x).unit i = x := look_put_self _ _ _
theorem State.unit_setUnit (i j : FieldNo) (x : FieldUnit) : (s.setUnit i x).unit j = if i = j then x else s.unit j := look_put _ _ _ _
@[simp] theorem State.unit_setUnit_ne (x : FieldUnit) {i j : FieldNo} (h : i ≠ j) : (s.setUnit i x).unit j = s.unit j := look_put_ne _ _ h
@[simp] theorem State.entry_setEntry_self (i : CarHandle) (x : Entry) : (s.setEntry i x).entry i = x := look_put_self _ _ _
theorem State.entry_setEntry (i j : CarHandle) (x : Entry) : (s.setEntry i x).entry j = if i = j then x else s.entry j := look_put _ _ _ _
@[simp] theorem State.entry_setEntry_ne (x : Entry) {i j : CarHandle} (h : i ≠ j) : (s.setEntry i x).entry j = s.entry j := look_put_ne _ _ h
@[simp] theorem State.lane_setLane_self (i : LaneNo) (x : Lane) : (s.setLane i x).lane i = x := look_put_self _ _ _
theorem State.lane_setLane (i j : LaneNo) (x : Lane) : (s.setLane i x).lane j = if i = j then x else s.lane j := look_put _ _ _ _
@[simp] theorem State.lane_setLane_ne (x : Lane) {i j : LaneNo} (h : i ≠ j) : (s.setLane i x).lane j = s.lane j := look_put_ne _ _ h
@[simp] theorem State.program_setProgram_self (i : FieldNo) (x : ProgramUnit) : (s.setProgram i x).program i = x := look_put_self _ _ _
theorem State.program_setProgram (i j : FieldNo) (x : ProgramUnit) : (s.setProgram i x).program j = if i = j then x else s.program j := look_put _ _ _ _
@[simp] theorem State.program_setProgram_ne (x : ProgramUnit) {i j : FieldNo} (h : i ≠ j) : (s.setProgram i x).program j = s.program j := look_put_ne _ _ h
@[simp] theorem State.timebase_setTimebase_self (i : FieldNo) (x : Timebase) : (s.setTimebase i x).timebase i = x := look_put_self _ _ _
theorem State.timebase_setTimebase (i j : FieldNo) (x : Timebase) : (s.setTimebase i x).timebase j = if i = j then x else s.timebase j := look_put _ _ _ _
@[simp] theorem State.timebase_setTimebase_ne (x : Timebase) {i j : FieldNo} (h : i ≠ j) : (s.setTimebase i x).timebase j = s.timebase j := look_put_ne _ _ h
@[simp] theorem State.slot_setSlot_self (i : SetHandle) (x : SetSlot) : (s.setSlot i x).slot i = x := look_put_self _ _ _
theorem State.slot_setSlot (i j : SetHandle) (x : SetSlot) : (s.setSlot i x).slot j = if i = j then x else s.slot j := look_put _ _ _ _
@[simp] theorem State.slot_setSlot_ne (x : SetSlot) {i j : SetHandle} (h : i ≠ j) : (s.setSlot i x).slot j = s.slot j := look_put_ne _ _ h
@[simp] theorem State.bay_setBay_self (i : BayNo) (x : Option SetHandle) : (s.setBay i x).bay i = x := look_put_self _ _ _
theorem State.bay_setBay (i j : BayNo) (x : Option SetHandle) : (s.setBay i x).bay j = if i = j then x else s.bay j := look_put _ _ _ _
@[simp] theorem State.bay_setBay_ne (x : Option SetHandle) {i j : BayNo} (h : i ≠ j) : (s.setBay i x).bay j = s.bay j := look_put_ne _ _ h
@[simp] theorem State.order_setOrder_self (i : OrderHandle) (x : Option Order) : (s.setOrder i x).order i = x := look_put_self _ _ _
theorem State.order_setOrder (i j : OrderHandle) (x : Option Order) : (s.setOrder i x).order j = if i = j then x else s.order j := look_put _ _ _ _
@[simp] theorem State.order_setOrder_ne (x : Option Order) {i j : OrderHandle} (h : i ≠ j) : (s.setOrder i x).order j = s.order j := look_put_ne _ _ h
@[simp] theorem State.station_setStation_self (i : StationNo) (x : Station) : (s.setStation i x).station i = x := look_put_self _ _ _
theorem State.station_setStation (i j : StationNo) (x : Station) : (s.setStation i x).station j = if i = j then x else s.station j := look_put _ _ _ _
@[simp] theorem State.station_setStation_ne (x : Station) {i j : StationNo} (h : i ≠ j) : (s.setStation i x).station j = s.station j := look_put_ne _ _ h
@[simp] theorem State.trip_setTrip_self (i : TripHandle) (x : Trip) : (s.setTrip i x).trip i = x := look_put_self _ _ _
theorem State.trip_setTrip (i j : TripHandle) (x : Trip) : (s.setTrip i x).trip j = if i = j then x else s.trip j := look_put _ _ _ _
@[simp] theorem State.trip_setTrip_ne (x : Trip) {i j : TripHandle} (h : i ≠ j) : (s.setTrip i x).trip j = s.trip j := look_put_ne _ _ h
@[simp] theorem State.car_setCar_self (h : CarHandle) (c : Option Car) : (s.setCar h c).car h = c := by
  simp [State.car, State.setCar]
theorem State.car_setCar (h k : CarHandle) (c : Option Car) :
    (s.setCar h c).car k = if h = k then c else s.car k := by
  by_cases e : h = k <;> simp [State.car, State.setCar, e]
@[simp] theorem State.car_setCar_ne {h k : CarHandle} (c : Option Car) (e : h ≠ k) :
    (s.setCar h c).car k = s.car k := by simp [State.car_setCar, e]
theorem State.car_modCar (h k : CarHandle) (g : Car → Car) :
    (s.modCar h g).car k = if h = k then (s.car h).map g else s.car k := s.car_setCar h k _
theorem State.order_modOrder (o p : OrderHandle) (g : Order → Order) :
    (s.modOrder o g).order p = if o = p then (s.order o).map g else s.order p := s.order_setOrder o p _
@[simp] theorem State.touched_setCar (h k : CarHandle) (c : Option Car) :
    ((s.setCar h c).entry k).touched = (s.entry k).touched := by
  by_cases e : h = k
  · subst e; simp [State.setCar]
  · simp [State.setCar, e]

/-! ### A read after a write of another table -/

@[simp] theorem State.unit_of_setEntry (i : FieldNo) (h : CarHandle) (e : Entry) : (s.setEntry h e).unit i = s.unit i := rfl
@[simp] theorem State.unit_of_setCar (i : FieldNo) (h : CarHandle) (c : Option Car) : (s.setCar h c).unit i = s.unit i := rfl
@[simp] theorem State.unit_of_modCar (i : FieldNo) (h : CarHandle) (g : Car → Car) : (s.modCar h g).unit i = s.unit i := rfl
@[simp] theorem State.unit_of_setLane (i : FieldNo) (l : LaneNo) (x : Lane) : (s.setLane l x).unit i = s.unit i := rfl
@[simp] theorem State.unit_of_setProgram (i : FieldNo) (f : FieldNo) (p : ProgramUnit) : (s.setProgram f p).unit i = s.unit i := rfl
@[simp] theorem State.unit_of_setTimebase (i : FieldNo) (f : FieldNo) (t : Timebase) : (s.setTimebase f t).unit i = s.unit i := rfl
@[simp] theorem State.unit_of_setSlot (i : FieldNo) (n : SetHandle) (x : SetSlot) : (s.setSlot n x).unit i = s.unit i := rfl
@[simp] theorem State.unit_of_setBay (i : FieldNo) (b : BayNo) (x : Option SetHandle) : (s.setBay b x).unit i = s.unit i := rfl
@[simp] theorem State.unit_of_setOrder (i : FieldNo) (o : OrderHandle) (x : Option Order) : (s.setOrder o x).unit i = s.unit i := rfl
@[simp] theorem State.unit_of_modOrder (i : FieldNo) (o : OrderHandle) (g : Order → Order) : (s.modOrder o g).unit i = s.unit i := rfl
@[simp] theorem State.unit_of_setStation (i : FieldNo) (n : StationNo) (x : Station) : (s.setStation n x).unit i = s.unit i := rfl
@[simp] theorem State.unit_of_setTrip (i : FieldNo) (t : TripHandle) (x : Trip) : (s.setTrip t x).unit i = s.unit i := rfl
@[simp] theorem State.unit_of_count (i : FieldNo) (k : Tally) (n : Nat) : (s.count k n).unit i = s.unit i := rfl
@[simp] theorem State.unit_of_raise (i : FieldNo) (c : Cause) : (s.raise c).unit i = s.unit i := rfl
@[simp] theorem State.unit_of_raiseTailgate (i : FieldNo) (l : LaneNo) : (s.raiseTailgate l).unit i = s.unit i := rfl
@[simp] theorem State.unit_of_raiseSegment (i : FieldNo) (f : FieldNo) : (s.raiseSegment f).unit i = s.unit i := rfl
@[simp] theorem State.unit_of_raiseSound (i : FieldNo) (f : FieldNo) : (s.raiseSound f).unit i = s.unit i := rfl
@[simp] theorem State.unit_of_raiseSet (i : FieldNo) (k : SetKind) : (s.raiseSet k).unit i = s.unit i := rfl
@[simp] theorem State.unit_of_raiseTrip (i : FieldNo) (t : TripHandle) : (s.raiseTrip t).unit i = s.unit i := rfl
@[simp] theorem State.unit_of_raisePort (i : FieldNo) (k : PortKind) : (s.raisePort k).unit i = s.unit i := rfl
@[simp] theorem State.unit_of_raiseOrder (i : FieldNo) (o : OrderHandle) (k : NoteKind) : (s.raiseOrder o k).unit i = s.unit i := rfl
@[simp] theorem State.unit_of_setArrival (i : FieldNo) (l : LaneNo) (v : LoopLevel) : (s.setArrival l v).unit i = s.unit i := rfl
@[simp] theorem State.unit_of_setPass (i : FieldNo) (l : LaneNo) (v : LoopLevel) : (s.setPass l v).unit i = s.unit i := rfl
@[simp] theorem State.unit_of_clockStatus (i : FieldNo) (n : Nat) : (s.clockStatus n).unit i = s.unit i := rfl
@[simp] theorem State.unit_of_answered (i : FieldNo) (c : ResultCode) (bs : List Nat) : (s.answered c bs).unit i = s.unit i := rfl
@[simp] theorem State.entry_of_setUnit (i : CarHandle) (f : FieldNo) (u : FieldUnit) : (s.setUnit f u).entry i = s.entry i := rfl
@[simp] theorem State.entry_of_setLane (i : CarHandle) (l : LaneNo) (x : Lane) : (s.setLane l x).entry i = s.entry i := rfl
@[simp] theorem State.entry_of_setProgram (i : CarHandle) (f : FieldNo) (p : ProgramUnit) : (s.setProgram f p).entry i = s.entry i := rfl
@[simp] theorem State.entry_of_setTimebase (i : CarHandle) (f : FieldNo) (t : Timebase) : (s.setTimebase f t).entry i = s.entry i := rfl
@[simp] theorem State.entry_of_setSlot (i : CarHandle) (n : SetHandle) (x : SetSlot) : (s.setSlot n x).entry i = s.entry i := rfl
@[simp] theorem State.entry_of_setBay (i : CarHandle) (b : BayNo) (x : Option SetHandle) : (s.setBay b x).entry i = s.entry i := rfl
@[simp] theorem State.entry_of_setOrder (i : CarHandle) (o : OrderHandle) (x : Option Order) : (s.setOrder o x).entry i = s.entry i := rfl
@[simp] theorem State.entry_of_modOrder (i : CarHandle) (o : OrderHandle) (g : Order → Order) : (s.modOrder o g).entry i = s.entry i := rfl
@[simp] theorem State.entry_of_setStation (i : CarHandle) (n : StationNo) (x : Station) : (s.setStation n x).entry i = s.entry i := rfl
@[simp] theorem State.entry_of_setTrip (i : CarHandle) (t : TripHandle) (x : Trip) : (s.setTrip t x).entry i = s.entry i := rfl
@[simp] theorem State.entry_of_count (i : CarHandle) (k : Tally) (n : Nat) : (s.count k n).entry i = s.entry i := rfl
@[simp] theorem State.entry_of_raise (i : CarHandle) (c : Cause) : (s.raise c).entry i = s.entry i := rfl
@[simp] theorem State.entry_of_raiseTailgate (i : CarHandle) (l : LaneNo) : (s.raiseTailgate l).entry i = s.entry i := rfl
@[simp] theorem State.entry_of_raiseSegment (i : CarHandle) (f : FieldNo) : (s.raiseSegment f).entry i = s.entry i := rfl
@[simp] theorem State.entry_of_raiseSound (i : CarHandle) (f : FieldNo) : (s.raiseSound f).entry i = s.entry i := rfl
@[simp] theorem State.entry_of_raiseSet (i : CarHandle) (k : SetKind) : (s.raiseSet k).entry i = s.entry i := rfl
@[simp] theorem State.entry_of_raiseTrip (i : CarHandle) (t : TripHandle) : (s.raiseTrip t).entry i = s.entry i := rfl
@[simp] theorem State.entry_of_raisePort (i : CarHandle) (k : PortKind) : (s.raisePort k).entry i = s.entry i := rfl
@[simp] theorem State.entry_of_raiseOrder (i : CarHandle) (o : OrderHandle) (k : NoteKind) : (s.raiseOrder o k).entry i = s.entry i := rfl
@[simp] theorem State.entry_of_setStall (i : CarHandle) (f : FieldNo) (st : Stall) (h : Option CarHandle) : (s.setStall f st h).entry i = s.entry i := rfl
@[simp] theorem State.entry_of_evaluateSign (i : CarHandle) (f : FieldNo) : (s.evaluateSign f).entry i = s.entry i := rfl
@[simp] theorem State.entry_of_setArrival (i : CarHandle) (l : LaneNo) (v : LoopLevel) : (s.setArrival l v).entry i = s.entry i := rfl
@[simp] theorem State.entry_of_setPass (i : CarHandle) (l : LaneNo) (v : LoopLevel) : (s.setPass l v).entry i = s.entry i := rfl
@[simp] theorem State.entry_of_clockStatus (i : CarHandle) (n : Nat) : (s.clockStatus n).entry i = s.entry i := rfl
@[simp] theorem State.entry_of_answered (i : CarHandle) (c : ResultCode) (bs : List Nat) : (s.answered c bs).entry i = s.entry i := rfl
@[simp] theorem State.lane_of_setUnit (i : LaneNo) (f : FieldNo) (u : FieldUnit) : (s.setUnit f u).lane i = s.lane i := rfl
@[simp] theorem State.lane_of_setEntry (i : LaneNo) (h : CarHandle) (e : Entry) : (s.setEntry h e).lane i = s.lane i := rfl
@[simp] theorem State.lane_of_setCar (i : LaneNo) (h : CarHandle) (c : Option Car) : (s.setCar h c).lane i = s.lane i := rfl
@[simp] theorem State.lane_of_modCar (i : LaneNo) (h : CarHandle) (g : Car → Car) : (s.modCar h g).lane i = s.lane i := rfl
@[simp] theorem State.lane_of_setProgram (i : LaneNo) (f : FieldNo) (p : ProgramUnit) : (s.setProgram f p).lane i = s.lane i := rfl
@[simp] theorem State.lane_of_setTimebase (i : LaneNo) (f : FieldNo) (t : Timebase) : (s.setTimebase f t).lane i = s.lane i := rfl
@[simp] theorem State.lane_of_setSlot (i : LaneNo) (n : SetHandle) (x : SetSlot) : (s.setSlot n x).lane i = s.lane i := rfl
@[simp] theorem State.lane_of_setBay (i : LaneNo) (b : BayNo) (x : Option SetHandle) : (s.setBay b x).lane i = s.lane i := rfl
@[simp] theorem State.lane_of_setOrder (i : LaneNo) (o : OrderHandle) (x : Option Order) : (s.setOrder o x).lane i = s.lane i := rfl
@[simp] theorem State.lane_of_modOrder (i : LaneNo) (o : OrderHandle) (g : Order → Order) : (s.modOrder o g).lane i = s.lane i := rfl
@[simp] theorem State.lane_of_setStation (i : LaneNo) (n : StationNo) (x : Station) : (s.setStation n x).lane i = s.lane i := rfl
@[simp] theorem State.lane_of_setTrip (i : LaneNo) (t : TripHandle) (x : Trip) : (s.setTrip t x).lane i = s.lane i := rfl
@[simp] theorem State.lane_of_count (i : LaneNo) (k : Tally) (n : Nat) : (s.count k n).lane i = s.lane i := rfl
@[simp] theorem State.lane_of_raise (i : LaneNo) (c : Cause) : (s.raise c).lane i = s.lane i := rfl
@[simp] theorem State.lane_of_raiseTailgate (i : LaneNo) (l : LaneNo) : (s.raiseTailgate l).lane i = s.lane i := rfl
@[simp] theorem State.lane_of_raiseSegment (i : LaneNo) (f : FieldNo) : (s.raiseSegment f).lane i = s.lane i := rfl
@[simp] theorem State.lane_of_raiseSound (i : LaneNo) (f : FieldNo) : (s.raiseSound f).lane i = s.lane i := rfl
@[simp] theorem State.lane_of_raiseSet (i : LaneNo) (k : SetKind) : (s.raiseSet k).lane i = s.lane i := rfl
@[simp] theorem State.lane_of_raiseTrip (i : LaneNo) (t : TripHandle) : (s.raiseTrip t).lane i = s.lane i := rfl
@[simp] theorem State.lane_of_raisePort (i : LaneNo) (k : PortKind) : (s.raisePort k).lane i = s.lane i := rfl
@[simp] theorem State.lane_of_raiseOrder (i : LaneNo) (o : OrderHandle) (k : NoteKind) : (s.raiseOrder o k).lane i = s.lane i := rfl
@[simp] theorem State.lane_of_setStall (i : LaneNo) (f : FieldNo) (st : Stall) (h : Option CarHandle) : (s.setStall f st h).lane i = s.lane i := rfl
@[simp] theorem State.lane_of_evaluateSign (i : LaneNo) (f : FieldNo) : (s.evaluateSign f).lane i = s.lane i := rfl
@[simp] theorem State.lane_of_clockStatus (i : LaneNo) (n : Nat) : (s.clockStatus n).lane i = s.lane i := rfl
@[simp] theorem State.lane_of_answered (i : LaneNo) (c : ResultCode) (bs : List Nat) : (s.answered c bs).lane i = s.lane i := rfl
@[simp] theorem State.program_of_setUnit (i : FieldNo) (f : FieldNo) (u : FieldUnit) : (s.setUnit f u).program i = s.program i := rfl
@[simp] theorem State.program_of_setEntry (i : FieldNo) (h : CarHandle) (e : Entry) : (s.setEntry h e).program i = s.program i := rfl
@[simp] theorem State.program_of_setCar (i : FieldNo) (h : CarHandle) (c : Option Car) : (s.setCar h c).program i = s.program i := rfl
@[simp] theorem State.program_of_modCar (i : FieldNo) (h : CarHandle) (g : Car → Car) : (s.modCar h g).program i = s.program i := rfl
@[simp] theorem State.program_of_setLane (i : FieldNo) (l : LaneNo) (x : Lane) : (s.setLane l x).program i = s.program i := rfl
@[simp] theorem State.program_of_setTimebase (i : FieldNo) (f : FieldNo) (t : Timebase) : (s.setTimebase f t).program i = s.program i := rfl
@[simp] theorem State.program_of_setSlot (i : FieldNo) (n : SetHandle) (x : SetSlot) : (s.setSlot n x).program i = s.program i := rfl
@[simp] theorem State.program_of_setBay (i : FieldNo) (b : BayNo) (x : Option SetHandle) : (s.setBay b x).program i = s.program i := rfl
@[simp] theorem State.program_of_setOrder (i : FieldNo) (o : OrderHandle) (x : Option Order) : (s.setOrder o x).program i = s.program i := rfl
@[simp] theorem State.program_of_modOrder (i : FieldNo) (o : OrderHandle) (g : Order → Order) : (s.modOrder o g).program i = s.program i := rfl
@[simp] theorem State.program_of_setStation (i : FieldNo) (n : StationNo) (x : Station) : (s.setStation n x).program i = s.program i := rfl
@[simp] theorem State.program_of_setTrip (i : FieldNo) (t : TripHandle) (x : Trip) : (s.setTrip t x).program i = s.program i := rfl
@[simp] theorem State.program_of_count (i : FieldNo) (k : Tally) (n : Nat) : (s.count k n).program i = s.program i := rfl
@[simp] theorem State.program_of_raise (i : FieldNo) (c : Cause) : (s.raise c).program i = s.program i := rfl
@[simp] theorem State.program_of_raiseTailgate (i : FieldNo) (l : LaneNo) : (s.raiseTailgate l).program i = s.program i := rfl
@[simp] theorem State.program_of_raiseSegment (i : FieldNo) (f : FieldNo) : (s.raiseSegment f).program i = s.program i := rfl
@[simp] theorem State.program_of_raiseSound (i : FieldNo) (f : FieldNo) : (s.raiseSound f).program i = s.program i := rfl
@[simp] theorem State.program_of_raiseSet (i : FieldNo) (k : SetKind) : (s.raiseSet k).program i = s.program i := rfl
@[simp] theorem State.program_of_raiseTrip (i : FieldNo) (t : TripHandle) : (s.raiseTrip t).program i = s.program i := rfl
@[simp] theorem State.program_of_raisePort (i : FieldNo) (k : PortKind) : (s.raisePort k).program i = s.program i := rfl
@[simp] theorem State.program_of_raiseOrder (i : FieldNo) (o : OrderHandle) (k : NoteKind) : (s.raiseOrder o k).program i = s.program i := rfl
@[simp] theorem State.program_of_setStall (i : FieldNo) (f : FieldNo) (st : Stall) (h : Option CarHandle) : (s.setStall f st h).program i = s.program i := rfl
@[simp] theorem State.program_of_evaluateSign (i : FieldNo) (f : FieldNo) : (s.evaluateSign f).program i = s.program i := rfl
@[simp] theorem State.program_of_setArrival (i : FieldNo) (l : LaneNo) (v : LoopLevel) : (s.setArrival l v).program i = s.program i := rfl
@[simp] theorem State.program_of_setPass (i : FieldNo) (l : LaneNo) (v : LoopLevel) : (s.setPass l v).program i = s.program i := rfl
@[simp] theorem State.program_of_clockStatus (i : FieldNo) (n : Nat) : (s.clockStatus n).program i = s.program i := rfl
@[simp] theorem State.program_of_answered (i : FieldNo) (c : ResultCode) (bs : List Nat) : (s.answered c bs).program i = s.program i := rfl
@[simp] theorem State.timebase_of_setUnit (i : FieldNo) (f : FieldNo) (u : FieldUnit) : (s.setUnit f u).timebase i = s.timebase i := rfl
@[simp] theorem State.timebase_of_setEntry (i : FieldNo) (h : CarHandle) (e : Entry) : (s.setEntry h e).timebase i = s.timebase i := rfl
@[simp] theorem State.timebase_of_setCar (i : FieldNo) (h : CarHandle) (c : Option Car) : (s.setCar h c).timebase i = s.timebase i := rfl
@[simp] theorem State.timebase_of_modCar (i : FieldNo) (h : CarHandle) (g : Car → Car) : (s.modCar h g).timebase i = s.timebase i := rfl
@[simp] theorem State.timebase_of_setLane (i : FieldNo) (l : LaneNo) (x : Lane) : (s.setLane l x).timebase i = s.timebase i := rfl
@[simp] theorem State.timebase_of_setProgram (i : FieldNo) (f : FieldNo) (p : ProgramUnit) : (s.setProgram f p).timebase i = s.timebase i := rfl
@[simp] theorem State.timebase_of_setSlot (i : FieldNo) (n : SetHandle) (x : SetSlot) : (s.setSlot n x).timebase i = s.timebase i := rfl
@[simp] theorem State.timebase_of_setBay (i : FieldNo) (b : BayNo) (x : Option SetHandle) : (s.setBay b x).timebase i = s.timebase i := rfl
@[simp] theorem State.timebase_of_setOrder (i : FieldNo) (o : OrderHandle) (x : Option Order) : (s.setOrder o x).timebase i = s.timebase i := rfl
@[simp] theorem State.timebase_of_modOrder (i : FieldNo) (o : OrderHandle) (g : Order → Order) : (s.modOrder o g).timebase i = s.timebase i := rfl
@[simp] theorem State.timebase_of_setStation (i : FieldNo) (n : StationNo) (x : Station) : (s.setStation n x).timebase i = s.timebase i := rfl
@[simp] theorem State.timebase_of_setTrip (i : FieldNo) (t : TripHandle) (x : Trip) : (s.setTrip t x).timebase i = s.timebase i := rfl
@[simp] theorem State.timebase_of_count (i : FieldNo) (k : Tally) (n : Nat) : (s.count k n).timebase i = s.timebase i := rfl
@[simp] theorem State.timebase_of_raise (i : FieldNo) (c : Cause) : (s.raise c).timebase i = s.timebase i := rfl
@[simp] theorem State.timebase_of_raiseTailgate (i : FieldNo) (l : LaneNo) : (s.raiseTailgate l).timebase i = s.timebase i := rfl
@[simp] theorem State.timebase_of_raiseSegment (i : FieldNo) (f : FieldNo) : (s.raiseSegment f).timebase i = s.timebase i := rfl
@[simp] theorem State.timebase_of_raiseSound (i : FieldNo) (f : FieldNo) : (s.raiseSound f).timebase i = s.timebase i := rfl
@[simp] theorem State.timebase_of_raiseSet (i : FieldNo) (k : SetKind) : (s.raiseSet k).timebase i = s.timebase i := rfl
@[simp] theorem State.timebase_of_raiseTrip (i : FieldNo) (t : TripHandle) : (s.raiseTrip t).timebase i = s.timebase i := rfl
@[simp] theorem State.timebase_of_raisePort (i : FieldNo) (k : PortKind) : (s.raisePort k).timebase i = s.timebase i := rfl
@[simp] theorem State.timebase_of_raiseOrder (i : FieldNo) (o : OrderHandle) (k : NoteKind) : (s.raiseOrder o k).timebase i = s.timebase i := rfl
@[simp] theorem State.timebase_of_setStall (i : FieldNo) (f : FieldNo) (st : Stall) (h : Option CarHandle) : (s.setStall f st h).timebase i = s.timebase i := rfl
@[simp] theorem State.timebase_of_evaluateSign (i : FieldNo) (f : FieldNo) : (s.evaluateSign f).timebase i = s.timebase i := rfl
@[simp] theorem State.timebase_of_setArrival (i : FieldNo) (l : LaneNo) (v : LoopLevel) : (s.setArrival l v).timebase i = s.timebase i := rfl
@[simp] theorem State.timebase_of_setPass (i : FieldNo) (l : LaneNo) (v : LoopLevel) : (s.setPass l v).timebase i = s.timebase i := rfl
@[simp] theorem State.timebase_of_clockStatus (i : FieldNo) (n : Nat) : (s.clockStatus n).timebase i = s.timebase i := rfl
@[simp] theorem State.timebase_of_answered (i : FieldNo) (c : ResultCode) (bs : List Nat) : (s.answered c bs).timebase i = s.timebase i := rfl
@[simp] theorem State.slot_of_setUnit (i : SetHandle) (f : FieldNo) (u : FieldUnit) : (s.setUnit f u).slot i = s.slot i := rfl
@[simp] theorem State.slot_of_setEntry (i : SetHandle) (h : CarHandle) (e : Entry) : (s.setEntry h e).slot i = s.slot i := rfl
@[simp] theorem State.slot_of_setCar (i : SetHandle) (h : CarHandle) (c : Option Car) : (s.setCar h c).slot i = s.slot i := rfl
@[simp] theorem State.slot_of_modCar (i : SetHandle) (h : CarHandle) (g : Car → Car) : (s.modCar h g).slot i = s.slot i := rfl
@[simp] theorem State.slot_of_setLane (i : SetHandle) (l : LaneNo) (x : Lane) : (s.setLane l x).slot i = s.slot i := rfl
@[simp] theorem State.slot_of_setProgram (i : SetHandle) (f : FieldNo) (p : ProgramUnit) : (s.setProgram f p).slot i = s.slot i := rfl
@[simp] theorem State.slot_of_setTimebase (i : SetHandle) (f : FieldNo) (t : Timebase) : (s.setTimebase f t).slot i = s.slot i := rfl
@[simp] theorem State.slot_of_setBay (i : SetHandle) (b : BayNo) (x : Option SetHandle) : (s.setBay b x).slot i = s.slot i := rfl
@[simp] theorem State.slot_of_setOrder (i : SetHandle) (o : OrderHandle) (x : Option Order) : (s.setOrder o x).slot i = s.slot i := rfl
@[simp] theorem State.slot_of_modOrder (i : SetHandle) (o : OrderHandle) (g : Order → Order) : (s.modOrder o g).slot i = s.slot i := rfl
@[simp] theorem State.slot_of_setStation (i : SetHandle) (n : StationNo) (x : Station) : (s.setStation n x).slot i = s.slot i := rfl
@[simp] theorem State.slot_of_setTrip (i : SetHandle) (t : TripHandle) (x : Trip) : (s.setTrip t x).slot i = s.slot i := rfl
@[simp] theorem State.slot_of_count (i : SetHandle) (k : Tally) (n : Nat) : (s.count k n).slot i = s.slot i := rfl
@[simp] theorem State.slot_of_raise (i : SetHandle) (c : Cause) : (s.raise c).slot i = s.slot i := rfl
@[simp] theorem State.slot_of_raiseTailgate (i : SetHandle) (l : LaneNo) : (s.raiseTailgate l).slot i = s.slot i := rfl
@[simp] theorem State.slot_of_raiseSegment (i : SetHandle) (f : FieldNo) : (s.raiseSegment f).slot i = s.slot i := rfl
@[simp] theorem State.slot_of_raiseSound (i : SetHandle) (f : FieldNo) : (s.raiseSound f).slot i = s.slot i := rfl
@[simp] theorem State.slot_of_raiseSet (i : SetHandle) (k : SetKind) : (s.raiseSet k).slot i = s.slot i := rfl
@[simp] theorem State.slot_of_raiseTrip (i : SetHandle) (t : TripHandle) : (s.raiseTrip t).slot i = s.slot i := rfl
@[simp] theorem State.slot_of_raisePort (i : SetHandle) (k : PortKind) : (s.raisePort k).slot i = s.slot i := rfl
@[simp] theorem State.slot_of_raiseOrder (i : SetHandle) (o : OrderHandle) (k : NoteKind) : (s.raiseOrder o k).slot i = s.slot i := rfl
@[simp] theorem State.slot_of_setStall (i : SetHandle) (f : FieldNo) (st : Stall) (h : Option CarHandle) : (s.setStall f st h).slot i = s.slot i := rfl
@[simp] theorem State.slot_of_evaluateSign (i : SetHandle) (f : FieldNo) : (s.evaluateSign f).slot i = s.slot i := rfl
@[simp] theorem State.slot_of_setArrival (i : SetHandle) (l : LaneNo) (v : LoopLevel) : (s.setArrival l v).slot i = s.slot i := rfl
@[simp] theorem State.slot_of_setPass (i : SetHandle) (l : LaneNo) (v : LoopLevel) : (s.setPass l v).slot i = s.slot i := rfl
@[simp] theorem State.slot_of_clockStatus (i : SetHandle) (n : Nat) : (s.clockStatus n).slot i = s.slot i := rfl
@[simp] theorem State.slot_of_answered (i : SetHandle) (c : ResultCode) (bs : List Nat) : (s.answered c bs).slot i = s.slot i := rfl
@[simp] theorem State.bay_of_setUnit (i : BayNo) (f : FieldNo) (u : FieldUnit) : (s.setUnit f u).bay i = s.bay i := rfl
@[simp] theorem State.bay_of_setEntry (i : BayNo) (h : CarHandle) (e : Entry) : (s.setEntry h e).bay i = s.bay i := rfl
@[simp] theorem State.bay_of_setCar (i : BayNo) (h : CarHandle) (c : Option Car) : (s.setCar h c).bay i = s.bay i := rfl
@[simp] theorem State.bay_of_modCar (i : BayNo) (h : CarHandle) (g : Car → Car) : (s.modCar h g).bay i = s.bay i := rfl
@[simp] theorem State.bay_of_setLane (i : BayNo) (l : LaneNo) (x : Lane) : (s.setLane l x).bay i = s.bay i := rfl
@[simp] theorem State.bay_of_setProgram (i : BayNo) (f : FieldNo) (p : ProgramUnit) : (s.setProgram f p).bay i = s.bay i := rfl
@[simp] theorem State.bay_of_setTimebase (i : BayNo) (f : FieldNo) (t : Timebase) : (s.setTimebase f t).bay i = s.bay i := rfl
@[simp] theorem State.bay_of_setSlot (i : BayNo) (n : SetHandle) (x : SetSlot) : (s.setSlot n x).bay i = s.bay i := rfl
@[simp] theorem State.bay_of_setOrder (i : BayNo) (o : OrderHandle) (x : Option Order) : (s.setOrder o x).bay i = s.bay i := rfl
@[simp] theorem State.bay_of_modOrder (i : BayNo) (o : OrderHandle) (g : Order → Order) : (s.modOrder o g).bay i = s.bay i := rfl
@[simp] theorem State.bay_of_setStation (i : BayNo) (n : StationNo) (x : Station) : (s.setStation n x).bay i = s.bay i := rfl
@[simp] theorem State.bay_of_setTrip (i : BayNo) (t : TripHandle) (x : Trip) : (s.setTrip t x).bay i = s.bay i := rfl
@[simp] theorem State.bay_of_count (i : BayNo) (k : Tally) (n : Nat) : (s.count k n).bay i = s.bay i := rfl
@[simp] theorem State.bay_of_raise (i : BayNo) (c : Cause) : (s.raise c).bay i = s.bay i := rfl
@[simp] theorem State.bay_of_raiseTailgate (i : BayNo) (l : LaneNo) : (s.raiseTailgate l).bay i = s.bay i := rfl
@[simp] theorem State.bay_of_raiseSegment (i : BayNo) (f : FieldNo) : (s.raiseSegment f).bay i = s.bay i := rfl
@[simp] theorem State.bay_of_raiseSound (i : BayNo) (f : FieldNo) : (s.raiseSound f).bay i = s.bay i := rfl
@[simp] theorem State.bay_of_raiseSet (i : BayNo) (k : SetKind) : (s.raiseSet k).bay i = s.bay i := rfl
@[simp] theorem State.bay_of_raiseTrip (i : BayNo) (t : TripHandle) : (s.raiseTrip t).bay i = s.bay i := rfl
@[simp] theorem State.bay_of_raisePort (i : BayNo) (k : PortKind) : (s.raisePort k).bay i = s.bay i := rfl
@[simp] theorem State.bay_of_raiseOrder (i : BayNo) (o : OrderHandle) (k : NoteKind) : (s.raiseOrder o k).bay i = s.bay i := rfl
@[simp] theorem State.bay_of_setStall (i : BayNo) (f : FieldNo) (st : Stall) (h : Option CarHandle) : (s.setStall f st h).bay i = s.bay i := rfl
@[simp] theorem State.bay_of_evaluateSign (i : BayNo) (f : FieldNo) : (s.evaluateSign f).bay i = s.bay i := rfl
@[simp] theorem State.bay_of_setArrival (i : BayNo) (l : LaneNo) (v : LoopLevel) : (s.setArrival l v).bay i = s.bay i := rfl
@[simp] theorem State.bay_of_setPass (i : BayNo) (l : LaneNo) (v : LoopLevel) : (s.setPass l v).bay i = s.bay i := rfl
@[simp] theorem State.bay_of_clockStatus (i : BayNo) (n : Nat) : (s.clockStatus n).bay i = s.bay i := rfl
@[simp] theorem State.bay_of_answered (i : BayNo) (c : ResultCode) (bs : List Nat) : (s.answered c bs).bay i = s.bay i := rfl
@[simp] theorem State.order_of_setUnit (i : OrderHandle) (f : FieldNo) (u : FieldUnit) : (s.setUnit f u).order i = s.order i := rfl
@[simp] theorem State.order_of_setEntry (i : OrderHandle) (h : CarHandle) (e : Entry) : (s.setEntry h e).order i = s.order i := rfl
@[simp] theorem State.order_of_setCar (i : OrderHandle) (h : CarHandle) (c : Option Car) : (s.setCar h c).order i = s.order i := rfl
@[simp] theorem State.order_of_modCar (i : OrderHandle) (h : CarHandle) (g : Car → Car) : (s.modCar h g).order i = s.order i := rfl
@[simp] theorem State.order_of_setLane (i : OrderHandle) (l : LaneNo) (x : Lane) : (s.setLane l x).order i = s.order i := rfl
@[simp] theorem State.order_of_setProgram (i : OrderHandle) (f : FieldNo) (p : ProgramUnit) : (s.setProgram f p).order i = s.order i := rfl
@[simp] theorem State.order_of_setTimebase (i : OrderHandle) (f : FieldNo) (t : Timebase) : (s.setTimebase f t).order i = s.order i := rfl
@[simp] theorem State.order_of_setSlot (i : OrderHandle) (n : SetHandle) (x : SetSlot) : (s.setSlot n x).order i = s.order i := rfl
@[simp] theorem State.order_of_setBay (i : OrderHandle) (b : BayNo) (x : Option SetHandle) : (s.setBay b x).order i = s.order i := rfl
@[simp] theorem State.order_of_setStation (i : OrderHandle) (n : StationNo) (x : Station) : (s.setStation n x).order i = s.order i := rfl
@[simp] theorem State.order_of_setTrip (i : OrderHandle) (t : TripHandle) (x : Trip) : (s.setTrip t x).order i = s.order i := rfl
@[simp] theorem State.order_of_count (i : OrderHandle) (k : Tally) (n : Nat) : (s.count k n).order i = s.order i := rfl
@[simp] theorem State.order_of_raise (i : OrderHandle) (c : Cause) : (s.raise c).order i = s.order i := rfl
@[simp] theorem State.order_of_raiseTailgate (i : OrderHandle) (l : LaneNo) : (s.raiseTailgate l).order i = s.order i := rfl
@[simp] theorem State.order_of_raiseSegment (i : OrderHandle) (f : FieldNo) : (s.raiseSegment f).order i = s.order i := rfl
@[simp] theorem State.order_of_raiseSound (i : OrderHandle) (f : FieldNo) : (s.raiseSound f).order i = s.order i := rfl
@[simp] theorem State.order_of_raiseSet (i : OrderHandle) (k : SetKind) : (s.raiseSet k).order i = s.order i := rfl
@[simp] theorem State.order_of_raiseTrip (i : OrderHandle) (t : TripHandle) : (s.raiseTrip t).order i = s.order i := rfl
@[simp] theorem State.order_of_raisePort (i : OrderHandle) (k : PortKind) : (s.raisePort k).order i = s.order i := rfl
@[simp] theorem State.order_of_raiseOrder (i : OrderHandle) (o : OrderHandle) (k : NoteKind) : (s.raiseOrder o k).order i = s.order i := rfl
@[simp] theorem State.order_of_setStall (i : OrderHandle) (f : FieldNo) (st : Stall) (h : Option CarHandle) : (s.setStall f st h).order i = s.order i := rfl
@[simp] theorem State.order_of_evaluateSign (i : OrderHandle) (f : FieldNo) : (s.evaluateSign f).order i = s.order i := rfl
@[simp] theorem State.order_of_setArrival (i : OrderHandle) (l : LaneNo) (v : LoopLevel) : (s.setArrival l v).order i = s.order i := rfl
@[simp] theorem State.order_of_setPass (i : OrderHandle) (l : LaneNo) (v : LoopLevel) : (s.setPass l v).order i = s.order i := rfl
@[simp] theorem State.order_of_clockStatus (i : OrderHandle) (n : Nat) : (s.clockStatus n).order i = s.order i := rfl
@[simp] theorem State.order_of_answered (i : OrderHandle) (c : ResultCode) (bs : List Nat) : (s.answered c bs).order i = s.order i := rfl
@[simp] theorem State.station_of_setUnit (i : StationNo) (f : FieldNo) (u : FieldUnit) : (s.setUnit f u).station i = s.station i := rfl
@[simp] theorem State.station_of_setEntry (i : StationNo) (h : CarHandle) (e : Entry) : (s.setEntry h e).station i = s.station i := rfl
@[simp] theorem State.station_of_setCar (i : StationNo) (h : CarHandle) (c : Option Car) : (s.setCar h c).station i = s.station i := rfl
@[simp] theorem State.station_of_modCar (i : StationNo) (h : CarHandle) (g : Car → Car) : (s.modCar h g).station i = s.station i := rfl
@[simp] theorem State.station_of_setLane (i : StationNo) (l : LaneNo) (x : Lane) : (s.setLane l x).station i = s.station i := rfl
@[simp] theorem State.station_of_setProgram (i : StationNo) (f : FieldNo) (p : ProgramUnit) : (s.setProgram f p).station i = s.station i := rfl
@[simp] theorem State.station_of_setTimebase (i : StationNo) (f : FieldNo) (t : Timebase) : (s.setTimebase f t).station i = s.station i := rfl
@[simp] theorem State.station_of_setSlot (i : StationNo) (n : SetHandle) (x : SetSlot) : (s.setSlot n x).station i = s.station i := rfl
@[simp] theorem State.station_of_setBay (i : StationNo) (b : BayNo) (x : Option SetHandle) : (s.setBay b x).station i = s.station i := rfl
@[simp] theorem State.station_of_setOrder (i : StationNo) (o : OrderHandle) (x : Option Order) : (s.setOrder o x).station i = s.station i := rfl
@[simp] theorem State.station_of_modOrder (i : StationNo) (o : OrderHandle) (g : Order → Order) : (s.modOrder o g).station i = s.station i := rfl
@[simp] theorem State.station_of_setTrip (i : StationNo) (t : TripHandle) (x : Trip) : (s.setTrip t x).station i = s.station i := rfl
@[simp] theorem State.station_of_count (i : StationNo) (k : Tally) (n : Nat) : (s.count k n).station i = s.station i := rfl
@[simp] theorem State.station_of_raise (i : StationNo) (c : Cause) : (s.raise c).station i = s.station i := rfl
@[simp] theorem State.station_of_raiseTailgate (i : StationNo) (l : LaneNo) : (s.raiseTailgate l).station i = s.station i := rfl
@[simp] theorem State.station_of_raiseSegment (i : StationNo) (f : FieldNo) : (s.raiseSegment f).station i = s.station i := rfl
@[simp] theorem State.station_of_raiseSound (i : StationNo) (f : FieldNo) : (s.raiseSound f).station i = s.station i := rfl
@[simp] theorem State.station_of_raiseSet (i : StationNo) (k : SetKind) : (s.raiseSet k).station i = s.station i := rfl
@[simp] theorem State.station_of_raiseTrip (i : StationNo) (t : TripHandle) : (s.raiseTrip t).station i = s.station i := rfl
@[simp] theorem State.station_of_raisePort (i : StationNo) (k : PortKind) : (s.raisePort k).station i = s.station i := rfl
@[simp] theorem State.station_of_raiseOrder (i : StationNo) (o : OrderHandle) (k : NoteKind) : (s.raiseOrder o k).station i = s.station i := rfl
@[simp] theorem State.station_of_setStall (i : StationNo) (f : FieldNo) (st : Stall) (h : Option CarHandle) : (s.setStall f st h).station i = s.station i := rfl
@[simp] theorem State.station_of_evaluateSign (i : StationNo) (f : FieldNo) : (s.evaluateSign f).station i = s.station i := rfl
@[simp] theorem State.station_of_setArrival (i : StationNo) (l : LaneNo) (v : LoopLevel) : (s.setArrival l v).station i = s.station i := rfl
@[simp] theorem State.station_of_setPass (i : StationNo) (l : LaneNo) (v : LoopLevel) : (s.setPass l v).station i = s.station i := rfl
@[simp] theorem State.station_of_clockStatus (i : StationNo) (n : Nat) : (s.clockStatus n).station i = s.station i := rfl
@[simp] theorem State.station_of_answered (i : StationNo) (c : ResultCode) (bs : List Nat) : (s.answered c bs).station i = s.station i := rfl
@[simp] theorem State.trip_of_setUnit (i : TripHandle) (f : FieldNo) (u : FieldUnit) : (s.setUnit f u).trip i = s.trip i := rfl
@[simp] theorem State.trip_of_setEntry (i : TripHandle) (h : CarHandle) (e : Entry) : (s.setEntry h e).trip i = s.trip i := rfl
@[simp] theorem State.trip_of_setCar (i : TripHandle) (h : CarHandle) (c : Option Car) : (s.setCar h c).trip i = s.trip i := rfl
@[simp] theorem State.trip_of_modCar (i : TripHandle) (h : CarHandle) (g : Car → Car) : (s.modCar h g).trip i = s.trip i := rfl
@[simp] theorem State.trip_of_setLane (i : TripHandle) (l : LaneNo) (x : Lane) : (s.setLane l x).trip i = s.trip i := rfl
@[simp] theorem State.trip_of_setProgram (i : TripHandle) (f : FieldNo) (p : ProgramUnit) : (s.setProgram f p).trip i = s.trip i := rfl
@[simp] theorem State.trip_of_setTimebase (i : TripHandle) (f : FieldNo) (t : Timebase) : (s.setTimebase f t).trip i = s.trip i := rfl
@[simp] theorem State.trip_of_setSlot (i : TripHandle) (n : SetHandle) (x : SetSlot) : (s.setSlot n x).trip i = s.trip i := rfl
@[simp] theorem State.trip_of_setBay (i : TripHandle) (b : BayNo) (x : Option SetHandle) : (s.setBay b x).trip i = s.trip i := rfl
@[simp] theorem State.trip_of_setOrder (i : TripHandle) (o : OrderHandle) (x : Option Order) : (s.setOrder o x).trip i = s.trip i := rfl
@[simp] theorem State.trip_of_modOrder (i : TripHandle) (o : OrderHandle) (g : Order → Order) : (s.modOrder o g).trip i = s.trip i := rfl
@[simp] theorem State.trip_of_setStation (i : TripHandle) (n : StationNo) (x : Station) : (s.setStation n x).trip i = s.trip i := rfl
@[simp] theorem State.trip_of_count (i : TripHandle) (k : Tally) (n : Nat) : (s.count k n).trip i = s.trip i := rfl
@[simp] theorem State.trip_of_raise (i : TripHandle) (c : Cause) : (s.raise c).trip i = s.trip i := rfl
@[simp] theorem State.trip_of_raiseTailgate (i : TripHandle) (l : LaneNo) : (s.raiseTailgate l).trip i = s.trip i := rfl
@[simp] theorem State.trip_of_raiseSegment (i : TripHandle) (f : FieldNo) : (s.raiseSegment f).trip i = s.trip i := rfl
@[simp] theorem State.trip_of_raiseSound (i : TripHandle) (f : FieldNo) : (s.raiseSound f).trip i = s.trip i := rfl
@[simp] theorem State.trip_of_raiseSet (i : TripHandle) (k : SetKind) : (s.raiseSet k).trip i = s.trip i := rfl
@[simp] theorem State.trip_of_raiseTrip (i : TripHandle) (t : TripHandle) : (s.raiseTrip t).trip i = s.trip i := rfl
@[simp] theorem State.trip_of_raisePort (i : TripHandle) (k : PortKind) : (s.raisePort k).trip i = s.trip i := rfl
@[simp] theorem State.trip_of_raiseOrder (i : TripHandle) (o : OrderHandle) (k : NoteKind) : (s.raiseOrder o k).trip i = s.trip i := rfl
@[simp] theorem State.trip_of_setStall (i : TripHandle) (f : FieldNo) (st : Stall) (h : Option CarHandle) : (s.setStall f st h).trip i = s.trip i := rfl
@[simp] theorem State.trip_of_evaluateSign (i : TripHandle) (f : FieldNo) : (s.evaluateSign f).trip i = s.trip i := rfl
@[simp] theorem State.trip_of_setArrival (i : TripHandle) (l : LaneNo) (v : LoopLevel) : (s.setArrival l v).trip i = s.trip i := rfl
@[simp] theorem State.trip_of_setPass (i : TripHandle) (l : LaneNo) (v : LoopLevel) : (s.setPass l v).trip i = s.trip i := rfl
@[simp] theorem State.trip_of_clockStatus (i : TripHandle) (n : Nat) : (s.clockStatus n).trip i = s.trip i := rfl
@[simp] theorem State.trip_of_answered (i : TripHandle) (c : ResultCode) (bs : List Nat) : (s.answered c bs).trip i = s.trip i := rfl

@[simp] theorem State.car_of_setUnit (i : CarHandle) (f : FieldNo) (u : FieldUnit) : (s.setUnit f u).car i = s.car i := rfl
@[simp] theorem State.car_of_setLane (i : CarHandle) (l : LaneNo) (x : Lane) : (s.setLane l x).car i = s.car i := rfl
@[simp] theorem State.car_of_setProgram (i : CarHandle) (f : FieldNo) (p : ProgramUnit) : (s.setProgram f p).car i = s.car i := rfl
@[simp] theorem State.car_of_setTimebase (i : CarHandle) (f : FieldNo) (t : Timebase) : (s.setTimebase f t).car i = s.car i := rfl
@[simp] theorem State.car_of_setSlot (i : CarHandle) (n : SetHandle) (x : SetSlot) : (s.setSlot n x).car i = s.car i := rfl
@[simp] theorem State.car_of_setBay (i : CarHandle) (b : BayNo) (x : Option SetHandle) : (s.setBay b x).car i = s.car i := rfl
@[simp] theorem State.car_of_setOrder (i : CarHandle) (o : OrderHandle) (x : Option Order) : (s.setOrder o x).car i = s.car i := rfl
@[simp] theorem State.car_of_modOrder (i : CarHandle) (o : OrderHandle) (g : Order → Order) : (s.modOrder o g).car i = s.car i := rfl
@[simp] theorem State.car_of_setStation (i : CarHandle) (n : StationNo) (x : Station) : (s.setStation n x).car i = s.car i := rfl
@[simp] theorem State.car_of_setTrip (i : CarHandle) (t : TripHandle) (x : Trip) : (s.setTrip t x).car i = s.car i := rfl
@[simp] theorem State.car_of_count (i : CarHandle) (k : Tally) (n : Nat) : (s.count k n).car i = s.car i := rfl
@[simp] theorem State.car_of_raise (i : CarHandle) (c : Cause) : (s.raise c).car i = s.car i := rfl
@[simp] theorem State.car_of_raiseTailgate (i : CarHandle) (l : LaneNo) : (s.raiseTailgate l).car i = s.car i := rfl
@[simp] theorem State.car_of_raiseSegment (i : CarHandle) (f : FieldNo) : (s.raiseSegment f).car i = s.car i := rfl
@[simp] theorem State.car_of_raiseSound (i : CarHandle) (f : FieldNo) : (s.raiseSound f).car i = s.car i := rfl
@[simp] theorem State.car_of_raiseSet (i : CarHandle) (k : SetKind) : (s.raiseSet k).car i = s.car i := rfl
@[simp] theorem State.car_of_raiseTrip (i : CarHandle) (t : TripHandle) : (s.raiseTrip t).car i = s.car i := rfl
@[simp] theorem State.car_of_raisePort (i : CarHandle) (k : PortKind) : (s.raisePort k).car i = s.car i := rfl
@[simp] theorem State.car_of_raiseOrder (i : CarHandle) (o : OrderHandle) (k : NoteKind) : (s.raiseOrder o k).car i = s.car i := rfl
@[simp] theorem State.car_of_setStall (i : CarHandle) (f : FieldNo) (st : Stall) (h : Option CarHandle) : (s.setStall f st h).car i = s.car i := rfl
@[simp] theorem State.car_of_evaluateSign (i : CarHandle) (f : FieldNo) : (s.evaluateSign f).car i = s.car i := rfl
@[simp] theorem State.car_of_setArrival (i : CarHandle) (l : LaneNo) (v : LoopLevel) : (s.setArrival l v).car i = s.car i := rfl
@[simp] theorem State.car_of_setPass (i : CarHandle) (l : LaneNo) (v : LoopLevel) : (s.setPass l v).car i = s.car i := rfl
@[simp] theorem State.car_of_clockStatus (i : CarHandle) (n : Nat) : (s.clockStatus n).car i = s.car i := rfl
@[simp] theorem State.car_of_answered (i : CarHandle) (c : ResultCode) (bs : List Nat) : (s.answered c bs).car i = s.car i := rfl
@[simp] theorem State.tally_of_setUnit (k' : Tally) (f : FieldNo) (u : FieldUnit) : (s.setUnit f u).tally k' = s.tally k' := rfl
@[simp] theorem State.tally_of_setEntry (k' : Tally) (h : CarHandle) (e : Entry) : (s.setEntry h e).tally k' = s.tally k' := rfl
@[simp] theorem State.tally_of_setCar (k' : Tally) (h : CarHandle) (c : Option Car) : (s.setCar h c).tally k' = s.tally k' := rfl
@[simp] theorem State.tally_of_modCar (k' : Tally) (h : CarHandle) (g : Car → Car) : (s.modCar h g).tally k' = s.tally k' := rfl
@[simp] theorem State.tally_of_setLane (k' : Tally) (l : LaneNo) (x : Lane) : (s.setLane l x).tally k' = s.tally k' := rfl
@[simp] theorem State.tally_of_setProgram (k' : Tally) (f : FieldNo) (p : ProgramUnit) : (s.setProgram f p).tally k' = s.tally k' := rfl
@[simp] theorem State.tally_of_setTimebase (k' : Tally) (f : FieldNo) (t : Timebase) : (s.setTimebase f t).tally k' = s.tally k' := rfl
@[simp] theorem State.tally_of_setSlot (k' : Tally) (n : SetHandle) (x : SetSlot) : (s.setSlot n x).tally k' = s.tally k' := rfl
@[simp] theorem State.tally_of_setBay (k' : Tally) (b : BayNo) (x : Option SetHandle) : (s.setBay b x).tally k' = s.tally k' := rfl
@[simp] theorem State.tally_of_setOrder (k' : Tally) (o : OrderHandle) (x : Option Order) : (s.setOrder o x).tally k' = s.tally k' := rfl
@[simp] theorem State.tally_of_modOrder (k' : Tally) (o : OrderHandle) (g : Order → Order) : (s.modOrder o g).tally k' = s.tally k' := rfl
@[simp] theorem State.tally_of_setStation (k' : Tally) (n : StationNo) (x : Station) : (s.setStation n x).tally k' = s.tally k' := rfl
@[simp] theorem State.tally_of_setTrip (k' : Tally) (t : TripHandle) (x : Trip) : (s.setTrip t x).tally k' = s.tally k' := rfl
@[simp] theorem State.tally_of_raise (k' : Tally) (c : Cause) : (s.raise c).tally k' = s.tally k' := rfl
@[simp] theorem State.tally_of_raiseTailgate (k' : Tally) (l : LaneNo) : (s.raiseTailgate l).tally k' = s.tally k' := rfl
@[simp] theorem State.tally_of_raiseSegment (k' : Tally) (f : FieldNo) : (s.raiseSegment f).tally k' = s.tally k' := rfl
@[simp] theorem State.tally_of_raiseSound (k' : Tally) (f : FieldNo) : (s.raiseSound f).tally k' = s.tally k' := rfl
@[simp] theorem State.tally_of_raiseSet (k' : Tally) (k : SetKind) : (s.raiseSet k).tally k' = s.tally k' := rfl
@[simp] theorem State.tally_of_raiseTrip (k' : Tally) (t : TripHandle) : (s.raiseTrip t).tally k' = s.tally k' := rfl
@[simp] theorem State.tally_of_raisePort (k' : Tally) (k : PortKind) : (s.raisePort k).tally k' = s.tally k' := rfl
@[simp] theorem State.tally_of_raiseOrder (k' : Tally) (o : OrderHandle) (k : NoteKind) : (s.raiseOrder o k).tally k' = s.tally k' := rfl
@[simp] theorem State.tally_of_setStall (k' : Tally) (f : FieldNo) (st : Stall) (h : Option CarHandle) : (s.setStall f st h).tally k' = s.tally k' := rfl
@[simp] theorem State.tally_of_evaluateSign (k' : Tally) (f : FieldNo) : (s.evaluateSign f).tally k' = s.tally k' := rfl
@[simp] theorem State.tally_of_setArrival (k' : Tally) (l : LaneNo) (v : LoopLevel) : (s.setArrival l v).tally k' = s.tally k' := rfl
@[simp] theorem State.tally_of_setPass (k' : Tally) (l : LaneNo) (v : LoopLevel) : (s.setPass l v).tally k' = s.tally k' := rfl
@[simp] theorem State.tally_of_clockStatus (k' : Tally) (n : Nat) : (s.clockStatus n).tally k' = s.tally k' := rfl
@[simp] theorem State.tally_of_answered (k' : Tally) (c : ResultCode) (bs : List Nat) : (s.answered c bs).tally k' = s.tally k' := rfl
@[simp] theorem State.backlog_of_setUnit (i : StationNo) (f : FieldNo) (u : FieldUnit) : (s.setUnit f u).backlog i = s.backlog i := rfl
@[simp] theorem State.backlog_of_setEntry (i : StationNo) (h : CarHandle) (e : Entry) : (s.setEntry h e).backlog i = s.backlog i := rfl
@[simp] theorem State.backlog_of_setCar (i : StationNo) (h : CarHandle) (c : Option Car) : (s.setCar h c).backlog i = s.backlog i := rfl
@[simp] theorem State.backlog_of_modCar (i : StationNo) (h : CarHandle) (g : Car → Car) : (s.modCar h g).backlog i = s.backlog i := rfl
@[simp] theorem State.backlog_of_setLane (i : StationNo) (l : LaneNo) (x : Lane) : (s.setLane l x).backlog i = s.backlog i := rfl
@[simp] theorem State.backlog_of_setProgram (i : StationNo) (f : FieldNo) (p : ProgramUnit) : (s.setProgram f p).backlog i = s.backlog i := rfl
@[simp] theorem State.backlog_of_setTimebase (i : StationNo) (f : FieldNo) (t : Timebase) : (s.setTimebase f t).backlog i = s.backlog i := rfl
@[simp] theorem State.backlog_of_setSlot (i : StationNo) (n : SetHandle) (x : SetSlot) : (s.setSlot n x).backlog i = s.backlog i := rfl
@[simp] theorem State.backlog_of_setBay (i : StationNo) (b : BayNo) (x : Option SetHandle) : (s.setBay b x).backlog i = s.backlog i := rfl
@[simp] theorem State.backlog_of_setOrder (i : StationNo) (o : OrderHandle) (x : Option Order) : (s.setOrder o x).backlog i = s.backlog i := rfl
@[simp] theorem State.backlog_of_modOrder (i : StationNo) (o : OrderHandle) (g : Order → Order) : (s.modOrder o g).backlog i = s.backlog i := rfl
@[simp] theorem State.backlog_of_setTrip (i : StationNo) (t : TripHandle) (x : Trip) : (s.setTrip t x).backlog i = s.backlog i := rfl
@[simp] theorem State.backlog_of_count (i : StationNo) (k : Tally) (n : Nat) : (s.count k n).backlog i = s.backlog i := rfl
@[simp] theorem State.backlog_of_raise (i : StationNo) (c : Cause) : (s.raise c).backlog i = s.backlog i := rfl
@[simp] theorem State.backlog_of_raiseTailgate (i : StationNo) (l : LaneNo) : (s.raiseTailgate l).backlog i = s.backlog i := rfl
@[simp] theorem State.backlog_of_raiseSegment (i : StationNo) (f : FieldNo) : (s.raiseSegment f).backlog i = s.backlog i := rfl
@[simp] theorem State.backlog_of_raiseSound (i : StationNo) (f : FieldNo) : (s.raiseSound f).backlog i = s.backlog i := rfl
@[simp] theorem State.backlog_of_raiseSet (i : StationNo) (k : SetKind) : (s.raiseSet k).backlog i = s.backlog i := rfl
@[simp] theorem State.backlog_of_raiseTrip (i : StationNo) (t : TripHandle) : (s.raiseTrip t).backlog i = s.backlog i := rfl
@[simp] theorem State.backlog_of_raisePort (i : StationNo) (k : PortKind) : (s.raisePort k).backlog i = s.backlog i := rfl
@[simp] theorem State.backlog_of_raiseOrder (i : StationNo) (o : OrderHandle) (k : NoteKind) : (s.raiseOrder o k).backlog i = s.backlog i := rfl
@[simp] theorem State.backlog_of_setStall (i : StationNo) (f : FieldNo) (st : Stall) (h : Option CarHandle) : (s.setStall f st h).backlog i = s.backlog i := rfl
@[simp] theorem State.backlog_of_evaluateSign (i : StationNo) (f : FieldNo) : (s.evaluateSign f).backlog i = s.backlog i := rfl
@[simp] theorem State.backlog_of_setArrival (i : StationNo) (l : LaneNo) (v : LoopLevel) : (s.setArrival l v).backlog i = s.backlog i := rfl
@[simp] theorem State.backlog_of_setPass (i : StationNo) (l : LaneNo) (v : LoopLevel) : (s.setPass l v).backlog i = s.backlog i := rfl
@[simp] theorem State.backlog_of_clockStatus (i : StationNo) (n : Nat) : (s.clockStatus n).backlog i = s.backlog i := rfl
@[simp] theorem State.backlog_of_answered (i : StationNo) (c : ResultCode) (bs : List Nat) : (s.answered c bs).backlog i = s.backlog i := rfl

end Sys2Proof.Machine
end

