-- ==== Sys2Proof/Laws/Frame.lean ====
section
/-! SUPPORT. For each shared operation, the fields of the state that it leaves as they are: everything else it can do lies
in the fields not named. -/

namespace Sys2Proof.Machine

/-- What each turn of a walk over a list keeps, the walk keeps. -/
theorem State.forEach_keeps {α β : Type} (π : State → β) (s : State) (xs : List α) (g : α → State → State)
    (h : ∀ x t, π (g x t) = π t) : π (s.forEach xs g) = π s := by
  induction xs generalizing s with
  | nil => rfl
  | cons x rest ih => exact (ih (g x s)).trans (h x s)

/-- What each turn of a walk keeps true, the walk keeps true. -/
theorem State.forEach_induct {α : Type} (p : State → Prop) (s : State) (xs : List α) (g : α → State → State)
    (h : ∀ x t, x ∈ xs → p t → p (g x t)) (hs : p s) : p (s.forEach xs g) := by
  induction xs generalizing s with
  | nil => exact hs
  | cons x rest ih =>
    exact ih (g x s) (fun y t hy => h y t (List.mem_cons_of_mem _ hy)) (h x s List.mem_cons_self hs)

variable (s : State)

/-! ### Flags -/

@[simp] theorem State.touch_frame (h : CarHandle) :
    (s.touch h).fieldUnits = s.fieldUnits ∧
      (s.touch h).serialCounter = s.serialCounter ∧
      (s.touch h).lanes = s.lanes ∧
      (s.touch h).tallies = s.tallies ∧
      (s.touch h).programs = s.programs ∧
      (s.touch h).timebases = s.timebases ∧
      (s.touch h).sets = s.sets ∧
      (s.touch h).bays = s.bays ∧
      (s.touch h).readyLevel = s.readyLevel ∧
      (s.touch h).issueTime = s.issueTime ∧
      (s.touch h).orders = s.orders ∧
      (s.touch h).parked = s.parked ∧
      (s.touch h).placement = s.placement ∧
      (s.touch h).stations = s.stations ∧
      (s.touch h).prepLimit = s.prepLimit ∧
      (s.touch h).hold = s.hold ∧
      (s.touch h).trips = s.trips ∧
      (s.touch h).readyList = s.readyList ∧
      (s.touch h).window = s.window ∧
      (s.touch h).port = s.port ∧
      (s.touch h).phase = s.phase ∧
      (s.touch h).freeCount = s.freeCount ∧
      (s.touch h).pending = s.pending := by
  simp [State.touch]

@[simp] theorem State.touchCar_frame (c : Option CarHandle) :
    (s.touchCar c).fieldUnits = s.fieldUnits ∧
      (s.touchCar c).serialCounter = s.serialCounter ∧
      (s.touchCar c).lanes = s.lanes ∧
      (s.touchCar c).tallies = s.tallies ∧
      (s.touchCar c).programs = s.programs ∧
      (s.touchCar c).timebases = s.timebases ∧
      (s.touchCar c).sets = s.sets ∧
      (s.touchCar c).bays = s.bays ∧
      (s.touchCar c).readyLevel = s.readyLevel ∧
      (s.touchCar c).issueTime = s.issueTime ∧
      (s.touchCar c).orders = s.orders ∧
      (s.touchCar c).parked = s.parked ∧
      (s.touchCar c).placement = s.placement ∧
      (s.touchCar c).stations = s.stations ∧
      (s.touchCar c).prepLimit = s.prepLimit ∧
      (s.touchCar c).hold = s.hold ∧
      (s.touchCar c).trips = s.trips ∧
      (s.touchCar c).readyList = s.readyList ∧
      (s.touchCar c).window = s.window ∧
      (s.touchCar c).port = s.port ∧
      (s.touchCar c).phase = s.phase ∧
      (s.touchCar c).freeCount = s.freeCount ∧
      (s.touchCar c).pending = s.pending := by
  unfold State.touchCar
  (repeat' split) <;> simp

@[simp] theorem State.discardReply_frame :
    (s.discardReply).fieldUnits = s.fieldUnits ∧
      (s.discardReply).entries = s.entries ∧
      (s.discardReply).serialCounter = s.serialCounter ∧
      (s.discardReply).lanes = s.lanes ∧
      (s.discardReply).tallies = s.tallies ∧
      (s.discardReply).programs = s.programs ∧
      (s.discardReply).timebases = s.timebases ∧
      (s.discardReply).sets = s.sets ∧
      (s.discardReply).bays = s.bays ∧
      (s.discardReply).readyLevel = s.readyLevel ∧
      (s.discardReply).issueTime = s.issueTime ∧
      (s.discardReply).orders = s.orders ∧
      (s.discardReply).parked = s.parked ∧
      (s.discardReply).placement = s.placement ∧
      (s.discardReply).stations = s.stations ∧
      (s.discardReply).prepLimit = s.prepLimit ∧
      (s.discardReply).hold = s.hold ∧
      (s.discardReply).trips = s.trips ∧
      (s.discardReply).readyList = s.readyList ∧
      (s.discardReply).window = s.window ∧
      (s.discardReply).phase = s.phase ∧
      (s.discardReply).freeCount = s.freeCount ∧
      (s.discardReply).pending = s.pending := by
  unfold State.discardReply
  (repeat' split) <;> simp

@[simp] theorem State.atWork_frame (i : Instr) :
    (s.atWork i).fieldUnits = s.fieldUnits ∧
      (s.atWork i).entries = s.entries ∧
      (s.atWork i).serialCounter = s.serialCounter ∧
      (s.atWork i).lanes = s.lanes ∧
      (s.atWork i).tallies = s.tallies ∧
      (s.atWork i).programs = s.programs ∧
      (s.atWork i).timebases = s.timebases ∧
      (s.atWork i).sets = s.sets ∧
      (s.atWork i).bays = s.bays ∧
      (s.atWork i).readyLevel = s.readyLevel ∧
      (s.atWork i).issueTime = s.issueTime ∧
      (s.atWork i).orders = s.orders ∧
      (s.atWork i).parked = s.parked ∧
      (s.atWork i).placement = s.placement ∧
      (s.atWork i).stations = s.stations ∧
      (s.atWork i).prepLimit = s.prepLimit ∧
      (s.atWork i).hold = s.hold ∧
      (s.atWork i).trips = s.trips ∧
      (s.atWork i).readyList = s.readyList ∧
      (s.atWork i).window = s.window ∧
      (s.atWork i).phase = s.phase ∧
      (s.atWork i).freeCount = s.freeCount ∧
      (s.atWork i).pending = s.pending := by
  simp [State.atWork]

/-! ### Kitchen -/

@[simp] theorem State.evaluateHold_frame :
    (s.evaluateHold).fieldUnits = s.fieldUnits ∧
      (s.evaluateHold).entries = s.entries ∧
      (s.evaluateHold).serialCounter = s.serialCounter ∧
      (s.evaluateHold).lanes = s.lanes ∧
      (s.evaluateHold).tallies = s.tallies ∧
      (s.evaluateHold).programs = s.programs ∧
      (s.evaluateHold).timebases = s.timebases ∧
      (s.evaluateHold).sets = s.sets ∧
      (s.evaluateHold).bays = s.bays ∧
      (s.evaluateHold).readyLevel = s.readyLevel ∧
      (s.evaluateHold).issueTime = s.issueTime ∧
      (s.evaluateHold).orders = s.orders ∧
      (s.evaluateHold).parked = s.parked ∧
      (s.evaluateHold).placement = s.placement ∧
      (s.evaluateHold).stations = s.stations ∧
      (s.evaluateHold).prepLimit = s.prepLimit ∧
      (s.evaluateHold).trips = s.trips ∧
      (s.evaluateHold).readyList = s.readyList ∧
      (s.evaluateHold).window = s.window ∧
      (s.evaluateHold).port = s.port ∧
      (s.evaluateHold).phase = s.phase ∧
      (s.evaluateHold).freeCount = s.freeCount ∧
      (s.evaluateHold).pending = s.pending := by
  unfold State.evaluateHold
  dsimp only
  (repeat' split) <;> simp

@[simp] theorem State.markDue_frame (w : Order → Bool) :
    (s.markDue w).fieldUnits = s.fieldUnits ∧
      (s.markDue w).entries = s.entries ∧
      (s.markDue w).serialCounter = s.serialCounter ∧
      (s.markDue w).lanes = s.lanes ∧
      (s.markDue w).tallies = s.tallies ∧
      (s.markDue w).programs = s.programs ∧
      (s.markDue w).timebases = s.timebases ∧
      (s.markDue w).sets = s.sets ∧
      (s.markDue w).bays = s.bays ∧
      (s.markDue w).readyLevel = s.readyLevel ∧
      (s.markDue w).issueTime = s.issueTime ∧
      (s.markDue w).parked = s.parked ∧
      (s.markDue w).placement = s.placement ∧
      (s.markDue w).stations = s.stations ∧
      (s.markDue w).prepLimit = s.prepLimit ∧
      (s.markDue w).hold = s.hold ∧
      (s.markDue w).trips = s.trips ∧
      (s.markDue w).readyList = s.readyList ∧
      (s.markDue w).window = s.window ∧
      (s.markDue w).attention = s.attention ∧
      (s.markDue w).port = s.port ∧
      (s.markDue w).phase = s.phase ∧
      (s.markDue w).freeCount = s.freeCount ∧
      (s.markDue w).pending = s.pending := by
  unfold State.markDue
  refine ⟨State.forEach_keeps State.fieldUnits _ _ _ fun _ _ => by (repeat' split) <;> simp, State.forEach_keeps State.entries _ _ _ fun _ _ => by (repeat' split) <;> simp, State.forEach_keeps State.serialCounter _ _ _ fun _ _ => by (repeat' split) <;> simp, State.forEach_keeps State.lanes _ _ _ fun _ _ => by (repeat' split) <;> simp, State.forEach_keeps State.tallies _ _ _ fun _ _ => by (repeat' split) <;> simp, State.forEach_keeps State.programs _ _ _ fun _ _ => by (repeat' split) <;> simp, State.forEach_keeps State.timebases _ _ _ fun _ _ => by (repeat' split) <;> simp, State.forEach_keeps State.sets _ _ _ fun _ _ => by (repeat' split) <;> simp, State.forEach_keeps State.bays _ _ _ fun _ _ => by (repeat' split) <;> simp, State.forEach_keeps State.readyLevel _ _ _ fun _ _ => by (repeat' split) <;> simp, State.forEach_keeps State.issueTime _ _ _ fun _ _ => by (repeat' split) <;> simp, State.forEach_keeps State.parked _ _ _ fun _ _ => by (repeat' split) <;> simp, State.forEach_keeps State.placement _ _ _ fun _ _ => by (repeat' split) <;> simp, State.forEach_keeps State.stations _ _ _ fun _ _ => by (repeat' split) <;> simp, State.forEach_keeps State.prepLimit _ _ _ fun _ _ => by (repeat' split) <;> simp, State.forEach_keeps State.hold _ _ _ fun _ _ => by (repeat' split) <;> simp, State.forEach_keeps State.trips _ _ _ fun _ _ => by (repeat' split) <;> simp, State.forEach_keeps State.readyList _ _ _ fun _ _ => by (repeat' split) <;> simp, State.forEach_keeps State.window _ _ _ fun _ _ => by (repeat' split) <;> simp, State.forEach_keeps State.attention _ _ _ fun _ _ => by (repeat' split) <;> simp, State.forEach_keeps State.port _ _ _ fun _ _ => by (repeat' split) <;> simp, State.forEach_keeps State.phase _ _ _ fun _ _ => by (repeat' split) <;> simp, State.forEach_keeps State.freeCount _ _ _ fun _ _ => by (repeat' split) <;> simp, State.forEach_keeps State.pending _ _ _ fun _ _ => by (repeat' split) <;> simp⟩

@[simp] theorem State.withdrawLines_frame (g : OrderHandle × Nat → Bool) :
    (s.withdrawLines g).fieldUnits = s.fieldUnits ∧
      (s.withdrawLines g).entries = s.entries ∧
      (s.withdrawLines g).serialCounter = s.serialCounter ∧
      (s.withdrawLines g).lanes = s.lanes ∧
      (s.withdrawLines g).tallies = s.tallies ∧
      (s.withdrawLines g).programs = s.programs ∧
      (s.withdrawLines g).timebases = s.timebases ∧
      (s.withdrawLines g).sets = s.sets ∧
      (s.withdrawLines g).bays = s.bays ∧
      (s.withdrawLines g).readyLevel = s.readyLevel ∧
      (s.withdrawLines g).issueTime = s.issueTime ∧
      (s.withdrawLines g).orders = s.orders ∧
      (s.withdrawLines g).parked = s.parked ∧
      (s.withdrawLines g).placement = s.placement ∧
      (s.withdrawLines g).prepLimit = s.prepLimit ∧
      (s.withdrawLines g).hold = s.hold ∧
      (s.withdrawLines g).trips = s.trips ∧
      (s.withdrawLines g).readyList = s.readyList ∧
      (s.withdrawLines g).window = s.window ∧
      (s.withdrawLines g).attention = s.attention ∧
      (s.withdrawLines g).port = s.port ∧
      (s.withdrawLines g).phase = s.phase ∧
      (s.withdrawLines g).freeCount = s.freeCount ∧
      (s.withdrawLines g).pending = s.pending := by
  unfold State.withdrawLines
  refine ⟨State.forEach_keeps State.fieldUnits _ _ _ fun _ _ => by simp, State.forEach_keeps State.entries _ _ _ fun _ _ => by simp, State.forEach_keeps State.serialCounter _ _ _ fun _ _ => by simp, State.forEach_keeps State.lanes _ _ _ fun _ _ => by simp, State.forEach_keeps State.tallies _ _ _ fun _ _ => by simp, State.forEach_keeps State.programs _ _ _ fun _ _ => by simp, State.forEach_keeps State.timebases _ _ _ fun _ _ => by simp, State.forEach_keeps State.sets _ _ _ fun _ _ => by simp, State.forEach_keeps State.bays _ _ _ fun _ _ => by simp, State.forEach_keeps State.readyLevel _ _ _ fun _ _ => by simp, State.forEach_keeps State.issueTime _ _ _ fun _ _ => by simp, State.forEach_keeps State.orders _ _ _ fun _ _ => by simp, State.forEach_keeps State.parked _ _ _ fun _ _ => by simp, State.forEach_keeps State.placement _ _ _ fun _ _ => by simp, State.forEach_keeps State.prepLimit _ _ _ fun _ _ => by simp, State.forEach_keeps State.hold _ _ _ fun _ _ => by simp, State.forEach_keeps State.trips _ _ _ fun _ _ => by simp, State.forEach_keeps State.readyList _ _ _ fun _ _ => by simp, State.forEach_keeps State.window _ _ _ fun _ _ => by simp, State.forEach_keeps State.attention _ _ _ fun _ _ => by simp, State.forEach_keeps State.port _ _ _ fun _ _ => by simp, State.forEach_keeps State.phase _ _ _ fun _ _ => by simp, State.forEach_keeps State.freeCount _ _ _ fun _ _ => by simp, State.forEach_keeps State.pending _ _ _ fun _ _ => by simp⟩

@[simp] theorem State.release_frame (o : OrderHandle) (x : Order) :
    (s.release o x).fieldUnits = s.fieldUnits ∧
      (s.release o x).entries = s.entries ∧
      (s.release o x).serialCounter = s.serialCounter ∧
      (s.release o x).lanes = s.lanes ∧
      (s.release o x).tallies = s.tallies ∧
      (s.release o x).programs = s.programs ∧
      (s.release o x).timebases = s.timebases ∧
      (s.release o x).sets = s.sets ∧
      (s.release o x).bays = s.bays ∧
      (s.release o x).readyLevel = s.readyLevel ∧
      (s.release o x).issueTime = s.issueTime ∧
      (s.release o x).placement = s.placement ∧
      (s.release o x).prepLimit = s.prepLimit ∧
      (s.release o x).hold = s.hold ∧
      (s.release o x).trips = s.trips ∧
      (s.release o x).readyList = s.readyList ∧
      (s.release o x).window = s.window ∧
      (s.release o x).attention = s.attention ∧
      (s.release o x).port = s.port ∧
      (s.release o x).phase = s.phase ∧
      (s.release o x).freeCount = s.freeCount ∧
      (s.release o x).pending = s.pending := by
  unfold State.release
  refine ⟨State.forEach_keeps State.fieldUnits _ _ _ fun _ _ => by simp, State.forEach_keeps State.entries _ _ _ fun _ _ => by simp, State.forEach_keeps State.serialCounter _ _ _ fun _ _ => by simp, State.forEach_keeps State.lanes _ _ _ fun _ _ => by simp, State.forEach_keeps State.tallies _ _ _ fun _ _ => by simp, State.forEach_keeps State.programs _ _ _ fun _ _ => by simp, State.forEach_keeps State.timebases _ _ _ fun _ _ => by simp, State.forEach_keeps State.sets _ _ _ fun _ _ => by simp, State.forEach_keeps State.bays _ _ _ fun _ _ => by simp, State.forEach_keeps State.readyLevel _ _ _ fun _ _ => by simp, State.forEach_keeps State.issueTime _ _ _ fun _ _ => by simp, State.forEach_keeps State.placement _ _ _ fun _ _ => by simp, State.forEach_keeps State.prepLimit _ _ _ fun _ _ => by simp, State.forEach_keeps State.hold _ _ _ fun _ _ => by simp, State.forEach_keeps State.trips _ _ _ fun _ _ => by simp, State.forEach_keeps State.readyList _ _ _ fun _ _ => by simp, State.forEach_keeps State.window _ _ _ fun _ _ => by simp, State.forEach_keeps State.attention _ _ _ fun _ _ => by simp, State.forEach_keeps State.port _ _ _ fun _ _ => by simp, State.forEach_keeps State.phase _ _ _ fun _ _ => by simp, State.forEach_keeps State.freeCount _ _ _ fun _ _ => by simp, State.forEach_keeps State.pending _ _ _ fun _ _ => by simp⟩

theorem releaseWalk_frame (xs : List OrderHandle) (s : State) :
    (releaseWalk xs s).fieldUnits = s.fieldUnits ∧
      (releaseWalk xs s).entries = s.entries ∧
      (releaseWalk xs s).serialCounter = s.serialCounter ∧
      (releaseWalk xs s).lanes = s.lanes ∧
      (releaseWalk xs s).programs = s.programs ∧
      (releaseWalk xs s).timebases = s.timebases ∧
      (releaseWalk xs s).sets = s.sets ∧
      (releaseWalk xs s).bays = s.bays ∧
      (releaseWalk xs s).readyLevel = s.readyLevel ∧
      (releaseWalk xs s).issueTime = s.issueTime ∧
      (releaseWalk xs s).placement = s.placement ∧
      (releaseWalk xs s).prepLimit = s.prepLimit ∧
      (releaseWalk xs s).trips = s.trips ∧
      (releaseWalk xs s).readyList = s.readyList ∧
      (releaseWalk xs s).window = s.window ∧
      (releaseWalk xs s).port = s.port ∧
      (releaseWalk xs s).phase = s.phase ∧
      (releaseWalk xs s).freeCount = s.freeCount ∧
      (releaseWalk xs s).pending = s.pending := by
  induction xs generalizing s with
  | nil => simp [releaseWalk]
  | cons o rest ih =>
    unfold releaseWalk
    split
    · exact ih s
    · split
      · exact ih s
      · split
        · simpa using ih (s.count (.kitchen .stationDeferrals))
        · rename_i ord _ _ _
          dsimp only
          split
          · simp
          · simpa using ih ((s.release o ord).evaluateHold)

@[simp] theorem State.releasePass_frame :
    (s.releasePass).fieldUnits = s.fieldUnits ∧
      (s.releasePass).entries = s.entries ∧
      (s.releasePass).serialCounter = s.serialCounter ∧
      (s.releasePass).lanes = s.lanes ∧
      (s.releasePass).programs = s.programs ∧
      (s.releasePass).timebases = s.timebases ∧
      (s.releasePass).sets = s.sets ∧
      (s.releasePass).bays = s.bays ∧
      (s.releasePass).readyLevel = s.readyLevel ∧
      (s.releasePass).issueTime = s.issueTime ∧
      (s.releasePass).placement = s.placement ∧
      (s.releasePass).prepLimit = s.prepLimit ∧
      (s.releasePass).trips = s.trips ∧
      (s.releasePass).readyList = s.readyList ∧
      (s.releasePass).window = s.window ∧
      (s.releasePass).port = s.port ∧
      (s.releasePass).phase = s.phase ∧
      (s.releasePass).freeCount = s.freeCount ∧
      (s.releasePass).pending = s.pending := by
  unfold State.releasePass
  split
  · simp
  · exact releaseWalk_frame _ _

@[simp] theorem State.dueCheck_frame (w : Order → Bool) :
    (s.dueCheck w).fieldUnits = s.fieldUnits ∧
      (s.dueCheck w).entries = s.entries ∧
      (s.dueCheck w).serialCounter = s.serialCounter ∧
      (s.dueCheck w).lanes = s.lanes ∧
      (s.dueCheck w).programs = s.programs ∧
      (s.dueCheck w).timebases = s.timebases ∧
      (s.dueCheck w).sets = s.sets ∧
      (s.dueCheck w).bays = s.bays ∧
      (s.dueCheck w).readyLevel = s.readyLevel ∧
      (s.dueCheck w).issueTime = s.issueTime ∧
      (s.dueCheck w).placement = s.placement ∧
      (s.dueCheck w).prepLimit = s.prepLimit ∧
      (s.dueCheck w).trips = s.trips ∧
      (s.dueCheck w).readyList = s.readyList ∧
      (s.dueCheck w).window = s.window ∧
      (s.dueCheck w).port = s.port ∧
      (s.dueCheck w).phase = s.phase ∧
      (s.dueCheck w).freeCount = s.freeCount ∧
      (s.dueCheck w).pending = s.pending := by
  unfold State.dueCheck
  (repeat' split) <;> simp

@[simp] theorem State.dueCheckField_frame (f : FieldNo) :
    (s.dueCheckField f).fieldUnits = s.fieldUnits ∧
      (s.dueCheckField f).entries = s.entries ∧
      (s.dueCheckField f).serialCounter = s.serialCounter ∧
      (s.dueCheckField f).lanes = s.lanes ∧
      (s.dueCheckField f).programs = s.programs ∧
      (s.dueCheckField f).timebases = s.timebases ∧
      (s.dueCheckField f).sets = s.sets ∧
      (s.dueCheckField f).bays = s.bays ∧
      (s.dueCheckField f).readyLevel = s.readyLevel ∧
      (s.dueCheckField f).issueTime = s.issueTime ∧
      (s.dueCheckField f).placement = s.placement ∧
      (s.dueCheckField f).prepLimit = s.prepLimit ∧
      (s.dueCheckField f).trips = s.trips ∧
      (s.dueCheckField f).readyList = s.readyList ∧
      (s.dueCheckField f).window = s.window ∧
      (s.dueCheckField f).port = s.port ∧
      (s.dueCheckField f).phase = s.phase ∧
      (s.dueCheckField f).freeCount = s.freeCount ∧
      (s.dueCheckField f).pending = s.pending := by
  simp [State.dueCheckField]

@[simp] theorem State.evaluateHoldAndDue_frame :
    (s.evaluateHoldAndDue).fieldUnits = s.fieldUnits ∧
      (s.evaluateHoldAndDue).entries = s.entries ∧
      (s.evaluateHoldAndDue).serialCounter = s.serialCounter ∧
      (s.evaluateHoldAndDue).lanes = s.lanes ∧
      (s.evaluateHoldAndDue).tallies = s.tallies ∧
      (s.evaluateHoldAndDue).programs = s.programs ∧
      (s.evaluateHoldAndDue).timebases = s.timebases ∧
      (s.evaluateHoldAndDue).sets = s.sets ∧
      (s.evaluateHoldAndDue).bays = s.bays ∧
      (s.evaluateHoldAndDue).readyLevel = s.readyLevel ∧
      (s.evaluateHoldAndDue).issueTime = s.issueTime ∧
      (s.evaluateHoldAndDue).parked = s.parked ∧
      (s.evaluateHoldAndDue).placement = s.placement ∧
      (s.evaluateHoldAndDue).stations = s.stations ∧
      (s.evaluateHoldAndDue).prepLimit = s.prepLimit ∧
      (s.evaluateHoldAndDue).trips = s.trips ∧
      (s.evaluateHoldAndDue).readyList = s.readyList ∧
      (s.evaluateHoldAndDue).window = s.window ∧
      (s.evaluateHoldAndDue).port = s.port ∧
      (s.evaluateHoldAndDue).phase = s.phase ∧
      (s.evaluateHoldAndDue).freeCount = s.freeCount ∧
      (s.evaluateHoldAndDue).pending = s.pending := by
  unfold State.evaluateHoldAndDue
  dsimp only
  (repeat' split) <;> simp

@[simp] theorem State.afterFall_frame :
    (s.afterFall).fieldUnits = s.fieldUnits ∧
      (s.afterFall).entries = s.entries ∧
      (s.afterFall).serialCounter = s.serialCounter ∧
      (s.afterFall).lanes = s.lanes ∧
      (s.afterFall).programs = s.programs ∧
      (s.afterFall).timebases = s.timebases ∧
      (s.afterFall).sets = s.sets ∧
      (s.afterFall).bays = s.bays ∧
      (s.afterFall).readyLevel = s.readyLevel ∧
      (s.afterFall).issueTime = s.issueTime ∧
      (s.afterFall).placement = s.placement ∧
      (s.afterFall).prepLimit = s.prepLimit ∧
      (s.afterFall).trips = s.trips ∧
      (s.afterFall).readyList = s.readyList ∧
      (s.afterFall).window = s.window ∧
      (s.afterFall).port = s.port ∧
      (s.afterFall).phase = s.phase ∧
      (s.afterFall).freeCount = s.freeCount ∧
      (s.afterFall).pending = s.pending := by
  simp [State.afterFall]

@[simp] theorem State.afterThresholds_frame :
    (s.afterThresholds).fieldUnits = s.fieldUnits ∧
      (s.afterThresholds).entries = s.entries ∧
      (s.afterThresholds).serialCounter = s.serialCounter ∧
      (s.afterThresholds).lanes = s.lanes ∧
      (s.afterThresholds).programs = s.programs ∧
      (s.afterThresholds).timebases = s.timebases ∧
      (s.afterThresholds).sets = s.sets ∧
      (s.afterThresholds).bays = s.bays ∧
      (s.afterThresholds).readyLevel = s.readyLevel ∧
      (s.afterThresholds).issueTime = s.issueTime ∧
      (s.afterThresholds).placement = s.placement ∧
      (s.afterThresholds).prepLimit = s.prepLimit ∧
      (s.afterThresholds).trips = s.trips ∧
      (s.afterThresholds).readyList = s.readyList ∧
      (s.afterThresholds).window = s.window ∧
      (s.afterThresholds).port = s.port ∧
      (s.afterThresholds).phase = s.phase ∧
      (s.afterThresholds).freeCount = s.freeCount ∧
      (s.afterThresholds).pending = s.pending := by
  unfold State.afterThresholds
  dsimp only
  (repeat' split) <;> simp

/-! ### Trips -/

@[simp] theorem State.dispatch_frame (t : TripHandle) :
    (s.dispatch t).fieldUnits = s.fieldUnits ∧
      (s.dispatch t).entries = s.entries ∧
      (s.dispatch t).serialCounter = s.serialCounter ∧
      (s.dispatch t).lanes = s.lanes ∧
      (s.dispatch t).tallies = s.tallies ∧
      (s.dispatch t).programs = s.programs ∧
      (s.dispatch t).timebases = s.timebases ∧
      (s.dispatch t).sets = s.sets ∧
      (s.dispatch t).bays = s.bays ∧
      (s.dispatch t).readyLevel = s.readyLevel ∧
      (s.dispatch t).issueTime = s.issueTime ∧
      (s.dispatch t).parked = s.parked ∧
      (s.dispatch t).placement = s.placement ∧
      (s.dispatch t).stations = s.stations ∧
      (s.dispatch t).prepLimit = s.prepLimit ∧
      (s.dispatch t).hold = s.hold ∧
      (s.dispatch t).readyList = s.readyList ∧
      (s.dispatch t).window = s.window ∧
      (s.dispatch t).port = s.port ∧
      (s.dispatch t).phase = s.phase ∧
      (s.dispatch t).freeCount = s.freeCount ∧
      (s.dispatch t).pending = s.pending := by
  unfold State.dispatch
  refine ⟨(State.forEach_keeps State.fieldUnits _ _ _ fun _ _ => by simp).trans (by simp), (State.forEach_keeps State.entries _ _ _ fun _ _ => by simp).trans (by simp), (State.forEach_keeps State.serialCounter _ _ _ fun _ _ => by simp).trans (by simp), (State.forEach_keeps State.lanes _ _ _ fun _ _ => by simp).trans (by simp), (State.forEach_keeps State.tallies _ _ _ fun _ _ => by simp).trans (by simp), (State.forEach_keeps State.programs _ _ _ fun _ _ => by simp).trans (by simp), (State.forEach_keeps State.timebases _ _ _ fun _ _ => by simp).trans (by simp), (State.forEach_keeps State.sets _ _ _ fun _ _ => by simp).trans (by simp), (State.forEach_keeps State.bays _ _ _ fun _ _ => by simp).trans (by simp), (State.forEach_keeps State.readyLevel _ _ _ fun _ _ => by simp).trans (by simp), (State.forEach_keeps State.issueTime _ _ _ fun _ _ => by simp).trans (by simp), (State.forEach_keeps State.parked _ _ _ fun _ _ => by simp).trans (by simp), (State.forEach_keeps State.placement _ _ _ fun _ _ => by simp).trans (by simp), (State.forEach_keeps State.stations _ _ _ fun _ _ => by simp).trans (by simp), (State.forEach_keeps State.prepLimit _ _ _ fun _ _ => by simp).trans (by simp), (State.forEach_keeps State.hold _ _ _ fun _ _ => by simp).trans (by simp), (State.forEach_keeps State.readyList _ _ _ fun _ _ => by simp).trans (by simp), (State.forEach_keeps State.window _ _ _ fun _ _ => by simp).trans (by simp), (State.forEach_keeps State.port _ _ _ fun _ _ => by simp).trans (by simp), (State.forEach_keeps State.phase _ _ _ fun _ _ => by simp).trans (by simp), (State.forEach_keeps State.freeCount _ _ _ fun _ _ => by simp).trans (by simp), (State.forEach_keeps State.pending _ _ _ fun _ _ => by simp).trans (by simp)⟩

@[simp] theorem State.closeTrip_frame (t : TripHandle) :
    (s.closeTrip t).fieldUnits = s.fieldUnits ∧
      (s.closeTrip t).entries = s.entries ∧
      (s.closeTrip t).serialCounter = s.serialCounter ∧
      (s.closeTrip t).lanes = s.lanes ∧
      (s.closeTrip t).tallies = s.tallies ∧
      (s.closeTrip t).programs = s.programs ∧
      (s.closeTrip t).timebases = s.timebases ∧
      (s.closeTrip t).sets = s.sets ∧
      (s.closeTrip t).bays = s.bays ∧
      (s.closeTrip t).readyLevel = s.readyLevel ∧
      (s.closeTrip t).issueTime = s.issueTime ∧
      (s.closeTrip t).parked = s.parked ∧
      (s.closeTrip t).placement = s.placement ∧
      (s.closeTrip t).stations = s.stations ∧
      (s.closeTrip t).prepLimit = s.prepLimit ∧
      (s.closeTrip t).hold = s.hold ∧
      (s.closeTrip t).readyList = s.readyList ∧
      (s.closeTrip t).window = s.window ∧
      (s.closeTrip t).port = s.port ∧
      (s.closeTrip t).phase = s.phase ∧
      (s.closeTrip t).freeCount = s.freeCount ∧
      (s.closeTrip t).pending = s.pending := by
  unfold State.closeTrip
  (repeat' split) <;> simp

@[simp] theorem State.joinTrip_frame (t : TripHandle) (os : List OrderHandle) :
    (s.joinTrip t os).fieldUnits = s.fieldUnits ∧
      (s.joinTrip t os).entries = s.entries ∧
      (s.joinTrip t os).serialCounter = s.serialCounter ∧
      (s.joinTrip t os).lanes = s.lanes ∧
      (s.joinTrip t os).tallies = s.tallies ∧
      (s.joinTrip t os).programs = s.programs ∧
      (s.joinTrip t os).timebases = s.timebases ∧
      (s.joinTrip t os).sets = s.sets ∧
      (s.joinTrip t os).bays = s.bays ∧
      (s.joinTrip t os).readyLevel = s.readyLevel ∧
      (s.joinTrip t os).issueTime = s.issueTime ∧
      (s.joinTrip t os).parked = s.parked ∧
      (s.joinTrip t os).placement = s.placement ∧
      (s.joinTrip t os).stations = s.stations ∧
      (s.joinTrip t os).prepLimit = s.prepLimit ∧
      (s.joinTrip t os).hold = s.hold ∧
      (s.joinTrip t os).readyList = s.readyList ∧
      (s.joinTrip t os).window = s.window ∧
      (s.joinTrip t os).port = s.port ∧
      (s.joinTrip t os).phase = s.phase ∧
      (s.joinTrip t os).freeCount = s.freeCount ∧
      (s.joinTrip t os).pending = s.pending := by
  have hm : ∀ x : State, (x.forEach os fun o acc => acc.modOrder o fun ord => { ord with trip := some t }).fieldUnits = x.fieldUnits ∧ (x.forEach os fun o acc => acc.modOrder o fun ord => { ord with trip := some t }).entries = x.entries ∧ (x.forEach os fun o acc => acc.modOrder o fun ord => { ord with trip := some t }).serialCounter = x.serialCounter ∧ (x.forEach os fun o acc => acc.modOrder o fun ord => { ord with trip := some t }).lanes = x.lanes ∧ (x.forEach os fun o acc => acc.modOrder o fun ord => { ord with trip := some t }).tallies = x.tallies ∧ (x.forEach os fun o acc => acc.modOrder o fun ord => { ord with trip := some t }).programs = x.programs ∧ (x.forEach os fun o acc => acc.modOrder o fun ord => { ord with trip := some t }).timebases = x.timebases ∧ (x.forEach os fun o acc => acc.modOrder o fun ord => { ord with trip := some t }).sets = x.sets ∧ (x.forEach os fun o acc => acc.modOrder o fun ord => { ord with trip := some t }).bays = x.bays ∧ (x.forEach os fun o acc => acc.modOrder o fun ord => { ord with trip := some t }).readyLevel = x.readyLevel ∧ (x.forEach os fun o acc => acc.modOrder o fun ord => { ord with trip := some t }).issueTime = x.issueTime ∧ (x.forEach os fun o acc => acc.modOrder o fun ord => { ord with trip := some t }).parked = x.parked ∧ (x.forEach os fun o acc => acc.modOrder o fun ord => { ord with trip := some t }).placement = x.placement ∧ (x.forEach os fun o acc => acc.modOrder o fun ord => { ord with trip := some t }).stations = x.stations ∧ (x.forEach os fun o acc => acc.modOrder o fun ord => { ord with trip := some t }).prepLimit = x.prepLimit ∧ (x.forEach os fun o acc => acc.modOrder o fun ord => { ord with trip := some t }).hold = x.hold ∧ (x.forEach os fun o acc => acc.modOrder o fun ord => { ord with trip := some t }).readyList = x.readyList ∧ (x.forEach os fun o acc => acc.modOrder o fun ord => { ord with trip := some t }).window = x.window ∧ (x.forEach os fun o acc => acc.modOrder o fun ord => { ord with trip := some t }).port = x.port ∧ (x.forEach os fun o acc => acc.modOrder o fun ord => { ord with trip := some t }).phase = x.phase ∧ (x.forEach os fun o acc => acc.modOrder o fun ord => { ord with trip := some t }).freeCount = x.freeCount ∧ (x.forEach os fun o acc => acc.modOrder o fun ord => { ord with trip := some t }).pending = x.pending:= by
    intro x
    refine ⟨State.forEach_keeps State.fieldUnits _ _ _ fun _ _ => by simp, State.forEach_keeps State.entries _ _ _ fun _ _ => by simp, State.forEach_keeps State.serialCounter _ _ _ fun _ _ => by simp, State.forEach_keeps State.lanes _ _ _ fun _ _ => by simp, State.forEach_keeps State.tallies _ _ _ fun _ _ => by simp, State.forEach_keeps State.programs _ _ _ fun _ _ => by simp, State.forEach_keeps State.timebases _ _ _ fun _ _ => by simp, State.forEach_keeps State.sets _ _ _ fun _ _ => by simp, State.forEach_keeps State.bays _ _ _ fun _ _ => by simp, State.forEach_keeps State.readyLevel _ _ _ fun _ _ => by simp, State.forEach_keeps State.issueTime _ _ _ fun _ _ => by simp, State.forEach_keeps State.parked _ _ _ fun _ _ => by simp, State.forEach_keeps State.placement _ _ _ fun _ _ => by simp, State.forEach_keeps State.stations _ _ _ fun _ _ => by simp, State.forEach_keeps State.prepLimit _ _ _ fun _ _ => by simp, State.forEach_keeps State.hold _ _ _ fun _ _ => by simp, State.forEach_keeps State.readyList _ _ _ fun _ _ => by simp, State.forEach_keeps State.window _ _ _ fun _ _ => by simp, State.forEach_keeps State.port _ _ _ fun _ _ => by simp, State.forEach_keeps State.phase _ _ _ fun _ _ => by simp, State.forEach_keeps State.freeCount _ _ _ fun _ _ => by simp, State.forEach_keeps State.pending _ _ _ fun _ _ => by simp⟩
  unfold State.joinTrip
  dsimp only
  split <;> simp [hm]

@[simp] theorem State.formTrip_frame (t : TripHandle) (f : FieldNo) (os : List OrderHandle) :
    (s.formTrip t f os).fieldUnits = s.fieldUnits ∧
      (s.formTrip t f os).entries = s.entries ∧
      (s.formTrip t f os).serialCounter = s.serialCounter ∧
      (s.formTrip t f os).lanes = s.lanes ∧
      (s.formTrip t f os).tallies = s.tallies ∧
      (s.formTrip t f os).programs = s.programs ∧
      (s.formTrip t f os).timebases = s.timebases ∧
      (s.formTrip t f os).sets = s.sets ∧
      (s.formTrip t f os).bays = s.bays ∧
      (s.formTrip t f os).readyLevel = s.readyLevel ∧
      (s.formTrip t f os).issueTime = s.issueTime ∧
      (s.formTrip t f os).parked = s.parked ∧
      (s.formTrip t f os).placement = s.placement ∧
      (s.formTrip t f os).stations = s.stations ∧
      (s.formTrip t f os).prepLimit = s.prepLimit ∧
      (s.formTrip t f os).hold = s.hold ∧
      (s.formTrip t f os).readyList = s.readyList ∧
      (s.formTrip t f os).window = s.window ∧
      (s.formTrip t f os).port = s.port ∧
      (s.formTrip t f os).phase = s.phase ∧
      (s.formTrip t f os).freeCount = s.freeCount ∧
      (s.formTrip t f os).pending = s.pending := by
  simp [State.formTrip]

@[simp] theorem State.placeReady_frame (o : OrderHandle) (f : FieldNo) :
    (s.placeReady o f).fieldUnits = s.fieldUnits ∧
      (s.placeReady o f).entries = s.entries ∧
      (s.placeReady o f).serialCounter = s.serialCounter ∧
      (s.placeReady o f).lanes = s.lanes ∧
      (s.placeReady o f).tallies = s.tallies ∧
      (s.placeReady o f).programs = s.programs ∧
      (s.placeReady o f).timebases = s.timebases ∧
      (s.placeReady o f).sets = s.sets ∧
      (s.placeReady o f).bays = s.bays ∧
      (s.placeReady o f).readyLevel = s.readyLevel ∧
      (s.placeReady o f).issueTime = s.issueTime ∧
      (s.placeReady o f).parked = s.parked ∧
      (s.placeReady o f).placement = s.placement ∧
      (s.placeReady o f).stations = s.stations ∧
      (s.placeReady o f).prepLimit = s.prepLimit ∧
      (s.placeReady o f).hold = s.hold ∧
      (s.placeReady o f).window = s.window ∧
      (s.placeReady o f).port = s.port ∧
      (s.placeReady o f).phase = s.phase ∧
      (s.placeReady o f).freeCount = s.freeCount ∧
      (s.placeReady o f).pending = s.pending := by
  unfold State.placeReady
  (repeat' split) <;> simp

@[simp] theorem State.withoutReady_frame (os : List OrderHandle) :
    (s.withoutReady os).fieldUnits = s.fieldUnits ∧
      (s.withoutReady os).entries = s.entries ∧
      (s.withoutReady os).serialCounter = s.serialCounter ∧
      (s.withoutReady os).lanes = s.lanes ∧
      (s.withoutReady os).tallies = s.tallies ∧
      (s.withoutReady os).programs = s.programs ∧
      (s.withoutReady os).timebases = s.timebases ∧
      (s.withoutReady os).sets = s.sets ∧
      (s.withoutReady os).bays = s.bays ∧
      (s.withoutReady os).readyLevel = s.readyLevel ∧
      (s.withoutReady os).issueTime = s.issueTime ∧
      (s.withoutReady os).orders = s.orders ∧
      (s.withoutReady os).parked = s.parked ∧
      (s.withoutReady os).placement = s.placement ∧
      (s.withoutReady os).stations = s.stations ∧
      (s.withoutReady os).prepLimit = s.prepLimit ∧
      (s.withoutReady os).hold = s.hold ∧
      (s.withoutReady os).trips = s.trips ∧
      (s.withoutReady os).window = s.window ∧
      (s.withoutReady os).attention = s.attention ∧
      (s.withoutReady os).port = s.port ∧
      (s.withoutReady os).phase = s.phase ∧
      (s.withoutReady os).freeCount = s.freeCount ∧
      (s.withoutReady os).pending = s.pending := by
  simp [State.withoutReady]

@[simp] theorem State.reformTrip_frame (t : TripHandle) :
    (s.reformTrip t).fieldUnits = s.fieldUnits ∧
      (s.reformTrip t).entries = s.entries ∧
      (s.reformTrip t).serialCounter = s.serialCounter ∧
      (s.reformTrip t).lanes = s.lanes ∧
      (s.reformTrip t).tallies = s.tallies ∧
      (s.reformTrip t).programs = s.programs ∧
      (s.reformTrip t).timebases = s.timebases ∧
      (s.reformTrip t).sets = s.sets ∧
      (s.reformTrip t).bays = s.bays ∧
      (s.reformTrip t).readyLevel = s.readyLevel ∧
      (s.reformTrip t).issueTime = s.issueTime ∧
      (s.reformTrip t).parked = s.parked ∧
      (s.reformTrip t).placement = s.placement ∧
      (s.reformTrip t).stations = s.stations ∧
      (s.reformTrip t).prepLimit = s.prepLimit ∧
      (s.reformTrip t).hold = s.hold ∧
      (s.reformTrip t).window = s.window ∧
      (s.reformTrip t).port = s.port ∧
      (s.reformTrip t).phase = s.phase ∧
      (s.reformTrip t).freeCount = s.freeCount ∧
      (s.reformTrip t).pending = s.pending := by
  unfold State.reformTrip
  (repeat' split) <;> simp

@[simp] theorem State.refillTrip_frame (t : TripHandle) :
    (s.refillTrip t).fieldUnits = s.fieldUnits ∧
      (s.refillTrip t).entries = s.entries ∧
      (s.refillTrip t).serialCounter = s.serialCounter ∧
      (s.refillTrip t).lanes = s.lanes ∧
      (s.refillTrip t).tallies = s.tallies ∧
      (s.refillTrip t).programs = s.programs ∧
      (s.refillTrip t).timebases = s.timebases ∧
      (s.refillTrip t).sets = s.sets ∧
      (s.refillTrip t).bays = s.bays ∧
      (s.refillTrip t).readyLevel = s.readyLevel ∧
      (s.refillTrip t).issueTime = s.issueTime ∧
      (s.refillTrip t).parked = s.parked ∧
      (s.refillTrip t).placement = s.placement ∧
      (s.refillTrip t).stations = s.stations ∧
      (s.refillTrip t).prepLimit = s.prepLimit ∧
      (s.refillTrip t).hold = s.hold ∧
      (s.refillTrip t).window = s.window ∧
      (s.refillTrip t).port = s.port ∧
      (s.refillTrip t).phase = s.phase ∧
      (s.refillTrip t).freeCount = s.freeCount ∧
      (s.refillTrip t).pending = s.pending := by
  unfold State.refillTrip
  (repeat' split) <;> simp

@[simp] theorem State.leaveTrip_frame (t : TripHandle) (o : OrderHandle) :
    (s.leaveTrip t o).fieldUnits = s.fieldUnits ∧
      (s.leaveTrip t o).entries = s.entries ∧
      (s.leaveTrip t o).serialCounter = s.serialCounter ∧
      (s.leaveTrip t o).lanes = s.lanes ∧
      (s.leaveTrip t o).tallies = s.tallies ∧
      (s.leaveTrip t o).programs = s.programs ∧
      (s.leaveTrip t o).timebases = s.timebases ∧
      (s.leaveTrip t o).sets = s.sets ∧
      (s.leaveTrip t o).bays = s.bays ∧
      (s.leaveTrip t o).readyLevel = s.readyLevel ∧
      (s.leaveTrip t o).issueTime = s.issueTime ∧
      (s.leaveTrip t o).parked = s.parked ∧
      (s.leaveTrip t o).placement = s.placement ∧
      (s.leaveTrip t o).stations = s.stations ∧
      (s.leaveTrip t o).prepLimit = s.prepLimit ∧
      (s.leaveTrip t o).hold = s.hold ∧
      (s.leaveTrip t o).window = s.window ∧
      (s.leaveTrip t o).port = s.port ∧
      (s.leaveTrip t o).phase = s.phase ∧
      (s.leaveTrip t o).freeCount = s.freeCount ∧
      (s.leaveTrip t o).pending = s.pending := by
  unfold State.leaveTrip
  dsimp only
  (repeat' split) <;> simp

@[simp] theorem State.releaseFieldHold_frame (f : FieldNo) :
    (s.releaseFieldHold f).fieldUnits = s.fieldUnits ∧
      (s.releaseFieldHold f).entries = s.entries ∧
      (s.releaseFieldHold f).serialCounter = s.serialCounter ∧
      (s.releaseFieldHold f).lanes = s.lanes ∧
      (s.releaseFieldHold f).tallies = s.tallies ∧
      (s.releaseFieldHold f).programs = s.programs ∧
      (s.releaseFieldHold f).timebases = s.timebases ∧
      (s.releaseFieldHold f).sets = s.sets ∧
      (s.releaseFieldHold f).bays = s.bays ∧
      (s.releaseFieldHold f).readyLevel = s.readyLevel ∧
      (s.releaseFieldHold f).issueTime = s.issueTime ∧
      (s.releaseFieldHold f).parked = s.parked ∧
      (s.releaseFieldHold f).placement = s.placement ∧
      (s.releaseFieldHold f).stations = s.stations ∧
      (s.releaseFieldHold f).prepLimit = s.prepLimit ∧
      (s.releaseFieldHold f).hold = s.hold ∧
      (s.releaseFieldHold f).readyList = s.readyList ∧
      (s.releaseFieldHold f).window = s.window ∧
      (s.releaseFieldHold f).port = s.port ∧
      (s.releaseFieldHold f).phase = s.phase ∧
      (s.releaseFieldHold f).freeCount = s.freeCount ∧
      (s.releaseFieldHold f).pending = s.pending := by
  unfold State.releaseFieldHold
  split
  · refine ⟨State.forEach_keeps State.fieldUnits _ _ _ fun _ _ => by split <;> simp, State.forEach_keeps State.entries _ _ _ fun _ _ => by split <;> simp, State.forEach_keeps State.serialCounter _ _ _ fun _ _ => by split <;> simp, State.forEach_keeps State.lanes _ _ _ fun _ _ => by split <;> simp, State.forEach_keeps State.tallies _ _ _ fun _ _ => by split <;> simp, State.forEach_keeps State.programs _ _ _ fun _ _ => by split <;> simp, State.forEach_keeps State.timebases _ _ _ fun _ _ => by split <;> simp, State.forEach_keeps State.sets _ _ _ fun _ _ => by split <;> simp, State.forEach_keeps State.bays _ _ _ fun _ _ => by split <;> simp, State.forEach_keeps State.readyLevel _ _ _ fun _ _ => by split <;> simp, State.forEach_keeps State.issueTime _ _ _ fun _ _ => by split <;> simp, State.forEach_keeps State.parked _ _ _ fun _ _ => by split <;> simp, State.forEach_keeps State.placement _ _ _ fun _ _ => by split <;> simp, State.forEach_keeps State.stations _ _ _ fun _ _ => by split <;> simp, State.forEach_keeps State.prepLimit _ _ _ fun _ _ => by split <;> simp, State.forEach_keeps State.hold _ _ _ fun _ _ => by split <;> simp, State.forEach_keeps State.readyList _ _ _ fun _ _ => by split <;> simp, State.forEach_keeps State.window _ _ _ fun _ _ => by split <;> simp, State.forEach_keeps State.port _ _ _ fun _ _ => by split <;> simp, State.forEach_keeps State.phase _ _ _ fun _ _ => by split <;> simp, State.forEach_keeps State.freeCount _ _ _ fun _ _ => by split <;> simp, State.forEach_keeps State.pending _ _ _ fun _ _ => by split <;> simp⟩
  · simp

/-! ### Orders -/

@[simp] theorem State.unlistOrder_frame (o : OrderHandle) (c : Option CarHandle) :
    (s.unlistOrder o c).fieldUnits = s.fieldUnits ∧
      (s.unlistOrder o c).serialCounter = s.serialCounter ∧
      (s.unlistOrder o c).lanes = s.lanes ∧
      (s.unlistOrder o c).tallies = s.tallies ∧
      (s.unlistOrder o c).programs = s.programs ∧
      (s.unlistOrder o c).timebases = s.timebases ∧
      (s.unlistOrder o c).sets = s.sets ∧
      (s.unlistOrder o c).bays = s.bays ∧
      (s.unlistOrder o c).readyLevel = s.readyLevel ∧
      (s.unlistOrder o c).issueTime = s.issueTime ∧
      (s.unlistOrder o c).orders = s.orders ∧
      (s.unlistOrder o c).parked = s.parked ∧
      (s.unlistOrder o c).placement = s.placement ∧
      (s.unlistOrder o c).stations = s.stations ∧
      (s.unlistOrder o c).prepLimit = s.prepLimit ∧
      (s.unlistOrder o c).hold = s.hold ∧
      (s.unlistOrder o c).trips = s.trips ∧
      (s.unlistOrder o c).readyList = s.readyList ∧
      (s.unlistOrder o c).window = s.window ∧
      (s.unlistOrder o c).attention = s.attention ∧
      (s.unlistOrder o c).port = s.port ∧
      (s.unlistOrder o c).phase = s.phase ∧
      (s.unlistOrder o c).freeCount = s.freeCount ∧
      (s.unlistOrder o c).pending = s.pending := by
  unfold State.unlistOrder
  (repeat' split) <;> simp

@[simp] theorem State.retireOrder_frame (o : OrderHandle) :
    (s.retireOrder o).fieldUnits = s.fieldUnits ∧
      (s.retireOrder o).serialCounter = s.serialCounter ∧
      (s.retireOrder o).lanes = s.lanes ∧
      (s.retireOrder o).programs = s.programs ∧
      (s.retireOrder o).timebases = s.timebases ∧
      (s.retireOrder o).sets = s.sets ∧
      (s.retireOrder o).bays = s.bays ∧
      (s.retireOrder o).readyLevel = s.readyLevel ∧
      (s.retireOrder o).issueTime = s.issueTime ∧
      (s.retireOrder o).placement = s.placement ∧
      (s.retireOrder o).prepLimit = s.prepLimit ∧
      (s.retireOrder o).window = s.window ∧
      (s.retireOrder o).port = s.port ∧
      (s.retireOrder o).phase = s.phase ∧
      (s.retireOrder o).freeCount = s.freeCount ∧
      (s.retireOrder o).pending = s.pending := by
  unfold State.retireOrder
  split
  · simp
  · dsimp only
    (repeat' split) <;> simp

@[simp] theorem State.settleCancel_frame (o : OrderHandle) (x : Order) :
    (s.settleCancel o x).fieldUnits = s.fieldUnits ∧
      (s.settleCancel o x).serialCounter = s.serialCounter ∧
      (s.settleCancel o x).lanes = s.lanes ∧
      (s.settleCancel o x).programs = s.programs ∧
      (s.settleCancel o x).timebases = s.timebases ∧
      (s.settleCancel o x).sets = s.sets ∧
      (s.settleCancel o x).bays = s.bays ∧
      (s.settleCancel o x).readyLevel = s.readyLevel ∧
      (s.settleCancel o x).issueTime = s.issueTime ∧
      (s.settleCancel o x).placement = s.placement ∧
      (s.settleCancel o x).prepLimit = s.prepLimit ∧
      (s.settleCancel o x).window = s.window ∧
      (s.settleCancel o x).port = s.port ∧
      (s.settleCancel o x).phase = s.phase ∧
      (s.settleCancel o x).freeCount = s.freeCount ∧
      (s.settleCancel o x).pending = s.pending := by
  simp [State.settleCancel]

@[simp] theorem State.finishOrder_frame (o : OrderHandle) :
    (s.finishOrder o).fieldUnits = s.fieldUnits ∧
      (s.finishOrder o).serialCounter = s.serialCounter ∧
      (s.finishOrder o).lanes = s.lanes ∧
      (s.finishOrder o).programs = s.programs ∧
      (s.finishOrder o).timebases = s.timebases ∧
      (s.finishOrder o).sets = s.sets ∧
      (s.finishOrder o).bays = s.bays ∧
      (s.finishOrder o).readyLevel = s.readyLevel ∧
      (s.finishOrder o).issueTime = s.issueTime ∧
      (s.finishOrder o).placement = s.placement ∧
      (s.finishOrder o).prepLimit = s.prepLimit ∧
      (s.finishOrder o).window = s.window ∧
      (s.finishOrder o).port = s.port ∧
      (s.finishOrder o).phase = s.phase ∧
      (s.finishOrder o).freeCount = s.freeCount ∧
      (s.finishOrder o).pending = s.pending := by
  unfold State.finishOrder
  (repeat' split) <;> simp

@[simp] theorem State.cancelPreparing_frame (o : OrderHandle) (x : Order) :
    (s.cancelPreparing o x).fieldUnits = s.fieldUnits ∧
      (s.cancelPreparing o x).serialCounter = s.serialCounter ∧
      (s.cancelPreparing o x).lanes = s.lanes ∧
      (s.cancelPreparing o x).programs = s.programs ∧
      (s.cancelPreparing o x).timebases = s.timebases ∧
      (s.cancelPreparing o x).sets = s.sets ∧
      (s.cancelPreparing o x).bays = s.bays ∧
      (s.cancelPreparing o x).readyLevel = s.readyLevel ∧
      (s.cancelPreparing o x).issueTime = s.issueTime ∧
      (s.cancelPreparing o x).placement = s.placement ∧
      (s.cancelPreparing o x).prepLimit = s.prepLimit ∧
      (s.cancelPreparing o x).window = s.window ∧
      (s.cancelPreparing o x).port = s.port ∧
      (s.cancelPreparing o x).phase = s.phase ∧
      (s.cancelPreparing o x).freeCount = s.freeCount ∧
      (s.cancelPreparing o x).pending = s.pending := by
  unfold State.cancelPreparing
  dsimp only
  (repeat' split) <;> simp

@[simp] theorem State.cancelAtStage_frame (o : OrderHandle) (x : Order) :
    (s.cancelAtStage o x).fieldUnits = s.fieldUnits ∧
      (s.cancelAtStage o x).serialCounter = s.serialCounter ∧
      (s.cancelAtStage o x).lanes = s.lanes ∧
      (s.cancelAtStage o x).programs = s.programs ∧
      (s.cancelAtStage o x).timebases = s.timebases ∧
      (s.cancelAtStage o x).sets = s.sets ∧
      (s.cancelAtStage o x).bays = s.bays ∧
      (s.cancelAtStage o x).readyLevel = s.readyLevel ∧
      (s.cancelAtStage o x).issueTime = s.issueTime ∧
      (s.cancelAtStage o x).placement = s.placement ∧
      (s.cancelAtStage o x).prepLimit = s.prepLimit ∧
      (s.cancelAtStage o x).window = s.window ∧
      (s.cancelAtStage o x).port = s.port ∧
      (s.cancelAtStage o x).phase = s.phase ∧
      (s.cancelAtStage o x).freeCount = s.freeCount ∧
      (s.cancelAtStage o x).pending = s.pending := by
  unfold State.cancelAtStage
  (repeat' split) <;> simp

@[simp] theorem State.orderLosesCar_frame (o : OrderHandle) :
    (s.orderLosesCar o).fieldUnits = s.fieldUnits ∧
      (s.orderLosesCar o).serialCounter = s.serialCounter ∧
      (s.orderLosesCar o).lanes = s.lanes ∧
      (s.orderLosesCar o).programs = s.programs ∧
      (s.orderLosesCar o).timebases = s.timebases ∧
      (s.orderLosesCar o).sets = s.sets ∧
      (s.orderLosesCar o).bays = s.bays ∧
      (s.orderLosesCar o).readyLevel = s.readyLevel ∧
      (s.orderLosesCar o).issueTime = s.issueTime ∧
      (s.orderLosesCar o).placement = s.placement ∧
      (s.orderLosesCar o).prepLimit = s.prepLimit ∧
      (s.orderLosesCar o).window = s.window ∧
      (s.orderLosesCar o).port = s.port ∧
      (s.orderLosesCar o).phase = s.phase ∧
      (s.orderLosesCar o).freeCount = s.freeCount ∧
      (s.orderLosesCar o).pending = s.pending := by
  unfold State.orderLosesCar
  split
  · simp
  · dsimp only
    (repeat' split) <;> simp

@[simp] theorem State.ordersLoseCar_frame (os : List OrderHandle) :
    (s.ordersLoseCar os).fieldUnits = s.fieldUnits ∧
      (s.ordersLoseCar os).serialCounter = s.serialCounter ∧
      (s.ordersLoseCar os).lanes = s.lanes ∧
      (s.ordersLoseCar os).programs = s.programs ∧
      (s.ordersLoseCar os).timebases = s.timebases ∧
      (s.ordersLoseCar os).sets = s.sets ∧
      (s.ordersLoseCar os).bays = s.bays ∧
      (s.ordersLoseCar os).readyLevel = s.readyLevel ∧
      (s.ordersLoseCar os).issueTime = s.issueTime ∧
      (s.ordersLoseCar os).placement = s.placement ∧
      (s.ordersLoseCar os).prepLimit = s.prepLimit ∧
      (s.ordersLoseCar os).window = s.window ∧
      (s.ordersLoseCar os).port = s.port ∧
      (s.ordersLoseCar os).phase = s.phase ∧
      (s.ordersLoseCar os).freeCount = s.freeCount ∧
      (s.ordersLoseCar os).pending = s.pending := by
  refine ⟨State.forEach_keeps State.fieldUnits _ _ _ fun _ _ => by simp, State.forEach_keeps State.serialCounter _ _ _ fun _ _ => by simp, State.forEach_keeps State.lanes _ _ _ fun _ _ => by simp, State.forEach_keeps State.programs _ _ _ fun _ _ => by simp, State.forEach_keeps State.timebases _ _ _ fun _ _ => by simp, State.forEach_keeps State.sets _ _ _ fun _ _ => by simp, State.forEach_keeps State.bays _ _ _ fun _ _ => by simp, State.forEach_keeps State.readyLevel _ _ _ fun _ _ => by simp, State.forEach_keeps State.issueTime _ _ _ fun _ _ => by simp, State.forEach_keeps State.placement _ _ _ fun _ _ => by simp, State.forEach_keeps State.prepLimit _ _ _ fun _ _ => by simp, State.forEach_keeps State.window _ _ _ fun _ _ => by simp, State.forEach_keeps State.port _ _ _ fun _ _ => by simp, State.forEach_keeps State.phase _ _ _ fun _ _ => by simp, State.forEach_keeps State.freeCount _ _ _ fun _ _ => by simp, State.forEach_keeps State.pending _ _ _ fun _ _ => by simp⟩

/-! An order that has no car leaves the lot register alone, whatever becomes of it (R151, R170). -/

theorem State.retireOrder_entries (o : OrderHandle) (ord : Order) (h : s.order o = some ord) (hc : ord.car = none) :
    (s.retireOrder o).entries = s.entries := by
  unfold State.retireOrder
  simp only [h, hc, State.unlistOrder]
  (repeat' split) <;> simp

theorem State.settleCancel_entries (o : OrderHandle) (ord : Order) (h : s.order o = some ord) (hc : ord.car = none) :
    (s.settleCancel o ord).entries = s.entries := by
  unfold State.settleCancel
  rw [State.retireOrder_entries _ o ord (by simpa [hc, State.touchCar] using h) hc]
  simp [hc, State.touchCar]

theorem State.finishOrder_entries (o : OrderHandle) (ord : Order) (h : s.order o = some ord) (hc : ord.car = none) :
    (s.finishOrder o).entries = s.entries := by
  unfold State.finishOrder
  simp only [h]
  split
  · exact s.settleCancel_entries o ord h hc
  · simp

theorem State.cancelAtStage_entries (o : OrderHandle) (ord : Order) (h : s.order o = some ord) (hc : ord.car = none) :
    (s.cancelAtStage o ord).entries = s.entries := by
  unfold State.cancelAtStage
  split
  · rw [State.retireOrder_entries _ o ord (by simpa [hc, State.touchCar] using h) hc]; simp [hc, State.touchCar]
  · rw [State.retireOrder_entries _ o ord (by simpa [hc, State.touchCar] using h) hc]; simp [hc, State.touchCar]
  · have settled (u : State) (hu : u.order o = some { ord with cancelPending := true, timer := none }) :
        (u.finishOrder o).entries = u.entries := u.finishOrder_entries o _ hu hc
    unfold State.cancelPreparing
    dsimp only
    (repeat' split) <;> simp (disch := simp) [settled]
  · rw [State.retireOrder_entries _ o ord (by simpa [hc, State.touchCar] using h) hc]; simp [hc, State.touchCar]
  · simp

@[simp] theorem State.orderLosesCar_entries (o : OrderHandle) : (s.orderLosesCar o).entries = s.entries := by
  unfold State.orderLosesCar
  split
  · rfl
  · dsimp only
    split
    · simp
    · rw [State.cancelAtStage_entries _ o _ (by simp) rfl]; simp

@[simp] theorem State.ordersLoseCar_entries (os : List OrderHandle) : (s.ordersLoseCar os).entries = s.entries :=
  State.forEach_keeps State.entries _ _ _ fun _ _ => by simp

/-! ### Sets -/

@[simp] theorem State.setCarSet_frame (c : Option CarHandle) (x : Option (SetHandle × SetMark)) :
    (s.setCarSet c x).fieldUnits = s.fieldUnits ∧
      (s.setCarSet c x).serialCounter = s.serialCounter ∧
      (s.setCarSet c x).lanes = s.lanes ∧
      (s.setCarSet c x).tallies = s.tallies ∧
      (s.setCarSet c x).programs = s.programs ∧
      (s.setCarSet c x).timebases = s.timebases ∧
      (s.setCarSet c x).sets = s.sets ∧
      (s.setCarSet c x).bays = s.bays ∧
      (s.setCarSet c x).readyLevel = s.readyLevel ∧
      (s.setCarSet c x).issueTime = s.issueTime ∧
      (s.setCarSet c x).orders = s.orders ∧
      (s.setCarSet c x).parked = s.parked ∧
      (s.setCarSet c x).placement = s.placement ∧
      (s.setCarSet c x).stations = s.stations ∧
      (s.setCarSet c x).prepLimit = s.prepLimit ∧
      (s.setCarSet c x).hold = s.hold ∧
      (s.setCarSet c x).trips = s.trips ∧
      (s.setCarSet c x).readyList = s.readyList ∧
      (s.setCarSet c x).window = s.window ∧
      (s.setCarSet c x).attention = s.attention ∧
      (s.setCarSet c x).port = s.port ∧
      (s.setCarSet c x).phase = s.phase ∧
      (s.setCarSet c x).freeCount = s.freeCount ∧
      (s.setCarSet c x).pending = s.pending := by
  unfold State.setCarSet
  (repeat' split) <;> simp

@[simp] theorem State.cancelIssue_frame (n : SetHandle) :
    (s.cancelIssue n).fieldUnits = s.fieldUnits ∧
      (s.cancelIssue n).serialCounter = s.serialCounter ∧
      (s.cancelIssue n).lanes = s.lanes ∧
      (s.cancelIssue n).tallies = s.tallies ∧
      (s.cancelIssue n).programs = s.programs ∧
      (s.cancelIssue n).timebases = s.timebases ∧
      (s.cancelIssue n).bays = s.bays ∧
      (s.cancelIssue n).readyLevel = s.readyLevel ∧
      (s.cancelIssue n).issueTime = s.issueTime ∧
      (s.cancelIssue n).orders = s.orders ∧
      (s.cancelIssue n).parked = s.parked ∧
      (s.cancelIssue n).placement = s.placement ∧
      (s.cancelIssue n).stations = s.stations ∧
      (s.cancelIssue n).prepLimit = s.prepLimit ∧
      (s.cancelIssue n).hold = s.hold ∧
      (s.cancelIssue n).trips = s.trips ∧
      (s.cancelIssue n).readyList = s.readyList ∧
      (s.cancelIssue n).window = s.window ∧
      (s.cancelIssue n).attention = s.attention ∧
      (s.cancelIssue n).port = s.port ∧
      (s.cancelIssue n).phase = s.phase ∧
      (s.cancelIssue n).freeCount = s.freeCount ∧
      (s.cancelIssue n).pending = s.pending := by
  simp [State.cancelIssue]

@[simp] theorem State.clearBay_frame (n : SetHandle) :
    (s.clearBay n).fieldUnits = s.fieldUnits ∧
      (s.clearBay n).entries = s.entries ∧
      (s.clearBay n).serialCounter = s.serialCounter ∧
      (s.clearBay n).lanes = s.lanes ∧
      (s.clearBay n).tallies = s.tallies ∧
      (s.clearBay n).programs = s.programs ∧
      (s.clearBay n).timebases = s.timebases ∧
      (s.clearBay n).readyLevel = s.readyLevel ∧
      (s.clearBay n).issueTime = s.issueTime ∧
      (s.clearBay n).orders = s.orders ∧
      (s.clearBay n).parked = s.parked ∧
      (s.clearBay n).placement = s.placement ∧
      (s.clearBay n).stations = s.stations ∧
      (s.clearBay n).prepLimit = s.prepLimit ∧
      (s.clearBay n).hold = s.hold ∧
      (s.clearBay n).trips = s.trips ∧
      (s.clearBay n).readyList = s.readyList ∧
      (s.clearBay n).window = s.window ∧
      (s.clearBay n).attention = s.attention ∧
      (s.clearBay n).port = s.port ∧
      (s.clearBay n).phase = s.phase ∧
      (s.clearBay n).freeCount = s.freeCount ∧
      (s.clearBay n).pending = s.pending := by
  unfold State.clearBay
  (repeat' split) <;> simp

@[simp] theorem State.takeBay_frame (n : SetHandle) (b : BayNo) :
    (s.takeBay n b).fieldUnits = s.fieldUnits ∧
      (s.takeBay n b).entries = s.entries ∧
      (s.takeBay n b).serialCounter = s.serialCounter ∧
      (s.takeBay n b).lanes = s.lanes ∧
      (s.takeBay n b).tallies = s.tallies ∧
      (s.takeBay n b).programs = s.programs ∧
      (s.takeBay n b).timebases = s.timebases ∧
      (s.takeBay n b).readyLevel = s.readyLevel ∧
      (s.takeBay n b).issueTime = s.issueTime ∧
      (s.takeBay n b).orders = s.orders ∧
      (s.takeBay n b).parked = s.parked ∧
      (s.takeBay n b).placement = s.placement ∧
      (s.takeBay n b).stations = s.stations ∧
      (s.takeBay n b).prepLimit = s.prepLimit ∧
      (s.takeBay n b).hold = s.hold ∧
      (s.takeBay n b).trips = s.trips ∧
      (s.takeBay n b).readyList = s.readyList ∧
      (s.takeBay n b).window = s.window ∧
      (s.takeBay n b).attention = s.attention ∧
      (s.takeBay n b).port = s.port ∧
      (s.takeBay n b).phase = s.phase ∧
      (s.takeBay n b).freeCount = s.freeCount ∧
      (s.takeBay n b).pending = s.pending := by
  simp [State.takeBay]

@[simp] theorem State.displace_frame (n : SetHandle) :
    (s.displace n).fieldUnits = s.fieldUnits ∧
      (s.displace n).serialCounter = s.serialCounter ∧
      (s.displace n).lanes = s.lanes ∧
      (s.displace n).tallies = s.tallies ∧
      (s.displace n).programs = s.programs ∧
      (s.displace n).timebases = s.timebases ∧
      (s.displace n).readyLevel = s.readyLevel ∧
      (s.displace n).issueTime = s.issueTime ∧
      (s.displace n).orders = s.orders ∧
      (s.displace n).parked = s.parked ∧
      (s.displace n).placement = s.placement ∧
      (s.displace n).stations = s.stations ∧
      (s.displace n).prepLimit = s.prepLimit ∧
      (s.displace n).hold = s.hold ∧
      (s.displace n).trips = s.trips ∧
      (s.displace n).readyList = s.readyList ∧
      (s.displace n).window = s.window ∧
      (s.displace n).port = s.port ∧
      (s.displace n).phase = s.phase ∧
      (s.displace n).freeCount = s.freeCount ∧
      (s.displace n).pending = s.pending := by
  unfold State.displace
  dsimp only
  (repeat' split) <;> simp

@[simp] theorem State.loseSet_frame (n : SetHandle) :
    (s.loseSet n).fieldUnits = s.fieldUnits ∧
      (s.loseSet n).serialCounter = s.serialCounter ∧
      (s.loseSet n).lanes = s.lanes ∧
      (s.loseSet n).programs = s.programs ∧
      (s.loseSet n).timebases = s.timebases ∧
      (s.loseSet n).bays = s.bays ∧
      (s.loseSet n).readyLevel = s.readyLevel ∧
      (s.loseSet n).issueTime = s.issueTime ∧
      (s.loseSet n).orders = s.orders ∧
      (s.loseSet n).parked = s.parked ∧
      (s.loseSet n).placement = s.placement ∧
      (s.loseSet n).stations = s.stations ∧
      (s.loseSet n).prepLimit = s.prepLimit ∧
      (s.loseSet n).hold = s.hold ∧
      (s.loseSet n).trips = s.trips ∧
      (s.loseSet n).readyList = s.readyList ∧
      (s.loseSet n).window = s.window ∧
      (s.loseSet n).attention = s.attention ∧
      (s.loseSet n).port = s.port ∧
      (s.loseSet n).phase = s.phase ∧
      (s.loseSet n).freeCount = s.freeCount ∧
      (s.loseSet n).pending = s.pending := by
  simp [State.loseSet]

/-! ### Retire -/

@[simp] theorem State.setAtRetirement_frame (c : Car) :
    (s.setAtRetirement c).fieldUnits = s.fieldUnits ∧
      (s.setAtRetirement c).serialCounter = s.serialCounter ∧
      (s.setAtRetirement c).lanes = s.lanes ∧
      (s.setAtRetirement c).programs = s.programs ∧
      (s.setAtRetirement c).timebases = s.timebases ∧
      (s.setAtRetirement c).bays = s.bays ∧
      (s.setAtRetirement c).readyLevel = s.readyLevel ∧
      (s.setAtRetirement c).issueTime = s.issueTime ∧
      (s.setAtRetirement c).orders = s.orders ∧
      (s.setAtRetirement c).parked = s.parked ∧
      (s.setAtRetirement c).placement = s.placement ∧
      (s.setAtRetirement c).stations = s.stations ∧
      (s.setAtRetirement c).prepLimit = s.prepLimit ∧
      (s.setAtRetirement c).hold = s.hold ∧
      (s.setAtRetirement c).trips = s.trips ∧
      (s.setAtRetirement c).readyList = s.readyList ∧
      (s.setAtRetirement c).window = s.window ∧
      (s.setAtRetirement c).attention = s.attention ∧
      (s.setAtRetirement c).port = s.port ∧
      (s.setAtRetirement c).phase = s.phase ∧
      (s.setAtRetirement c).freeCount = s.freeCount ∧
      (s.setAtRetirement c).pending = s.pending := by
  unfold State.setAtRetirement
  (repeat' split) <;> simp

@[simp] theorem State.ordersAtRetirement_frame (h : CarHandle) (c : Car) :
    (s.ordersAtRetirement h c).fieldUnits = s.fieldUnits ∧
      (s.ordersAtRetirement h c).serialCounter = s.serialCounter ∧
      (s.ordersAtRetirement h c).lanes = s.lanes ∧
      (s.ordersAtRetirement h c).programs = s.programs ∧
      (s.ordersAtRetirement h c).timebases = s.timebases ∧
      (s.ordersAtRetirement h c).sets = s.sets ∧
      (s.ordersAtRetirement h c).bays = s.bays ∧
      (s.ordersAtRetirement h c).readyLevel = s.readyLevel ∧
      (s.ordersAtRetirement h c).issueTime = s.issueTime ∧
      (s.ordersAtRetirement h c).placement = s.placement ∧
      (s.ordersAtRetirement h c).prepLimit = s.prepLimit ∧
      (s.ordersAtRetirement h c).window = s.window ∧
      (s.ordersAtRetirement h c).port = s.port ∧
      (s.ordersAtRetirement h c).phase = s.phase ∧
      (s.ordersAtRetirement h c).freeCount = s.freeCount ∧
      (s.ordersAtRetirement h c).pending = s.pending := by
  unfold State.ordersAtRetirement
  simp

@[simp] theorem State.lanesLoseCar_frame (h : CarHandle) :
    (s.lanesLoseCar h).fieldUnits = s.fieldUnits ∧
      (s.lanesLoseCar h).entries = s.entries ∧
      (s.lanesLoseCar h).serialCounter = s.serialCounter ∧
      (s.lanesLoseCar h).tallies = s.tallies ∧
      (s.lanesLoseCar h).programs = s.programs ∧
      (s.lanesLoseCar h).timebases = s.timebases ∧
      (s.lanesLoseCar h).sets = s.sets ∧
      (s.lanesLoseCar h).bays = s.bays ∧
      (s.lanesLoseCar h).readyLevel = s.readyLevel ∧
      (s.lanesLoseCar h).issueTime = s.issueTime ∧
      (s.lanesLoseCar h).orders = s.orders ∧
      (s.lanesLoseCar h).parked = s.parked ∧
      (s.lanesLoseCar h).placement = s.placement ∧
      (s.lanesLoseCar h).stations = s.stations ∧
      (s.lanesLoseCar h).prepLimit = s.prepLimit ∧
      (s.lanesLoseCar h).hold = s.hold ∧
      (s.lanesLoseCar h).trips = s.trips ∧
      (s.lanesLoseCar h).readyList = s.readyList ∧
      (s.lanesLoseCar h).window = s.window ∧
      (s.lanesLoseCar h).attention = s.attention ∧
      (s.lanesLoseCar h).port = s.port ∧
      (s.lanesLoseCar h).phase = s.phase ∧
      (s.lanesLoseCar h).freeCount = s.freeCount ∧
      (s.lanesLoseCar h).pending = s.pending := by
  unfold State.lanesLoseCar
  refine ⟨State.forEach_keeps State.fieldUnits _ _ _ fun _ _ => by split <;> simp, State.forEach_keeps State.entries _ _ _ fun _ _ => by split <;> simp, State.forEach_keeps State.serialCounter _ _ _ fun _ _ => by split <;> simp, State.forEach_keeps State.tallies _ _ _ fun _ _ => by split <;> simp, State.forEach_keeps State.programs _ _ _ fun _ _ => by split <;> simp, State.forEach_keeps State.timebases _ _ _ fun _ _ => by split <;> simp, State.forEach_keeps State.sets _ _ _ fun _ _ => by split <;> simp, State.forEach_keeps State.bays _ _ _ fun _ _ => by split <;> simp, State.forEach_keeps State.readyLevel _ _ _ fun _ _ => by split <;> simp, State.forEach_keeps State.issueTime _ _ _ fun _ _ => by split <;> simp, State.forEach_keeps State.orders _ _ _ fun _ _ => by split <;> simp, State.forEach_keeps State.parked _ _ _ fun _ _ => by split <;> simp, State.forEach_keeps State.placement _ _ _ fun _ _ => by split <;> simp, State.forEach_keeps State.stations _ _ _ fun _ _ => by split <;> simp, State.forEach_keeps State.prepLimit _ _ _ fun _ _ => by split <;> simp, State.forEach_keeps State.hold _ _ _ fun _ _ => by split <;> simp, State.forEach_keeps State.trips _ _ _ fun _ _ => by split <;> simp, State.forEach_keeps State.readyList _ _ _ fun _ _ => by split <;> simp, State.forEach_keeps State.window _ _ _ fun _ _ => by split <;> simp, State.forEach_keeps State.attention _ _ _ fun _ _ => by split <;> simp, State.forEach_keeps State.port _ _ _ fun _ _ => by split <;> simp, State.forEach_keeps State.phase _ _ _ fun _ _ => by split <;> simp, State.forEach_keeps State.freeCount _ _ _ fun _ _ => by split <;> simp, State.forEach_keeps State.pending _ _ _ fun _ _ => by split <;> simp⟩

@[simp] theorem State.retireCar_frame (h : CarHandle) (k : RetireCause) :
    (s.retireCar h k).serialCounter = s.serialCounter ∧
      (s.retireCar h k).programs = s.programs ∧
      (s.retireCar h k).timebases = s.timebases ∧
      (s.retireCar h k).bays = s.bays ∧
      (s.retireCar h k).readyLevel = s.readyLevel ∧
      (s.retireCar h k).issueTime = s.issueTime ∧
      (s.retireCar h k).placement = s.placement ∧
      (s.retireCar h k).prepLimit = s.prepLimit ∧
      (s.retireCar h k).window = s.window ∧
      (s.retireCar h k).port = s.port ∧
      (s.retireCar h k).phase = s.phase ∧
      (s.retireCar h k).freeCount = s.freeCount ∧
      (s.retireCar h k).pending = s.pending := by
  unfold State.retireCar
  split
  · simp
  · dsimp only
    (repeat' split) <;> simp

@[simp] theorem State.cascade_frame (f : FieldNo) :
    (s.cascade f).serialCounter = s.serialCounter ∧
      (s.cascade f).programs = s.programs ∧
      (s.cascade f).timebases = s.timebases ∧
      (s.cascade f).bays = s.bays ∧
      (s.cascade f).readyLevel = s.readyLevel ∧
      (s.cascade f).issueTime = s.issueTime ∧
      (s.cascade f).placement = s.placement ∧
      (s.cascade f).prepLimit = s.prepLimit ∧
      (s.cascade f).window = s.window ∧
      (s.cascade f).port = s.port ∧
      (s.cascade f).phase = s.phase ∧
      (s.cascade f).freeCount = s.freeCount ∧
      (s.cascade f).pending = s.pending := by
  unfold State.cascade
  refine ⟨State.forEach_keeps State.serialCounter _ _ _ fun _ _ => by simp, State.forEach_keeps State.programs _ _ _ fun _ _ => by simp, State.forEach_keeps State.timebases _ _ _ fun _ _ => by simp, State.forEach_keeps State.bays _ _ _ fun _ _ => by simp, State.forEach_keeps State.readyLevel _ _ _ fun _ _ => by simp, State.forEach_keeps State.issueTime _ _ _ fun _ _ => by simp, State.forEach_keeps State.placement _ _ _ fun _ _ => by simp, State.forEach_keeps State.prepLimit _ _ _ fun _ _ => by simp, State.forEach_keeps State.window _ _ _ fun _ _ => by simp, State.forEach_keeps State.port _ _ _ fun _ _ => by simp, State.forEach_keeps State.phase _ _ _ fun _ _ => by simp, State.forEach_keeps State.freeCount _ _ _ fun _ _ => by simp, State.forEach_keeps State.pending _ _ _ fun _ _ => by simp⟩

/-! ### FieldChange -/

@[simp] theorem State.fieldChange_frame (f : FieldNo) :
    (s.fieldChange f).fieldUnits = s.fieldUnits ∧
      (s.fieldChange f).entries = s.entries ∧
      (s.fieldChange f).serialCounter = s.serialCounter ∧
      (s.fieldChange f).lanes = s.lanes ∧
      (s.fieldChange f).programs = s.programs ∧
      (s.fieldChange f).timebases = s.timebases ∧
      (s.fieldChange f).sets = s.sets ∧
      (s.fieldChange f).bays = s.bays ∧
      (s.fieldChange f).readyLevel = s.readyLevel ∧
      (s.fieldChange f).issueTime = s.issueTime ∧
      (s.fieldChange f).placement = s.placement ∧
      (s.fieldChange f).prepLimit = s.prepLimit ∧
      (s.fieldChange f).readyList = s.readyList ∧
      (s.fieldChange f).window = s.window ∧
      (s.fieldChange f).port = s.port ∧
      (s.fieldChange f).phase = s.phase ∧
      (s.fieldChange f).freeCount = s.freeCount ∧
      (s.fieldChange f).pending = s.pending := by
  simp [State.fieldChange]

@[simp] theorem State.endField_frame (f : FieldNo) :
    (s.endField f).fieldUnits = s.fieldUnits ∧
      (s.endField f).entries = s.entries ∧
      (s.endField f).serialCounter = s.serialCounter ∧
      (s.endField f).lanes = s.lanes ∧
      (s.endField f).tallies = s.tallies ∧
      (s.endField f).sets = s.sets ∧
      (s.endField f).bays = s.bays ∧
      (s.endField f).readyLevel = s.readyLevel ∧
      (s.endField f).issueTime = s.issueTime ∧
      (s.endField f).orders = s.orders ∧
      (s.endField f).parked = s.parked ∧
      (s.endField f).placement = s.placement ∧
      (s.endField f).stations = s.stations ∧
      (s.endField f).prepLimit = s.prepLimit ∧
      (s.endField f).hold = s.hold ∧
      (s.endField f).trips = s.trips ∧
      (s.endField f).readyList = s.readyList ∧
      (s.endField f).window = s.window ∧
      (s.endField f).attention = s.attention ∧
      (s.endField f).port = s.port ∧
      (s.endField f).phase = s.phase ∧
      (s.endField f).freeCount = s.freeCount ∧
      (s.endField f).pending = s.pending := by
  simp [State.endField]

@[simp] theorem State.frameAdvance_frame (f : FieldNo) (k : Nat) :
    (s.frameAdvance f k).fieldUnits = s.fieldUnits ∧
      (s.frameAdvance f k).entries = s.entries ∧
      (s.frameAdvance f k).serialCounter = s.serialCounter ∧
      (s.frameAdvance f k).lanes = s.lanes ∧
      (s.frameAdvance f k).sets = s.sets ∧
      (s.frameAdvance f k).bays = s.bays ∧
      (s.frameAdvance f k).readyLevel = s.readyLevel ∧
      (s.frameAdvance f k).issueTime = s.issueTime ∧
      (s.frameAdvance f k).placement = s.placement ∧
      (s.frameAdvance f k).prepLimit = s.prepLimit ∧
      (s.frameAdvance f k).readyList = s.readyList ∧
      (s.frameAdvance f k).window = s.window ∧
      (s.frameAdvance f k).port = s.port ∧
      (s.frameAdvance f k).phase = s.phase ∧
      (s.frameAdvance f k).freeCount = s.freeCount ∧
      (s.frameAdvance f k).pending = s.pending := by
  unfold State.frameAdvance
  dsimp only
  (repeat' split) <;> simp

@[simp] theorem State.stallField_frame (f : FieldNo) :
    (s.stallField f).fieldUnits = s.fieldUnits ∧
      (s.stallField f).entries = s.entries ∧
      (s.stallField f).serialCounter = s.serialCounter ∧
      (s.stallField f).lanes = s.lanes ∧
      (s.stallField f).timebases = s.timebases ∧
      (s.stallField f).sets = s.sets ∧
      (s.stallField f).bays = s.bays ∧
      (s.stallField f).readyLevel = s.readyLevel ∧
      (s.stallField f).issueTime = s.issueTime ∧
      (s.stallField f).placement = s.placement ∧
      (s.stallField f).prepLimit = s.prepLimit ∧
      (s.stallField f).readyList = s.readyList ∧
      (s.stallField f).window = s.window ∧
      (s.stallField f).port = s.port ∧
      (s.stallField f).phase = s.phase ∧
      (s.stallField f).freeCount = s.freeCount ∧
      (s.stallField f).pending = s.pending := by
  unfold State.stallField
  (repeat' split) <;> simp

@[simp] theorem State.endStall_frame (f : FieldNo) :
    (s.endStall f).fieldUnits = s.fieldUnits ∧
      (s.endStall f).entries = s.entries ∧
      (s.endStall f).serialCounter = s.serialCounter ∧
      (s.endStall f).lanes = s.lanes ∧
      (s.endStall f).timebases = s.timebases ∧
      (s.endStall f).sets = s.sets ∧
      (s.endStall f).bays = s.bays ∧
      (s.endStall f).readyLevel = s.readyLevel ∧
      (s.endStall f).issueTime = s.issueTime ∧
      (s.endStall f).placement = s.placement ∧
      (s.endStall f).prepLimit = s.prepLimit ∧
      (s.endStall f).readyList = s.readyList ∧
      (s.endStall f).window = s.window ∧
      (s.endStall f).port = s.port ∧
      (s.endStall f).phase = s.phase ∧
      (s.endStall f).freeCount = s.freeCount ∧
      (s.endStall f).pending = s.pending := by
  unfold State.endStall
  (repeat' split) <;> simp

/-! ### Timebases -/

@[simp] theorem State.overduePulse_frame (f : FieldNo) :
    (s.overduePulse f).fieldUnits = s.fieldUnits ∧
      (s.overduePulse f).entries = s.entries ∧
      (s.overduePulse f).serialCounter = s.serialCounter ∧
      (s.overduePulse f).lanes = s.lanes ∧
      (s.overduePulse f).tallies = s.tallies ∧
      (s.overduePulse f).programs = s.programs ∧
      (s.overduePulse f).sets = s.sets ∧
      (s.overduePulse f).bays = s.bays ∧
      (s.overduePulse f).readyLevel = s.readyLevel ∧
      (s.overduePulse f).issueTime = s.issueTime ∧
      (s.overduePulse f).orders = s.orders ∧
      (s.overduePulse f).parked = s.parked ∧
      (s.overduePulse f).placement = s.placement ∧
      (s.overduePulse f).stations = s.stations ∧
      (s.overduePulse f).prepLimit = s.prepLimit ∧
      (s.overduePulse f).hold = s.hold ∧
      (s.overduePulse f).trips = s.trips ∧
      (s.overduePulse f).readyList = s.readyList ∧
      (s.overduePulse f).window = s.window ∧
      (s.overduePulse f).attention = s.attention ∧
      (s.overduePulse f).port = s.port ∧
      (s.overduePulse f).phase = s.phase ∧
      (s.overduePulse f).freeCount = s.freeCount ∧
      (s.overduePulse f).pending = s.pending := by
  unfold State.overduePulse
  dsimp only
  (repeat' split) <;> simp

@[simp] theorem State.expireHoldover_frame (f : FieldNo) :
    (s.expireHoldover f).fieldUnits = s.fieldUnits ∧
      (s.expireHoldover f).entries = s.entries ∧
      (s.expireHoldover f).serialCounter = s.serialCounter ∧
      (s.expireHoldover f).lanes = s.lanes ∧
      (s.expireHoldover f).sets = s.sets ∧
      (s.expireHoldover f).bays = s.bays ∧
      (s.expireHoldover f).readyLevel = s.readyLevel ∧
      (s.expireHoldover f).issueTime = s.issueTime ∧
      (s.expireHoldover f).placement = s.placement ∧
      (s.expireHoldover f).prepLimit = s.prepLimit ∧
      (s.expireHoldover f).readyList = s.readyList ∧
      (s.expireHoldover f).window = s.window ∧
      (s.expireHoldover f).port = s.port ∧
      (s.expireHoldover f).phase = s.phase ∧
      (s.expireHoldover f).freeCount = s.freeCount ∧
      (s.expireHoldover f).pending = s.pending := by
  unfold State.expireHoldover
  dsimp only
  (repeat' split) <;> simp

@[simp] theorem State.dropReference_frame (f : FieldNo) :
    (s.dropReference f).fieldUnits = s.fieldUnits ∧
      (s.dropReference f).entries = s.entries ∧
      (s.dropReference f).serialCounter = s.serialCounter ∧
      (s.dropReference f).lanes = s.lanes ∧
      (s.dropReference f).tallies = s.tallies ∧
      (s.dropReference f).programs = s.programs ∧
      (s.dropReference f).sets = s.sets ∧
      (s.dropReference f).bays = s.bays ∧
      (s.dropReference f).readyLevel = s.readyLevel ∧
      (s.dropReference f).issueTime = s.issueTime ∧
      (s.dropReference f).orders = s.orders ∧
      (s.dropReference f).parked = s.parked ∧
      (s.dropReference f).placement = s.placement ∧
      (s.dropReference f).stations = s.stations ∧
      (s.dropReference f).prepLimit = s.prepLimit ∧
      (s.dropReference f).hold = s.hold ∧
      (s.dropReference f).trips = s.trips ∧
      (s.dropReference f).readyList = s.readyList ∧
      (s.dropReference f).window = s.window ∧
      (s.dropReference f).attention = s.attention ∧
      (s.dropReference f).port = s.port ∧
      (s.dropReference f).phase = s.phase ∧
      (s.dropReference f).freeCount = s.freeCount ∧
      (s.dropReference f).pending = s.pending := by
  unfold State.dropReference
  dsimp only
  (repeat' split) <;> simp

@[simp] theorem State.countReacquire_frame (f : FieldNo) (k : Nat) :
    (s.countReacquire f k).fieldUnits = s.fieldUnits ∧
      (s.countReacquire f k).entries = s.entries ∧
      (s.countReacquire f k).serialCounter = s.serialCounter ∧
      (s.countReacquire f k).lanes = s.lanes ∧
      (s.countReacquire f k).programs = s.programs ∧
      (s.countReacquire f k).sets = s.sets ∧
      (s.countReacquire f k).bays = s.bays ∧
      (s.countReacquire f k).readyLevel = s.readyLevel ∧
      (s.countReacquire f k).issueTime = s.issueTime ∧
      (s.countReacquire f k).orders = s.orders ∧
      (s.countReacquire f k).parked = s.parked ∧
      (s.countReacquire f k).placement = s.placement ∧
      (s.countReacquire f k).stations = s.stations ∧
      (s.countReacquire f k).prepLimit = s.prepLimit ∧
      (s.countReacquire f k).hold = s.hold ∧
      (s.countReacquire f k).trips = s.trips ∧
      (s.countReacquire f k).readyList = s.readyList ∧
      (s.countReacquire f k).window = s.window ∧
      (s.countReacquire f k).port = s.port ∧
      (s.countReacquire f k).phase = s.phase ∧
      (s.countReacquire f k).freeCount = s.freeCount ∧
      (s.countReacquire f k).pending = s.pending := by
  unfold State.countReacquire
  dsimp only
  (repeat' split) <;> simp

@[simp] theorem State.measuredPulse_frame (f : FieldNo) (k : Nat) :
    (s.measuredPulse f k).fieldUnits = s.fieldUnits ∧
      (s.measuredPulse f k).entries = s.entries ∧
      (s.measuredPulse f k).serialCounter = s.serialCounter ∧
      (s.measuredPulse f k).lanes = s.lanes ∧
      (s.measuredPulse f k).sets = s.sets ∧
      (s.measuredPulse f k).bays = s.bays ∧
      (s.measuredPulse f k).readyLevel = s.readyLevel ∧
      (s.measuredPulse f k).issueTime = s.issueTime ∧
      (s.measuredPulse f k).placement = s.placement ∧
      (s.measuredPulse f k).prepLimit = s.prepLimit ∧
      (s.measuredPulse f k).readyList = s.readyList ∧
      (s.measuredPulse f k).window = s.window ∧
      (s.measuredPulse f k).port = s.port ∧
      (s.measuredPulse f k).phase = s.phase ∧
      (s.measuredPulse f k).freeCount = s.freeCount ∧
      (s.measuredPulse f k).pending = s.pending := by
  unfold State.measuredPulse
  dsimp only
  (repeat' split) <;> simp

@[simp] theorem State.takePulse_frame (f : FieldNo) :
    (s.takePulse f).fieldUnits = s.fieldUnits ∧
      (s.takePulse f).entries = s.entries ∧
      (s.takePulse f).serialCounter = s.serialCounter ∧
      (s.takePulse f).lanes = s.lanes ∧
      (s.takePulse f).sets = s.sets ∧
      (s.takePulse f).bays = s.bays ∧
      (s.takePulse f).readyLevel = s.readyLevel ∧
      (s.takePulse f).issueTime = s.issueTime ∧
      (s.takePulse f).placement = s.placement ∧
      (s.takePulse f).prepLimit = s.prepLimit ∧
      (s.takePulse f).readyList = s.readyList ∧
      (s.takePulse f).window = s.window ∧
      (s.takePulse f).port = s.port ∧
      (s.takePulse f).phase = s.phase ∧
      (s.takePulse f).freeCount = s.freeCount ∧
      (s.takePulse f).pending = s.pending := by
  unfold State.takePulse
  dsimp only
  (repeat' split) <;> simp

/-! ### LaneOps -/

@[simp] theorem State.laneWaits_frame (l : LaneNo) :
    (s.laneWaits l).fieldUnits = s.fieldUnits ∧
      (s.laneWaits l).entries = s.entries ∧
      (s.laneWaits l).serialCounter = s.serialCounter ∧
      (s.laneWaits l).tallies = s.tallies ∧
      (s.laneWaits l).programs = s.programs ∧
      (s.laneWaits l).timebases = s.timebases ∧
      (s.laneWaits l).sets = s.sets ∧
      (s.laneWaits l).bays = s.bays ∧
      (s.laneWaits l).readyLevel = s.readyLevel ∧
      (s.laneWaits l).issueTime = s.issueTime ∧
      (s.laneWaits l).orders = s.orders ∧
      (s.laneWaits l).parked = s.parked ∧
      (s.laneWaits l).placement = s.placement ∧
      (s.laneWaits l).stations = s.stations ∧
      (s.laneWaits l).prepLimit = s.prepLimit ∧
      (s.laneWaits l).hold = s.hold ∧
      (s.laneWaits l).trips = s.trips ∧
      (s.laneWaits l).readyList = s.readyList ∧
      (s.laneWaits l).window = s.window ∧
      (s.laneWaits l).port = s.port ∧
      (s.laneWaits l).phase = s.phase ∧
      (s.laneWaits l).freeCount = s.freeCount ∧
      (s.laneWaits l).pending = s.pending := by
  simp [State.laneWaits]

@[simp] theorem State.closeLane_frame (l : LaneNo) :
    (s.closeLane l).fieldUnits = s.fieldUnits ∧
      (s.closeLane l).entries = s.entries ∧
      (s.closeLane l).serialCounter = s.serialCounter ∧
      (s.closeLane l).tallies = s.tallies ∧
      (s.closeLane l).programs = s.programs ∧
      (s.closeLane l).timebases = s.timebases ∧
      (s.closeLane l).sets = s.sets ∧
      (s.closeLane l).bays = s.bays ∧
      (s.closeLane l).readyLevel = s.readyLevel ∧
      (s.closeLane l).issueTime = s.issueTime ∧
      (s.closeLane l).orders = s.orders ∧
      (s.closeLane l).parked = s.parked ∧
      (s.closeLane l).placement = s.placement ∧
      (s.closeLane l).stations = s.stations ∧
      (s.closeLane l).prepLimit = s.prepLimit ∧
      (s.closeLane l).hold = s.hold ∧
      (s.closeLane l).trips = s.trips ∧
      (s.closeLane l).readyList = s.readyList ∧
      (s.closeLane l).window = s.window ∧
      (s.closeLane l).port = s.port ∧
      (s.closeLane l).phase = s.phase ∧
      (s.closeLane l).freeCount = s.freeCount ∧
      (s.closeLane l).pending = s.pending := by
  unfold State.closeLane
  dsimp only
  (repeat' split) <;> simp

@[simp] theorem State.arrivalOccupied_frame (l : LaneNo) :
    (s.arrivalOccupied l).fieldUnits = s.fieldUnits ∧
      (s.arrivalOccupied l).entries = s.entries ∧
      (s.arrivalOccupied l).serialCounter = s.serialCounter ∧
      (s.arrivalOccupied l).tallies = s.tallies ∧
      (s.arrivalOccupied l).programs = s.programs ∧
      (s.arrivalOccupied l).timebases = s.timebases ∧
      (s.arrivalOccupied l).sets = s.sets ∧
      (s.arrivalOccupied l).bays = s.bays ∧
      (s.arrivalOccupied l).readyLevel = s.readyLevel ∧
      (s.arrivalOccupied l).issueTime = s.issueTime ∧
      (s.arrivalOccupied l).orders = s.orders ∧
      (s.arrivalOccupied l).parked = s.parked ∧
      (s.arrivalOccupied l).placement = s.placement ∧
      (s.arrivalOccupied l).stations = s.stations ∧
      (s.arrivalOccupied l).prepLimit = s.prepLimit ∧
      (s.arrivalOccupied l).hold = s.hold ∧
      (s.arrivalOccupied l).trips = s.trips ∧
      (s.arrivalOccupied l).readyList = s.readyList ∧
      (s.arrivalOccupied l).window = s.window ∧
      (s.arrivalOccupied l).port = s.port ∧
      (s.arrivalOccupied l).phase = s.phase ∧
      (s.arrivalOccupied l).freeCount = s.freeCount ∧
      (s.arrivalOccupied l).pending = s.pending := by
  unfold State.arrivalOccupied
  dsimp only
  (repeat' split) <;> simp

@[simp] theorem State.arrivalCleared_frame (l : LaneNo) :
    (s.arrivalCleared l).fieldUnits = s.fieldUnits ∧
      (s.arrivalCleared l).entries = s.entries ∧
      (s.arrivalCleared l).serialCounter = s.serialCounter ∧
      (s.arrivalCleared l).programs = s.programs ∧
      (s.arrivalCleared l).timebases = s.timebases ∧
      (s.arrivalCleared l).sets = s.sets ∧
      (s.arrivalCleared l).bays = s.bays ∧
      (s.arrivalCleared l).readyLevel = s.readyLevel ∧
      (s.arrivalCleared l).issueTime = s.issueTime ∧
      (s.arrivalCleared l).orders = s.orders ∧
      (s.arrivalCleared l).parked = s.parked ∧
      (s.arrivalCleared l).placement = s.placement ∧
      (s.arrivalCleared l).stations = s.stations ∧
      (s.arrivalCleared l).prepLimit = s.prepLimit ∧
      (s.arrivalCleared l).hold = s.hold ∧
      (s.arrivalCleared l).trips = s.trips ∧
      (s.arrivalCleared l).readyList = s.readyList ∧
      (s.arrivalCleared l).window = s.window ∧
      (s.arrivalCleared l).attention = s.attention ∧
      (s.arrivalCleared l).port = s.port ∧
      (s.arrivalCleared l).phase = s.phase ∧
      (s.arrivalCleared l).freeCount = s.freeCount ∧
      (s.arrivalCleared l).pending = s.pending := by
  unfold State.arrivalCleared
  dsimp only
  (repeat' split) <;> simp

@[simp] theorem State.passOccupied_frame (l : LaneNo) :
    (s.passOccupied l).fieldUnits = s.fieldUnits ∧
      (s.passOccupied l).entries = s.entries ∧
      (s.passOccupied l).serialCounter = s.serialCounter ∧
      (s.passOccupied l).programs = s.programs ∧
      (s.passOccupied l).timebases = s.timebases ∧
      (s.passOccupied l).sets = s.sets ∧
      (s.passOccupied l).bays = s.bays ∧
      (s.passOccupied l).readyLevel = s.readyLevel ∧
      (s.passOccupied l).issueTime = s.issueTime ∧
      (s.passOccupied l).orders = s.orders ∧
      (s.passOccupied l).parked = s.parked ∧
      (s.passOccupied l).placement = s.placement ∧
      (s.passOccupied l).stations = s.stations ∧
      (s.passOccupied l).prepLimit = s.prepLimit ∧
      (s.passOccupied l).hold = s.hold ∧
      (s.passOccupied l).trips = s.trips ∧
      (s.passOccupied l).readyList = s.readyList ∧
      (s.passOccupied l).window = s.window ∧
      (s.passOccupied l).port = s.port ∧
      (s.passOccupied l).phase = s.phase ∧
      (s.passOccupied l).freeCount = s.freeCount ∧
      (s.passOccupied l).pending = s.pending := by
  unfold State.passOccupied
  dsimp only
  (repeat' split) <;> simp

@[simp] theorem State.commitCar_frame (h : CarHandle) :
    (s.commitCar h).fieldUnits = s.fieldUnits ∧
      (s.commitCar h).serialCounter = s.serialCounter ∧
      (s.commitCar h).lanes = s.lanes ∧
      (s.commitCar h).programs = s.programs ∧
      (s.commitCar h).timebases = s.timebases ∧
      (s.commitCar h).sets = s.sets ∧
      (s.commitCar h).bays = s.bays ∧
      (s.commitCar h).readyLevel = s.readyLevel ∧
      (s.commitCar h).issueTime = s.issueTime ∧
      (s.commitCar h).orders = s.orders ∧
      (s.commitCar h).parked = s.parked ∧
      (s.commitCar h).placement = s.placement ∧
      (s.commitCar h).stations = s.stations ∧
      (s.commitCar h).prepLimit = s.prepLimit ∧
      (s.commitCar h).hold = s.hold ∧
      (s.commitCar h).trips = s.trips ∧
      (s.commitCar h).readyList = s.readyList ∧
      (s.commitCar h).window = s.window ∧
      (s.commitCar h).port = s.port ∧
      (s.commitCar h).phase = s.phase ∧
      (s.commitCar h).freeCount = s.freeCount ∧
      (s.commitCar h).pending = s.pending := by
  unfold State.commitCar
  (repeat' split) <;> simp

@[simp] theorem State.completePass_frame (l : LaneNo) :
    (s.completePass l).serialCounter = s.serialCounter ∧
      (s.completePass l).programs = s.programs ∧
      (s.completePass l).timebases = s.timebases ∧
      (s.completePass l).bays = s.bays ∧
      (s.completePass l).readyLevel = s.readyLevel ∧
      (s.completePass l).issueTime = s.issueTime ∧
      (s.completePass l).placement = s.placement ∧
      (s.completePass l).prepLimit = s.prepLimit ∧
      (s.completePass l).window = s.window ∧
      (s.completePass l).port = s.port ∧
      (s.completePass l).phase = s.phase ∧
      (s.completePass l).freeCount = s.freeCount ∧
      (s.completePass l).pending = s.pending := by
  unfold State.completePass
  (repeat' split) <;> simp

@[simp] theorem State.passCleared_frame (l : LaneNo) :
    (s.passCleared l).serialCounter = s.serialCounter ∧
      (s.passCleared l).programs = s.programs ∧
      (s.passCleared l).timebases = s.timebases ∧
      (s.passCleared l).bays = s.bays ∧
      (s.passCleared l).readyLevel = s.readyLevel ∧
      (s.passCleared l).issueTime = s.issueTime ∧
      (s.passCleared l).placement = s.placement ∧
      (s.passCleared l).prepLimit = s.prepLimit ∧
      (s.passCleared l).window = s.window ∧
      (s.passCleared l).port = s.port ∧
      (s.passCleared l).phase = s.phase ∧
      (s.passCleared l).freeCount = s.freeCount ∧
      (s.passCleared l).pending = s.pending := by
  unfold State.passCleared
  dsimp only
  (repeat' split) <;> simp

@[simp] theorem State.beginPassAtExpiry_frame (l : LaneNo) :
    (s.beginPassAtExpiry l).fieldUnits = s.fieldUnits ∧
      (s.beginPassAtExpiry l).entries = s.entries ∧
      (s.beginPassAtExpiry l).serialCounter = s.serialCounter ∧
      (s.beginPassAtExpiry l).tallies = s.tallies ∧
      (s.beginPassAtExpiry l).programs = s.programs ∧
      (s.beginPassAtExpiry l).timebases = s.timebases ∧
      (s.beginPassAtExpiry l).sets = s.sets ∧
      (s.beginPassAtExpiry l).bays = s.bays ∧
      (s.beginPassAtExpiry l).readyLevel = s.readyLevel ∧
      (s.beginPassAtExpiry l).issueTime = s.issueTime ∧
      (s.beginPassAtExpiry l).orders = s.orders ∧
      (s.beginPassAtExpiry l).parked = s.parked ∧
      (s.beginPassAtExpiry l).placement = s.placement ∧
      (s.beginPassAtExpiry l).stations = s.stations ∧
      (s.beginPassAtExpiry l).prepLimit = s.prepLimit ∧
      (s.beginPassAtExpiry l).hold = s.hold ∧
      (s.beginPassAtExpiry l).trips = s.trips ∧
      (s.beginPassAtExpiry l).readyList = s.readyList ∧
      (s.beginPassAtExpiry l).window = s.window ∧
      (s.beginPassAtExpiry l).attention = s.attention ∧
      (s.beginPassAtExpiry l).port = s.port ∧
      (s.beginPassAtExpiry l).phase = s.phase ∧
      (s.beginPassAtExpiry l).freeCount = s.freeCount ∧
      (s.beginPassAtExpiry l).pending = s.pending := by
  simp [State.beginPassAtExpiry]

@[simp] theorem State.entryExpiry_frame (l : LaneNo) :
    (s.entryExpiry l).serialCounter = s.serialCounter ∧
      (s.entryExpiry l).programs = s.programs ∧
      (s.entryExpiry l).timebases = s.timebases ∧
      (s.entryExpiry l).bays = s.bays ∧
      (s.entryExpiry l).readyLevel = s.readyLevel ∧
      (s.entryExpiry l).issueTime = s.issueTime ∧
      (s.entryExpiry l).placement = s.placement ∧
      (s.entryExpiry l).prepLimit = s.prepLimit ∧
      (s.entryExpiry l).window = s.window ∧
      (s.entryExpiry l).port = s.port ∧
      (s.entryExpiry l).phase = s.phase ∧
      (s.entryExpiry l).freeCount = s.freeCount ∧
      (s.entryExpiry l).pending = s.pending := by
  unfold State.entryExpiry
  dsimp only
  (repeat' split) <;> simp

@[simp] theorem State.exitExpiry_frame (l : LaneNo) :
    (s.exitExpiry l).serialCounter = s.serialCounter ∧
      (s.exitExpiry l).programs = s.programs ∧
      (s.exitExpiry l).timebases = s.timebases ∧
      (s.exitExpiry l).sets = s.sets ∧
      (s.exitExpiry l).bays = s.bays ∧
      (s.exitExpiry l).readyLevel = s.readyLevel ∧
      (s.exitExpiry l).issueTime = s.issueTime ∧
      (s.exitExpiry l).placement = s.placement ∧
      (s.exitExpiry l).prepLimit = s.prepLimit ∧
      (s.exitExpiry l).window = s.window ∧
      (s.exitExpiry l).port = s.port ∧
      (s.exitExpiry l).phase = s.phase ∧
      (s.exitExpiry l).freeCount = s.freeCount ∧
      (s.exitExpiry l).pending = s.pending := by
  unfold State.exitExpiry
  dsimp only
  (repeat' split) <;> simp

/-! ### Events -/

@[simp] theorem State.issueExpiry_frame (n : SetHandle) :
    (s.issueExpiry n).fieldUnits = s.fieldUnits ∧
      (s.issueExpiry n).serialCounter = s.serialCounter ∧
      (s.issueExpiry n).lanes = s.lanes ∧
      (s.issueExpiry n).programs = s.programs ∧
      (s.issueExpiry n).timebases = s.timebases ∧
      (s.issueExpiry n).bays = s.bays ∧
      (s.issueExpiry n).readyLevel = s.readyLevel ∧
      (s.issueExpiry n).issueTime = s.issueTime ∧
      (s.issueExpiry n).orders = s.orders ∧
      (s.issueExpiry n).parked = s.parked ∧
      (s.issueExpiry n).placement = s.placement ∧
      (s.issueExpiry n).stations = s.stations ∧
      (s.issueExpiry n).prepLimit = s.prepLimit ∧
      (s.issueExpiry n).hold = s.hold ∧
      (s.issueExpiry n).trips = s.trips ∧
      (s.issueExpiry n).readyList = s.readyList ∧
      (s.issueExpiry n).window = s.window ∧
      (s.issueExpiry n).port = s.port ∧
      (s.issueExpiry n).phase = s.phase ∧
      (s.issueExpiry n).freeCount = s.freeCount ∧
      (s.issueExpiry n).pending = s.pending := by
  unfold State.issueExpiry
  dsimp only
  (repeat' split) <;> simp

@[simp] theorem State.prepExpiry_frame (o : OrderHandle) :
    (s.prepExpiry o).fieldUnits = s.fieldUnits ∧
      (s.prepExpiry o).entries = s.entries ∧
      (s.prepExpiry o).serialCounter = s.serialCounter ∧
      (s.prepExpiry o).lanes = s.lanes ∧
      (s.prepExpiry o).programs = s.programs ∧
      (s.prepExpiry o).timebases = s.timebases ∧
      (s.prepExpiry o).sets = s.sets ∧
      (s.prepExpiry o).bays = s.bays ∧
      (s.prepExpiry o).readyLevel = s.readyLevel ∧
      (s.prepExpiry o).issueTime = s.issueTime ∧
      (s.prepExpiry o).parked = s.parked ∧
      (s.prepExpiry o).placement = s.placement ∧
      (s.prepExpiry o).stations = s.stations ∧
      (s.prepExpiry o).prepLimit = s.prepLimit ∧
      (s.prepExpiry o).hold = s.hold ∧
      (s.prepExpiry o).trips = s.trips ∧
      (s.prepExpiry o).readyList = s.readyList ∧
      (s.prepExpiry o).window = s.window ∧
      (s.prepExpiry o).port = s.port ∧
      (s.prepExpiry o).phase = s.phase ∧
      (s.prepExpiry o).freeCount = s.freeCount ∧
      (s.prepExpiry o).pending = s.pending := by
  unfold State.prepExpiry
  (repeat' split) <;> simp

@[simp] theorem State.gatherExpiry_frame (t : TripHandle) :
    (s.gatherExpiry t).fieldUnits = s.fieldUnits ∧
      (s.gatherExpiry t).entries = s.entries ∧
      (s.gatherExpiry t).serialCounter = s.serialCounter ∧
      (s.gatherExpiry t).lanes = s.lanes ∧
      (s.gatherExpiry t).tallies = s.tallies ∧
      (s.gatherExpiry t).programs = s.programs ∧
      (s.gatherExpiry t).timebases = s.timebases ∧
      (s.gatherExpiry t).sets = s.sets ∧
      (s.gatherExpiry t).bays = s.bays ∧
      (s.gatherExpiry t).readyLevel = s.readyLevel ∧
      (s.gatherExpiry t).issueTime = s.issueTime ∧
      (s.gatherExpiry t).parked = s.parked ∧
      (s.gatherExpiry t).placement = s.placement ∧
      (s.gatherExpiry t).stations = s.stations ∧
      (s.gatherExpiry t).prepLimit = s.prepLimit ∧
      (s.gatherExpiry t).hold = s.hold ∧
      (s.gatherExpiry t).readyList = s.readyList ∧
      (s.gatherExpiry t).window = s.window ∧
      (s.gatherExpiry t).port = s.port ∧
      (s.gatherExpiry t).phase = s.phase ∧
      (s.gatherExpiry t).freeCount = s.freeCount ∧
      (s.gatherExpiry t).pending = s.pending := by
  unfold State.gatherExpiry
  (repeat' split) <;> simp

@[simp] theorem State.loseCarrier_frame (f : FieldNo) :
    (s.loseCarrier f).fieldUnits = s.fieldUnits ∧
      (s.loseCarrier f).entries = s.entries ∧
      (s.loseCarrier f).serialCounter = s.serialCounter ∧
      (s.loseCarrier f).lanes = s.lanes ∧
      (s.loseCarrier f).timebases = s.timebases ∧
      (s.loseCarrier f).sets = s.sets ∧
      (s.loseCarrier f).bays = s.bays ∧
      (s.loseCarrier f).readyLevel = s.readyLevel ∧
      (s.loseCarrier f).issueTime = s.issueTime ∧
      (s.loseCarrier f).orders = s.orders ∧
      (s.loseCarrier f).parked = s.parked ∧
      (s.loseCarrier f).placement = s.placement ∧
      (s.loseCarrier f).stations = s.stations ∧
      (s.loseCarrier f).prepLimit = s.prepLimit ∧
      (s.loseCarrier f).hold = s.hold ∧
      (s.loseCarrier f).trips = s.trips ∧
      (s.loseCarrier f).readyList = s.readyList ∧
      (s.loseCarrier f).window = s.window ∧
      (s.loseCarrier f).port = s.port ∧
      (s.loseCarrier f).phase = s.phase ∧
      (s.loseCarrier f).freeCount = s.freeCount ∧
      (s.loseCarrier f).pending = s.pending := by
  unfold State.loseCarrier
  dsimp only
  (repeat' split) <;> simp

end Sys2Proof.Machine
end

