-- ==== Sys2Proof/Laws/Tables.lean ====
section
/-! SUPPORT. The tally bank and the stall map: distinct names have distinct places, so a read after a write is the
written value there and the old one everywhere else. -/

namespace Sys2Proof.Machine

/-- Distinct tallies have distinct places in the bank (R61). -/
theorem Tally.index_injective : Function.Injective Tally.index := by
  intro a b h
  rcases a with ⟨f, k⟩ | ⟨l, k⟩ | ⟨x⟩ | ⟨k⟩ | ⟨k⟩ <;> rcases b with ⟨f', k'⟩ | ⟨l', k'⟩ | ⟨x'⟩ | ⟨k'⟩ | ⟨k'⟩ <;>
    simp only [Tally.index, Fin.mk.injEq] at h
  case field.field =>
    have : f = f' := Fin.ext (by omega)
    subst this
    cases k <;> cases k' <;> simp [fieldTallyIx] at h ⊢
  case lane.lane =>
    have : l = l' := Fin.ext (by omega)
    subst this
    cases k <;> cases k' <;> simp [laneTallyIx] at h ⊢
  case unidentifiedExits.unidentifiedExits =>
    have : x = x' := Fin.ext (by omega)
    subst this; rfl
  case kitchen.kitchen => cases k <;> cases k' <;> simp [kitchenTallyIx] at h ⊢
  case sets.sets => cases k <;> cases k' <;> simp [setTallyIx] at h ⊢
  all_goals (exfalso; omega)

/-- An addition to a tally changes that tally alone (R61). -/
theorem State.tally_count (s : State) (k j : Tally) (n : Nat) :
    (s.count k n).tally j = if k = j then min 65535 (s.tally k + n) else s.tally j := by
  by_cases h : k = j
  · subst h; simp [State.tally, State.count]
  · simp [State.tally, State.count, h, Tally.index_injective.ne h]

/-- Distinct stalls have distinct places in the map (R7). -/
theorem Stall.index_injective : Function.Injective Stall.index := by
  rintro ⟨r, p⟩ ⟨r', p'⟩ h
  simp only [Stall.index, Fin.mk.injEq] at h
  have : r = r' := Fin.ext (by omega)
  have : p = p' := Fin.ext (by omega)
  simp [*]

/-- A stall written reads as written, and no other stall changes (R15). -/
theorem FieldUnit.at_setStall (u : FieldUnit) (st st' : Stall) (h : Option CarHandle) :
    (u.setStall st h).at st' = if st = st' then h else u.at st' := by
  by_cases e : st = st'
  · subst e; simp [FieldUnit.at, FieldUnit.setStall]
  · simp [FieldUnit.at, FieldUnit.setStall, e, Stall.index_injective.ne e]

/-- A handle found by a search passes its test. -/
theorem lowest_spec {n : Nat} {p : Fin n → Bool} {i : Fin n} (h : lowest p = some i) :
    p i = true ∧ ∀ j, j < i → p j = false := by
  unfold lowest at h
  rw [List.find?_eq_some_iff_append] at h
  obtain ⟨hp, as, bs, e, hn⟩ := h
  refine ⟨hp, fun j hj => ?_⟩
  have hs : (List.finRange n).Pairwise (· < ·) := List.pairwise_lt_finRange n
  have hmem : j ∈ as ++ i :: bs := e ▸ List.mem_finRange j
  rw [e] at hs
  rcases List.mem_append.mp hmem with hj' | hj'
  · simpa using hn j hj'
  · rcases List.mem_cons.mp hj' with rfl | hb
    · exact absurd hj (lt_irrefl _)
    · have := (List.pairwise_append.mp hs).2.1
      have := List.rel_of_pairwise_cons this hb
      exact absurd (lt_trans this hj) (lt_irrefl _)

/-- No handle found: none passes the test. -/
theorem lowest_eq_none {n : Nat} {p : Fin n → Bool} : lowest p = none ↔ ∀ i, p i = false := by
  simp [lowest]

end Sys2Proof.Machine
end

