-- ==== Sys2Proof/Laws/Orders.lean ====
section
/-! SUPPORT. What the shared operations of the order book and the trip table do, said once each: the walks over orders and
stations, the evaluation of HOLD and what follows a fall in a backlog, a trip's joins, its close, its forming again, the
retirement of an order and its cancellation by stage. -/

namespace Sys2Proof.Machine

/-! ### Tables and walks -/

/-- Of two writes of one record the second stands. -/
theorem put_put {α : Type} {n : Nat} (v : Vector α n) (i : Fin n) (x y : α) : put (put v i x) i y = put v i y := by
  apply table_ext; intro j; by_cases h : i = j <;> simp [h]

/-- A record written as it stands changes nothing. -/
theorem put_look {α : Type} {n : Nat} (v : Vector α n) (i : Fin n) : put v i (look v i) = v := by
  apply table_ext; intro j; by_cases h : i = j
  · subst h; simp
  · simp [h]

/-- A walk that changes each order of a list by one rule, which done twice is done once. -/
theorem State.forEach_modOrder (s : State) (os : List OrderHandle) (g : Order → Order) (hg : ∀ x, g (g x) = g x) :
    let t := s.forEach os fun o acc => acc.modOrder o g
    (∀ o, t.order o = if o ∈ os then (s.order o).map g else s.order o) ∧ t = { s with orders := t.orders } := by
  intro t
  induction os generalizing s with
  | nil => exact ⟨fun o => by simp [t, State.forEach], rfl⟩
  | cons x rest ih =>
    obtain ⟨h1, h2⟩ := ih (s.modOrder x g)
    refine ⟨fun o => ?_, h2⟩
    have : t.order o = ((s.modOrder x g).forEach rest fun o acc => acc.modOrder o g).order o := rfl
    rw [this, h1]
    by_cases hx : x = o
    · subst hx
      by_cases hr : x ∈ rest
      · simp [hr, State.modOrder, State.setOrder, State.order, Function.comp_def, hg]
      · simp [hr, State.modOrder, State.setOrder, State.order]
    · simp [State.modOrder, State.setOrder, State.order, hx, Ne.symm hx]

/-- A walk that writes each station of a list by a rule of its own changes those stations alone. -/
theorem State.forEach_setStation (s : State) (ns : List StationNo) (hn : ns.Nodup)
    (g : StationNo → Station → Station) :
    let t := s.forEach ns fun n acc => acc.setStation n (g n (acc.station n))
    (∀ n, t.station n = if n ∈ ns then g n (s.station n) else s.station n) ∧ t = { s with stations := t.stations } := by
  intro t
  induction ns generalizing s with
  | nil => exact ⟨fun o => by simp [t, State.forEach], rfl⟩
  | cons x rest ih =>
    obtain ⟨hx, hr⟩ := List.nodup_cons.mp hn
    obtain ⟨h1, h2⟩ := ih (s.setStation x (g x (s.station x))) hr
    refine ⟨fun n => ?_, h2⟩
    have : t.station n = ((s.setStation x (g x (s.station x))).forEach rest
      fun n acc => acc.setStation n (g n (acc.station n))).station n := rfl
    rw [this, h1]
    by_cases e : x = n
    · subst e; simp [hx, State.setStation, State.station]
    · simp [State.setStation, State.station, e, Ne.symm e]

/-- A walk over the four stations writes each by its rule. -/
theorem State.forEach_stations (s : State) (g : StationNo → Station → Station) :
    (s.forEach (List.finRange 4) fun n acc => acc.setStation n (g n (acc.station n))) =
      { s with stations := Vector.ofFn fun n => g n (s.station n) } := by
  obtain ⟨h1, h2⟩ := s.forEach_setStation (List.finRange 4) (List.nodup_finRange 4) g
  rw [h2]
  congr 1
  apply table_ext
  intro n
  have := h1 n
  simp only [List.mem_finRange, if_true] at this
  simpa [look, State.station] using this

/-- The lines that a test picks out leave every queue; nothing else changes (R143). -/
theorem State.withdrawLines_eq (s : State) (gone : OrderHandle × Nat → Bool) :
    s.withdrawLines gone =
      { s with stations := Vector.ofFn fun n =>
        { s.station n with queue := (s.station n).queue.filter fun l => !gone l } } :=
  s.forEach_stations fun _ x => { x with queue := x.queue.filter fun l => !gone l }

/-! ### Trips -/

/-- Runners may walk the field, in the manual's terms (R84). -/
theorem ProgramUnit.runnersAllowed_iff (p : ProgramUnit) :
    p.runnersAllowed = true ↔ p.state = .dark ∨ p.state = .opened ∨ p.state = .ended ∨
      ∃ seg, p.record.segments[p.segment]? = some seg ∧ seg.runners = true := by
  have h : ((p.current?.map Segment.runners).getD false) = true ↔
      ∃ seg, p.record.segments[p.segment]? = some seg ∧ seg.runners = true := by
    unfold ProgramUnit.current?
    cases p.record.segments[p.segment]? <;> simp
  unfold ProgramUnit.runnersAllowed
  cases hs : p.state <;> simp [h]

/-- A dispatch: the trip OUT, its orders ON_TRIP, TRIP raised with its flag, nothing else (R162). -/
theorem State.dispatch_spec (s : State) (t : TripHandle) :
    (∀ o, (s.dispatch t).order o =
      if o ∈ (s.trip t).orders then (s.order o).map fun ord => { ord with stage := .onTrip } else s.order o) ∧
    s.dispatch t = { s with
      trips := put s.trips t { s.trip t with state := .out, timer := none }
      orders := (s.dispatch t).orders
      attention :=
        { s.attention with
          causes := s.attention.causes ||| 0x20#10
          dispatched := s.attention.dispatched ||| BitVec.twoPow 8 t.val } } := by
  obtain ⟨h1, h2⟩ := (s.setTrip t { s.trip t with state := .out, timer := none }).forEach_modOrder (s.trip t).orders
    (fun ord => { ord with stage := .onTrip }) (fun _ => rfl)
  refine ⟨h1, ?_⟩
  simp only [State.dispatch]
  rw [h2]
  rfl

/-- The close of a trip with a field: OUT or FIELD_HOLD (R160). -/
theorem State.closeTrip_spec (s : State) (t : TripHandle) (f : FieldNo) (h : (s.trip t).field = some f) :
    s.closeTrip t = if (s.program f).runnersAllowed then s.dispatch t
      else { s with trips := put s.trips t { s.trip t with state := .fieldHold, timer := none } } := by
  simp only [State.closeTrip, h]
  rfl

/-- Orders that join a trip, whether or not the trip closes at it (R158, R159, R160). -/
theorem State.joinTrip_spec (s : State) (k : TripHandle) (os : List OrderHandle) :
    let x := s.trip k
    let members := x.orders ++ os
    let joins := x.state = .gathering ∧ os ≠ []
    let t := s.joinTrip k os
    let marked (o : OrderHandle) : Option Order :=
      if o ∈ os then (s.order o).map fun ord => { ord with trip := some k } else s.order o
    (¬ (joins ∧ members.length = 6) →
      (∀ o, t.order o = marked o) ∧
      t = { s with
        trips := put s.trips k
          { x with orders := members, timer := if joins then some (s.window * 1000) else x.timer }
        orders := t.orders }) ∧
    (∀ f, joins → members.length = 6 → x.field = some f →
      let p := s.program f
      let allowed := p.state = .dark ∨ p.state = .opened ∨ p.state = .ended ∨
        ∃ seg, p.record.segments[p.segment]? = some seg ∧ seg.runners = true
      (¬ allowed →
        (∀ o, t.order o = marked o) ∧
        t = { s with
          trips := put s.trips k { x with state := .fieldHold, orders := members, timer := none }
          orders := t.orders }) ∧
      (allowed →
        (∀ o, t.order o =
          if o ∈ members then (marked o).map fun ord => { ord with stage := .onTrip } else marked o) ∧
        t = { s with
          trips := put s.trips k { x with state := .out, orders := members, timer := none }
          orders := t.orders
          attention :=
            { s.attention with
              causes := s.attention.causes ||| 0x20#10
              dispatched := s.attention.dispatched ||| BitVec.twoPow 8 k.val } })) := by
  intro x members joins t marked
  let gathers : Bool := x.state == .gathering && !os.isEmpty
  have hg : gathers = true ↔ joins := by simp [gathers, joins]
  let joined := s.setTrip k { x with orders := members, timer := if gathers then some (s.window * 1000) else x.timer }
  let m := joined.forEach os fun o acc => acc.modOrder o fun ord => { ord with trip := some k }
  obtain ⟨h1, h2⟩ : (∀ o, m.order o = marked o) ∧ m = { joined with orders := m.orders } :=
    joined.forEach_modOrder os (fun ord => { ord with trip := some k }) (fun _ => rfl)
  have ht : t = if (gathers && members.length == 6) = true then m.closeTrip k else m := rfl
  refine ⟨fun h => ?_, fun f hj hl hf => ?_⟩
  · have e : t = m := by
      rw [ht, if_neg]; rintro hc
      simp only [Bool.and_eq_true, beq_iff_eq] at hc
      exact h ⟨hg.mp hc.1, hc.2⟩
    rw [e]
    refine ⟨h1, ?_⟩
    rw [h2]
    by_cases hj : joins
    · simp only [joined, hg.mpr hj, hj, if_true]; rfl
    · have : gathers = false := Bool.eq_false_iff.mpr fun h => hj (hg.mp h)
      simp only [joined, this, hj, if_false]; rfl
  · have e : t = m.closeTrip k := by rw [ht, if_pos]; simp [hg.mpr hj, hl]
    have mt : m.trip k = { x with orders := members, timer := some (s.window * 1000) } := by
      rw [h2]; simp [joined, hg.mpr hj, State.trip, State.setTrip]
    have mp : m.programs = s.programs := by rw [h2]; rfl
    have mtr : m.trips = put s.trips k { x with orders := members, timer := some (s.window * 1000) } := by
      rw [h2]; simp [joined, hg.mpr hj, State.setTrip]
    have hc := m.closeTrip_spec k f (by rw [mt]; exact hf)
    intro p allowed
    have hp : m.program f = p := by simp [State.program, mp, p]
    have ha : (m.program f).runnersAllowed = true ↔ allowed := by rw [hp]; exact p.runnersAllowed_iff
    refine ⟨fun hn => ?_, fun hy => ?_⟩
    · have : t = { m with trips := put m.trips k { m.trip k with state := .fieldHold, timer := none } } := by
        rw [e, hc, if_neg (by rwa [ha])]
      refine ⟨fun o => by rw [this]; exact h1 o, ?_⟩
      rw [this, mt, mtr, put_put, h2]
      rfl
    · have : t = m.dispatch k := by rw [e, hc, if_pos (ha.mpr hy)]
      obtain ⟨d1, d2⟩ := m.dispatch_spec k
      rw [this]
      refine ⟨fun o => by rw [d1, mt, h1], ?_⟩
      rw [d2, mt, mtr, put_put, h2]
      rfl

/-- No ready order: an IDLE trip is not formed again (R159). -/
theorem State.reformTrip_nil (s : State) (k : TripHandle) (h : s.readyList = []) : s.reformTrip k = s := by
  simp [State.reformTrip, h]

/-- The oldest ready order gives a trip its field, and the orders of that field join (R159). -/
theorem State.reformTrip_cons (s : State) (k : TripHandle) {first : OrderHandle} {more : List OrderHandle} {y : Order}
    (h : s.readyList = first :: more) (hy : s.order first = some y) :
    let members := (s.readyList.filter fun o => (s.order o).any fun z => z.field == y.field).take 6
    s.reformTrip k = State.joinTrip
      { s with
        trips := put s.trips k { state := .gathering, field := some y.field, orders := [], timer := none }
        readyList := s.readyList.filter fun o => !members.contains o } k members := by
  intro members
  simp only [State.reformTrip, h, hy]
  rw [← h]
  rfl

/-- An order leaves its trip: emptied, kept or filled up from the ready list (R159, R164, R169). -/
theorem State.leaveTrip_spec (s : State) (k : TripHandle) (o : OrderHandle) :
    let ready (f : FieldNo) (n : Nat) : List OrderHandle :=
      (s.readyList.filter fun o => (s.order o).any fun y => y.field == f).take n
    let x := s.trip k
    let rest := x.orders.erase o
    let left := { s with trips := put s.trips k { x with orders := rest } }
    (rest = [] → s.leaveTrip k o = State.reformTrip { s with trips := put s.trips k {} } k) ∧
    (rest ≠ [] → x.state ≠ .gathering → x.state ≠ .fieldHold → s.leaveTrip k o = left) ∧
    (∀ f, rest ≠ [] → x.state = .gathering ∨ x.state = .fieldHold → x.field = some f →
      let more := ready f (6 - rest.length)
      s.leaveTrip k o = State.joinTrip
        { left with readyList := s.readyList.filter fun o => !more.contains o } k more) := by
  intro ready x rest left
  refine ⟨fun h => ?_, fun h h1 h2 => ?_, fun f h h1 hf => ?_⟩
  · have : rest.isEmpty = true := by simpa using h
    simp only [State.leaveTrip, rest, x] at *
    rw [if_pos this]; rfl
  · have : rest.isEmpty = false := by simpa using h
    have h3 : (x.state == .fieldHold || x.state == .gathering) = false := by simp [h1, h2]
    simp only [State.leaveTrip, rest, x] at *
    rw [if_neg (by simp [this]), if_neg (by simp [h3])]; rfl
  · have : rest.isEmpty = false := by simpa using h
    have h3 : (x.state == .fieldHold || x.state == .gathering) = true := by rcases h1 with h | h <;> simp [h]
    intro more
    have hl : s.leaveTrip k o = left.refillTrip k := by
      simp only [State.leaveTrip, rest, x] at *
      rw [if_neg (by simp [this]), if_pos (by simp [h3])]; rfl
    have ht : left.trip k = { x with orders := rest } := by simp [left, State.trip]
    rw [hl]
    simp only [State.refillTrip, ht, hf]
    rfl

/-! ### HOLD, due marks, retirement and cancellation -/

/-- The entry of a car marked touched, with TOUCHED raised, where there is a car (R40). -/
theorem State.touchCar_eq (s : State) (car : Option CarHandle) :
    s.touchCar car = { s with
      entries := match car with
        | none => s.entries
        | some h => put s.entries h { s.entry h with touched := true }
      attention :=
        if car = none then s.attention else { s.attention with causes := s.attention.causes ||| 0x100#10 } } := by
  cases car <;> rfl

/-- ORDER raised with a note, or its overflow mark (R181). -/
theorem State.raiseOrder_eq (s : State) (o : OrderHandle) (k : NoteKind) :
    s.raiseOrder o k =
        { s with
          attention :=
            { s.attention with
              causes := s.attention.causes ||| 0x40#10
              notes := if s.attention.notes.length < 8 then s.attention.notes ++ [(o, k)] else s.attention.notes
              overflow := if s.attention.notes.length < 8 then s.attention.overflow else true } } := by
  simp only [State.raiseOrder, Attention.withCause]
  by_cases h : s.attention.notes.length < 8
  · simp only [h, if_true]; rfl
  · simp only [h, if_false]; rfl

/-- HOLD evaluated, and KITCHEN raised at a change (R148). -/
theorem State.evaluateHold_eq (s : State) :
    let full := ∃ n, (s.station n).xoff ≤ (s.station n).queue.length
    let slack := ∀ n, (s.station n).queue.length ≤ (s.station n).xon
    let hold : Bool := if full then true else if slack then false else s.hold
    s.evaluateHold = { s with
      hold := hold
      attention :=
        if hold = s.hold then s.attention else { s.attention with causes := s.attention.causes ||| 0x80#10 } } := by
  intro full slack hold
  have hf : s.anyAtXoff = true ↔ full := by
    simp only [State.anyAtXoff, List.any_eq_true, List.mem_finRange, true_and]
    exact exists_congr fun _ => decide_eq_true_iff
  have hs : s.allAtXon = true ↔ slack := by
    simp only [State.allAtXon, List.all_eq_true, List.mem_finRange, true_imp_iff]
    exact forall_congr' fun _ => decide_eq_true_iff
  have hh : (if s.anyAtXoff then true else if s.allAtXon then false else s.hold) = hold := by
    simp only [hold, ← hf, ← hs]
  simp only [State.evaluateHold, hh]
  by_cases e : hold = s.hold
  · simp only [e, beq_self_eq_true, if_true]
  · rw [if_neg (by simpa using e)]; simp only [e, if_false]; rfl

/-- What a due check marks. -/
theorem State.markDue_spec (s : State) (which : Order → Bool) :
    let t := s.markDue which
    let falls (ord : Order) : Prop :=
      which ord = true ∧ ord.stage = .parked ∧ ord.due = false ∧ (s.program ord.field).isDue ord.mode = true
    t = { s with orders := t.orders } ∧
    ∀ o,
      (∀ ord, s.order o = some ord → o ∈ s.parked → falls ord → t.order o = some { ord with due := true }) ∧
      ((∀ ord, s.order o = some ord → o ∈ s.parked → ¬ falls ord) → t.order o = s.order o) := by
  intro t falls
  let g (ord : Order) : Order := if which ord && s.fallsDue ord then { ord with due := true } else ord
  have idem (x : Order) : g (g x) = g x := by
    by_cases h : (which x && s.fallsDue x) = true
    · have : g x = { x with due := true } := if_pos h
      rw [this]; simp [g, State.fallsDue]
    · have : g x = x := if_neg h
      rw [this, this]
  have walk (os : List OrderHandle) : ∀ acc : State, acc.programs = s.programs →
      (acc.forEach os fun o acc => match acc.order o with
        | some ord => if which ord && acc.fallsDue ord then acc.setOrder o (some { ord with due := true }) else acc
        | none => acc) = acc.forEach os fun o acc => acc.modOrder o g := by
    induction os with
    | nil => intro _ _; rfl
    | cons o rest ih =>
      intro acc ha
      have hstep : (match acc.order o with
          | some ord => if which ord && acc.fallsDue ord then acc.setOrder o (some { ord with due := true }) else acc
          | none => acc) = acc.modOrder o g := by
        have hself : acc.setOrder o (acc.order o) = acc := by simp [State.setOrder, State.order, put_look]
        cases ho : acc.order o with
        | none => simp only [State.modOrder, ho, Option.map_none]; rw [← ho, hself]
        | some ord =>
          have hd : acc.fallsDue ord = s.fallsDue ord := by simp only [State.fallsDue, State.program, ha]
          simp only [State.modOrder, ho, Option.map_some, hd, g]
          split
          · rfl
          · rw [← ho, hself]
      exact (congrArg (fun x : State => x.forEach rest _) hstep).trans (ih _ ha)
  have hw : t = s.forEach s.parked fun o acc => acc.modOrder o g := walk s.parked s rfl
  obtain ⟨h1, h2⟩ := s.forEach_modOrder s.parked g idem
  have hfalls (ord : Order) : (which ord && s.fallsDue ord) = true ↔ falls ord := by
    simp [falls, State.fallsDue, and_assoc]
  rw [hw]
  refine ⟨h2, fun o => ⟨fun ord ho hp hf => ?_, fun h => ?_⟩⟩
  · rw [h1, if_pos hp, ho]; simp only [Option.map_some, g, (hfalls ord).mpr hf, if_true]
  · rw [h1]
    split
    · cases ho : s.order o with
      | none => rfl
      | some ord => simp only [Option.map_some, g, if_neg (mt (hfalls ord).mp (h ord ho ‹_›))]
    · rfl

/-- What follows a fall in a backlog, and what follows new thresholds, by HOLD before and after (R140, R149). -/
theorem State.afterFall_spec (s : State) :
    let full := ∃ n, (s.station n).xoff ≤ (s.station n).queue.length
    let slack := ∀ n, (s.station n).queue.length ≤ (s.station n).xon
    let hold : Bool := if full then true else if slack then false else s.hold
    let held : State := { s with
      hold := hold
      attention :=
        if hold = s.hold then s.attention else { s.attention with causes := s.attention.causes ||| 0x80#10 } }
    (s.hold = false ∨ hold = true → s.afterFall = held.releasePass ∧ s.afterThresholds = held) ∧
    (s.hold = true → hold = false →
      s.afterFall = (held.markDue fun _ => true).releasePass ∧
        s.afterThresholds = (held.markDue fun _ => true).releasePass) := by
  intro full slack hold held
  have e : s.evaluateHold = held := s.evaluateHold_eq
  have hh : held.hold = hold := rfl
  refine ⟨fun h => ?_, fun h1 h2 => ?_⟩
  · have hc : (s.hold && !held.hold) = false := by rw [hh]; rcases h with h | h <;> simp [h]
    have e2 : s.evaluateHoldAndDue = held := by simp [State.evaluateHoldAndDue, e, hc]
    simp [State.afterFall, State.afterThresholds, e2, hc]
  · have hc : (s.hold && !held.hold) = true := by rw [hh, h1, h2]; rfl
    have e2 : s.evaluateHoldAndDue = held.markDue fun _ => true := by simp [State.evaluateHoldAndDue, e, hc]
    have e3 : (held.markDue fun _ => true).hold = held.hold := by simp
    simp only [State.afterFall, State.afterThresholds, e2, e3, hc, if_true, and_self]

/-- The retirement of an order (R151). -/
theorem State.retireOrder_spec (s : State) (o : OrderHandle) (ord : Order) (ho : s.order o = some ord) :
    let untold : State := { s with
      parked := s.parked.erase o, readyList := s.readyList.erase o
      stations := Vector.ofFn fun n =>
        { s.station n with queue := (s.station n).queue.filter fun e => !(e.1 == o) } }
    let offTrip : State := match ord.trip with
      | none => untold
      | some k => untold.leaveTrip k o
    let freed : State := { offTrip with
      orders := put offTrip.orders o none
      entries := match ord.car with
        | none => s.entries
        | some h => put s.entries h
          { s.entry h with car := (s.car h).map fun c => { c with orders := c.orders.erase o } } }
    let fell := ∃ n k, (o, k) ∈ (s.station n).queue
    (fell → s.retireOrder o = freed.afterFall) ∧ (¬ fell → s.retireOrder o = freed) := by
  intro untold offTrip freed fell
  have hf : s.anyLine (fun l => l.1 == o) = true ↔ fell := by
    simp [State.anyLine, fell]
  have hw : State.withdrawLines { s with parked := s.parked.erase o, readyList := s.readyList.erase o }
      (fun l => l.1 == o) = untold := State.withdrawLines_eq _ _
  have he : offTrip.entries = s.entries := by
    simp only [offTrip]; cases ord.trip <;> simp [untold]
  have hfr : (offTrip.unlistOrder o ord.car).setOrder o none = freed := by
    simp only [freed]
    cases hc : ord.car with
    | none => simp only [State.unlistOrder, State.setOrder, ← he]
    | some h =>
      simp only [State.unlistOrder, State.modCar, State.setCar, State.setEntry, State.setOrder, State.entry, State.car, he]
  have e : s.retireOrder o = if s.anyLine (fun l => l.1 == o) = true then freed.afterFall else freed := by
    rw [← hfr]
    simp only [State.retireOrder, ho, hw]
    all_goals rfl
  rw [e]
  exact ⟨fun h => if_pos (hf.mpr h), fun h => if_neg (by rwa [hf])⟩

/-- Some queue holds a line that the test picks out. -/
theorem State.anyLine_iff (s : State) (p : OrderHandle × Nat → Bool) :
    s.anyLine p = true ↔ ∃ n o k, (o, k) ∈ (s.station n).queue ∧ p (o, k) = true := by
  simp [State.anyLine]

/-- A cancel that settles: counted with its waste, noted, its car touched, the order retired (R146). -/
theorem State.settleCancel_eq (s : State) (o : OrderHandle) (ord : Order) :
    s.settleCancel o ord = State.retireOrder
      { s with
        tallies := put
          (put s.tallies (Tally.kitchen .cancelled).index (min 65535 (s.tally (.kitchen .cancelled) + 1)))
          (Tally.kitchen .wasteLines).index (min 65535 (s.tally (.kitchen .wasteLines) +
            ((ord.lines.filter fun x => x.state == .finished).map OrderLine.quantity).sum))
        entries := match ord.car with
          | none => s.entries
          | some h => put s.entries h { s.entry h with touched := true }
        attention :=
          let noted := { s.attention with
            causes := s.attention.causes ||| 0x40#10
            notes :=
              if s.attention.notes.length < 8 then s.attention.notes ++ [(o, .cancelSettled)] else s.attention.notes
            overflow := if s.attention.notes.length < 8 then s.attention.overflow else true }
          if ord.car = none then noted else { noted with causes := noted.causes ||| 0x100#10 } } o := by
  have h : Tally.index (.kitchen .cancelled) ≠ Tally.index (.kitchen .wasteLines) := by decide
  simp only [State.settleCancel, State.touchCar_eq, State.raiseOrder_eq, State.count, State.tally, Order.waste]
  rw [look_put_ne _ _ h]
  rfl

/-- The cancellation of an order by its stage (R167, R168, R169). -/
theorem State.cancelAtStage_spec (s : State) (o : OrderHandle) (ord : Order) :
    let t := s.cancelAtStage o ord
    let pending := { ord with cancelPending := true }
    let bank : Vector Nat 64 :=
      put s.tallies (Tally.kitchen .cancelled).index (min 65535 (s.tally (.kitchen .cancelled) + 1))
    let wasted (n : Nat) : Vector Nat 64 :=
      put bank (Tally.kitchen .wasteLines).index (min 65535 (s.tally (.kitchen .wasteLines) + n))
    let noted : Attention := { s.attention with
      causes := s.attention.causes ||| 0x40#10
      notes :=
        if s.attention.notes.length < 8 then s.attention.notes ++ [(o, .cancelSettled)] else s.attention.notes
      overflow := if s.attention.notes.length < 8 then s.attention.overflow else true }
    let told (b : State) (tallies : Vector Nat 64) (a : Attention) : State := { b with
      tallies := tallies
      entries := match ord.car with
        | none => s.entries
        | some h => put s.entries h { s.entry h with touched := true }
      attention := if ord.car = none then a else { a with causes := a.causes ||| 0x100#10 } }
    let waits (e : OrderHandle × Nat) : Bool :=
      e.1 == o && ord.lines[e.2]?.map OrderLine.state == some .waiting
    let withdrawn : State := { s with
      stations := Vector.ofFn fun n => { s.station n with queue := (s.station n).queue.filter fun e => !waits e }
      orders := put s.orders o (some { pending with timer := none }) }
    let settled : State :=
      (told withdrawn (wasted ((ord.lines.filter fun l => l.state == .finished).map OrderLine.quantity).sum)
        noted).retireOrder o
    let onStove := ∃ n k, (o, k) ∈ (s.station n).queue ∧ waits (o, k) = false
    let fell := ∃ n k, (o, k) ∈ (s.station n).queue ∧ waits (o, k) = true
    (ord.stage = .parked ∨ ord.stage = .queued → t = (told s bank s.attention).retireOrder o) ∧
    (ord.stage = .ready →
      t = (told s (wasted (ord.lines.map OrderLine.quantity).sum) s.attention).retireOrder o) ∧
    (ord.stage = .onTrip → t = { s with orders := put s.orders o (some pending) }) ∧
    (ord.stage = .preparing → onStove → fell → t = withdrawn.afterFall) ∧
    (ord.stage = .preparing → onStove → ¬ fell → t = withdrawn) ∧
    (ord.stage = .preparing → ¬ onStove → fell → t = settled.afterFall) ∧
    (ord.stage = .preparing → ¬ onStove → ¬ fell → t = settled) := by
  intro t pending bank wasted noted told waits withdrawn settled onStove fell
  have hne : Tally.index (.kitchen .cancelled) ≠ Tally.index (.kitchen .wasteLines) := by decide
  have h1 : ((s.count (.kitchen .cancelled)).touchCar ord.car) = told s bank s.attention := by
    rw [State.touchCar_eq]; rfl
  have h2 (n : Nat) : (((s.count (.kitchen .cancelled)).count (.kitchen .wasteLines) n).touchCar ord.car) =
      told s (wasted n) s.attention := by
    rw [State.touchCar_eq]
    simp only [State.count, State.tally]
    rw [look_put_ne _ _ hne]
    rfl
  have hw : (s.withdrawLines waits).setOrder o (some { pending with timer := none }) = withdrawn := by
    rw [State.withdrawLines_eq]; rfl
  have hin : withdrawn.inQueues o = true ↔ onStove := by
    rw [State.inQueues, State.anyLine_iff]
    constructor
    · rintro ⟨n, o', k, hm, he⟩
      have : o' = o := by simpa using he
      subst this
      refine ⟨n, k, ?_⟩
      simpa [withdrawn, State.station, look] using hm
    · rintro ⟨n, k, hm, hk⟩
      refine ⟨n, o, k, ?_, by simp⟩
      simpa [withdrawn, State.station, look] using ⟨hm, hk⟩
  have hfell : s.anyLine waits = true ↔ fell := by
    rw [State.anyLine_iff]
    constructor
    · rintro ⟨n, o', k, hm, he⟩
      have : o' = o := by simp only [waits, Bool.and_eq_true, beq_iff_eq] at he; exact he.1
      subst this
      exact ⟨n, k, hm, he⟩
    · rintro ⟨n, k, hm, he⟩; exact ⟨n, o, k, hm, he⟩
  have hfin : withdrawn.finishOrder o = settled := by
    have : withdrawn.order o = some { pending with timer := none } := by simp [withdrawn, State.order]
    simp only [State.finishOrder, this]
    rw [if_pos rfl, State.settleCancel_eq]
    rfl
  have hp : ord.stage = .preparing → t = if s.anyLine waits then
      (if withdrawn.inQueues o then withdrawn else settled).afterFall
      else if withdrawn.inQueues o then withdrawn else settled := by
    intro h
    have e : t = s.cancelPreparing o ord := by simp only [t, State.cancelAtStage, h]
    rw [e, ← hfin, ← hw]
    rfl
  refine ⟨?_, ?_, ?_, ?_, ?_, ?_, ?_⟩
  · rintro (h | h) <;> simp only [t, State.cancelAtStage, h, h1]
  · intro h; simp only [t, State.cancelAtStage, h, h2, Order.quantities]
  · intro h
    have e : t = s.setOrder o (some pending) := by simp only [t, State.cancelAtStage, pending, h]
    rw [e]; rfl
  · intro h a b; rw [hp h, if_pos (hfell.mpr b), if_pos (hin.mpr a)]
  · intro h a b; rw [hp h, if_neg (mt hfell.mp b), if_pos (hin.mpr a)]
  · intro h a b; rw [hp h, if_pos (hfell.mpr b), if_neg (mt hin.mp a)]
  · intro h a b; rw [hp h, if_neg (mt hfell.mp b), if_neg (mt hin.mp a)]
end Sys2Proof.Machine
end

