-- ==== Sys2Proof/Laws/PerInstr.lean ====
section
/-! SUPPORT. Per instruction: the frame of a well-formed command is made of bytes (R187, R188). -/

namespace Sys2Proof.Laws.FrameBytes

/-- Every number in the frame of a well-formed command is a byte. -/
def Statement (i : Instr) : Prop := i.wellFormed = true → ∀ b ∈ i.frame, b < 256

/-- The bytes of well-formed lines are bytes. -/
theorem lines_bytes (ls : List LineArg)
    (h : ls.all (fun l => isByte l.item && isByte l.quantity && isByte l.station) = true) :
    ∀ b ∈ bytesOfLines ls, b < 256 := by
  intro b hb
  simp only [bytesOfLines, List.mem_flatMap] at hb
  obtain ⟨l, hl, hb⟩ := hb
  have := List.all_eq_true.mp h l hl
  simp [isByte] at this
  simp at hb
  omega

theorem configureField (field rows posts tall accessible channel signOn signOff : Nat) :
    Statement (.configureField field rows posts tall accessible channel signOn signOff) := by
  intro h b hb
  delta Instr.wellFormed at h
  simp [isByte] at h
  delta Instr.frame at hb
  simp [frameOf] at hb
  omega

theorem closeRows (field mask : Nat) : Statement (.closeRows field mask) := by
  intro h b hb
  delta Instr.wellFormed at h
  simp [isByte, isWord] at h
  delta Instr.frame at hb
  simp [frameOf, be2] at hb
  omega

theorem openRows (field mask : Nat) : Statement (.openRows field mask) := by
  intro h b hb
  delta Instr.wellFormed at h
  simp [isByte, isWord] at h
  delta Instr.frame at hb
  simp [frameOf, be2] at hb
  omega

theorem readField (field row : Nat) : Statement (.readField field row) := by
  intro h b hb
  delta Instr.wellFormed at h
  simp [isByte] at h
  delta Instr.frame at hb
  simp [frameOf] at hb
  omega

theorem configureTimebase (field window gain jump holdover reacquire : Nat) :
    Statement (.configureTimebase field window gain jump holdover reacquire) := by
  intro h b hb
  delta Instr.wellFormed at h
  simp [isByte, isWord] at h
  delta Instr.frame at hb
  simp [frameOf, be2] at hb
  omega

theorem readTimebase (field : Nat) : Statement (.readTimebase field) := by
  intro h b hb
  delta Instr.wellFormed at h
  simp [isByte] at h
  delta Instr.frame at hb
  simp [frameOf] at hb
  omega

theorem beginProgram (field ns cutoffSegment cutoffFrames leadGiven lead openCues endCues : Nat) :
    Statement (.beginProgram field ns cutoffSegment cutoffFrames leadGiven lead openCues endCues) := by
  intro h b hb
  delta Instr.wellFormed at h
  simp [isByte, isWord, isThree] at h
  delta Instr.frame at hb
  simp [frameOf, be2, be3] at hb
  omega

theorem addSegment (field kind length title cues runners : Nat) :
    Statement (.addSegment field kind length title cues runners) := by
  intro h b hb
  delta Instr.wellFormed at h
  simp [isByte, isThree] at h
  delta Instr.frame at hb
  simp [frameOf, be3] at hb
  omega

theorem openField (field : Nat) : Statement (.openField field) := by
  intro h b hb
  delta Instr.wellFormed at h
  simp [isByte] at h
  delta Instr.frame at hb
  simp [frameOf] at hb
  omega

theorem startShow (field : Nat) : Statement (.startShow field) := by
  intro h b hb
  delta Instr.wellFormed at h
  simp [isByte] at h
  delta Instr.frame at hb
  simp [frameOf] at hb
  omega

theorem pauseShow (field : Nat) : Statement (.pauseShow field) := by
  intro h b hb
  delta Instr.wellFormed at h
  simp [isByte] at h
  delta Instr.frame at hb
  simp [frameOf] at hb
  omega

theorem resumeShow (field : Nat) : Statement (.resumeShow field) := by
  intro h b hb
  delta Instr.wellFormed at h
  simp [isByte] at h
  delta Instr.frame at hb
  simp [frameOf] at hb
  omega

theorem skipSegment (field : Nat) : Statement (.skipSegment field) := by
  intro h b hb
  delta Instr.wellFormed at h
  simp [isByte] at h
  delta Instr.frame at hb
  simp [frameOf] at hb
  omega

theorem endShow (field : Nat) : Statement (.endShow field) := by
  intro h b hb
  delta Instr.wellFormed at h
  simp [isByte] at h
  delta Instr.frame at hb
  simp [frameOf] at hb
  omega

theorem closeField (field force : Nat) : Statement (.closeField field force) := by
  intro h b hb
  delta Instr.wellFormed at h
  simp [isByte] at h
  delta Instr.frame at hb
  simp [frameOf] at hb
  omega

theorem readProgram (field segment : Nat) : Statement (.readProgram field segment) := by
  intro h b hb
  delta Instr.wellFormed at h
  simp [isByte] at h
  delta Instr.frame at hb
  simp [frameOf] at hb
  omega

theorem admitCar (lane field cls party ticket : Nat) (plate : List Nat) (named : Option (Nat × Nat)) :
    Statement (.admitCar lane field cls party ticket plate named) := by
  intro h b hb
  delta Instr.wellFormed at h
  delta Instr.frame at hb
  rcases named with _ | ⟨row, post⟩ <;>
    · simp [isByte, isNibble, isFour] at h
      simp [frameOf, be4, be6] at hb
      omega

theorem refuse (lane : Nat) : Statement (.refuse lane) := by
  intro h b hb
  delta Instr.wellFormed at h
  simp [isByte] at h
  delta Instr.frame at hb
  simp [frameOf] at hb
  omega

theorem depart (lane car : Nat) : Statement (.depart lane car) := by
  intro h b hb
  delta Instr.wellFormed at h
  simp [isByte, isWord] at h
  delta Instr.frame at hb
  simp [frameOf, be2] at hb
  omega

theorem letOut (lane : Nat) : Statement (.letOut lane) := by
  intro h b hb
  delta Instr.wellFormed at h
  simp [isByte] at h
  delta Instr.frame at hb
  simp [frameOf] at hb
  omega

theorem readLane (lane : Nat) : Statement (.readLane lane) := by
  intro h b hb
  delta Instr.wellFormed at h
  simp [isByte] at h
  delta Instr.frame at hb
  simp [frameOf] at hb
  omega

theorem configureLanes (mask passTime : Nat) : Statement (.configureLanes mask passTime) := by
  intro h b hb
  delta Instr.wellFormed at h
  simp [isByte] at h
  delta Instr.frame at hb
  simp [frameOf] at hb
  omega

theorem readEntry (car : Nat) : Statement (.readEntry car) := by
  intro h b hb
  delta Instr.wellFormed at h
  simp [isWord] at h
  delta Instr.frame at hb
  simp [frameOf, be2] at hb
  omega

theorem lookupTicket (ticket : Nat) : Statement (.lookupTicket ticket) := by
  intro h b hb
  delta Instr.wellFormed at h
  simp [isFour] at h
  delta Instr.frame at hb
  simp [frameOf, be4] at hb
  omega

theorem lookupPlate (plate : List Nat) : Statement (.lookupPlate plate) := by
  intro _ b hb
  delta Instr.frame at hb
  simp [frameOf, be6] at hb
  omega

theorem lookupStall (field row post : Nat) : Statement (.lookupStall field row post) := by
  intro h b hb
  delta Instr.wellFormed at h
  simp [isByte] at h
  delta Instr.frame at hb
  simp [frameOf] at hb
  omega

theorem holdEntry (car : Nat) : Statement (.holdEntry car) := by
  intro h b hb
  delta Instr.wellFormed at h
  simp [isWord] at h
  delta Instr.frame at hb
  simp [frameOf, be2] at hb
  omega

theorem moveEntry (car target row post : Nat) : Statement (.moveEntry car target row post) := by
  intro h b hb
  delta Instr.wellFormed at h
  simp [isByte, isWord] at h
  delta Instr.frame at hb
  simp [frameOf, be2] at hb
  omega

theorem amendEntry (car flags : Nat) (plate : List Nat) (cls party : Nat) :
    Statement (.amendEntry car flags plate cls party) := by
  intro h b hb
  delta Instr.wellFormed at h
  simp [isByte, isWord] at h
  delta Instr.frame at hb
  simp [frameOf, be2, be6] at hb
  omega

theorem releaseEntry (car : Nat) : Statement (.releaseEntry car) := by
  intro h b hb
  delta Instr.wellFormed at h
  simp [isWord] at h
  delta Instr.frame at hb
  simp [frameOf, be2] at hb
  omega

theorem retireEntry (car force : Nat) : Statement (.retireEntry car force) := by
  intro h b hb
  delta Instr.wellFormed at h
  simp [isByte, isWord] at h
  delta Instr.frame at hb
  simp [frameOf, be2] at hb
  omega

theorem enrolSet (serial : Nat) : Statement (.enrolSet serial) := by
  intro h b hb
  delta Instr.wellFormed at h
  simp [isSix] at h
  delta Instr.frame at hb
  simp [frameOf, be6] at hb
  omega

theorem removeSet (slot : Nat) : Statement (.removeSet slot) := by
  intro h b hb
  delta Instr.wellFormed at h
  simp [isByte] at h
  delta Instr.frame at hb
  simp [frameOf] at hb
  omega

theorem lendSet (car : Nat) : Statement (.lendSet car) := by
  intro h b hb
  delta Instr.wellFormed at h
  simp [isWord] at h
  delta Instr.frame at hb
  simp [frameOf, be2] at hb
  omega

theorem dockIn (bay serial charge : Nat) : Statement (.dockIn bay serial charge) := by
  intro h b hb
  delta Instr.wellFormed at h
  simp [isByte, isSix] at h
  delta Instr.frame at hb
  simp [frameOf, be6] at hb
  omega

theorem dockOut (bay : Nat) : Statement (.dockOut bay) := by
  intro h b hb
  delta Instr.wellFormed at h
  simp [isByte] at h
  delta Instr.frame at hb
  simp [frameOf] at hb
  omega

theorem charge (bay level : Nat) : Statement (.charge bay level) := by
  intro h b hb
  delta Instr.wellFormed at h
  simp [isByte] at h
  delta Instr.frame at hb
  simp [frameOf] at hb
  omega

theorem setFault (bay : Nat) : Statement (.setFault bay) := by
  intro h b hb
  delta Instr.wellFormed at h
  simp [isByte] at h
  delta Instr.frame at hb
  simp [frameOf] at hb
  omega

theorem serviceSet (slot : Nat) : Statement (.serviceSet slot) := by
  intro h b hb
  delta Instr.wellFormed at h
  simp [isByte] at h
  delta Instr.frame at hb
  simp [frameOf] at hb
  omega

theorem readSet (selector number : Nat) : Statement (.readSet selector number) := by
  intro h b hb
  delta Instr.wellFormed at h
  simp [isByte] at h
  delta Instr.frame at hb
  simp [frameOf] at hb
  omega

theorem configureSets (readyLevel issueTime : Nat) : Statement (.configureSets readyLevel issueTime) := by
  intro h b hb
  delta Instr.wellFormed at h
  simp [isByte] at h
  delta Instr.frame at hb
  simp [frameOf] at hb
  omega

theorem placeOrder (car mode count : Nat) (lines : List LineArg) : Statement (.placeOrder car mode count lines) := by
  intro h b hb
  delta Instr.wellFormed at h
  simp only [Bool.and_eq_true] at h
  have hl := lines_bytes lines h.2
  simp [isByte, isWord] at h
  delta Instr.frame at hb
  simp only [frameOf, be2, List.cons_append, List.nil_append, List.mem_cons, List.length_cons] at hb
  have : (bytesOfLines lines).length = 3 * lines.length := by
    simp [bytesOfLines, Nat.mul_comm]
  rcases hb with rfl | rfl | rfl | rfl | rfl | rfl | hb
  all_goals first | omega | exact hl b hb

theorem cancelOrder (order : Nat) : Statement (.cancelOrder order) := by
  intro h b hb
  delta Instr.wellFormed at h
  simp [isByte] at h
  delta Instr.frame at hb
  simp [frameOf] at hb
  omega

theorem stationNext (station : Nat) : Statement (.stationNext station) := by
  intro h b hb
  delta Instr.wellFormed at h
  simp [isByte] at h
  delta Instr.frame at hb
  simp [frameOf] at hb
  omega

theorem lineDone (order line : Nat) : Statement (.lineDone order line) := by
  intro h b hb
  delta Instr.wellFormed at h
  simp [isByte] at h
  delta Instr.frame at hb
  simp [frameOf] at hb
  omega

theorem readOrder (order : Nat) : Statement (.readOrder order) := by
  intro h b hb
  delta Instr.wellFormed at h
  simp [isByte] at h
  delta Instr.frame at hb
  simp [frameOf] at hb
  omega

theorem readTrip (trip : Nat) : Statement (.readTrip trip) := by
  intro h b hb
  delta Instr.wellFormed at h
  simp [isByte] at h
  delta Instr.frame at hb
  simp [frameOf] at hb
  omega

theorem tripReport (order outcome : Nat) : Statement (.tripReport order outcome) := by
  intro h b hb
  delta Instr.wellFormed at h
  simp [isByte] at h
  delta Instr.frame at hb
  simp [frameOf] at hb
  omega

theorem recallTrip (trip : Nat) : Statement (.recallTrip trip) := by
  intro h b hb
  delta Instr.wellFormed at h
  simp [isByte] at h
  delta Instr.frame at hb
  simp [frameOf] at hb
  omega

theorem configureKitchen (mask xoff xon prepLimit : Nat) : Statement (.configureKitchen mask xoff xon prepLimit) := by
  intro h b hb
  delta Instr.wellFormed at h
  simp [isByte] at h
  delta Instr.frame at hb
  simp [frameOf] at hb
  omega

theorem readKitchen : Statement (.readKitchen) := by
  intro _ b hb
  delta Instr.frame at hb
  simp [frameOf] at hb
  omega

theorem configureTrips (window : Nat) : Statement (.configureTrips window) := by
  intro h b hb
  delta Instr.wellFormed at h
  simp [isByte] at h
  delta Instr.frame at hb
  simp [frameOf] at hb
  omega

theorem readStatus (clocked : Nat) : Statement (.readStatus clocked) := by
  intro _ _ hb
  delta Instr.frame at hb
  simp at hb

theorem fetchReply (clocked : Nat) : Statement (.fetchReply clocked) := by
  intro _ _ hb
  delta Instr.frame at hb
  simp at hb

theorem readCauses : Statement (.readCauses) := by
  intro _ b hb
  delta Instr.frame at hb
  simp [frameOf] at hb
  omega

theorem readTouched : Statement (.readTouched) := by
  intro _ b hb
  delta Instr.frame at hb
  simp [frameOf] at hb
  omega

theorem identify : Statement (.identify) := by
  intro _ b hb
  delta Instr.frame at hb
  simp [frameOf] at hb
  omega

theorem closeDay : Statement (.closeDay) := by
  intro _ b hb
  delta Instr.frame at hb
  simp [frameOf] at hb
  omega

theorem clearCauses (word : Nat) : Statement (.clearCauses word) := by
  intro h b hb
  delta Instr.wellFormed at h
  simp [isWord] at h
  delta Instr.frame at hb
  simp [frameOf, be2] at hb
  omega

theorem setCauseMask (word : Nat) : Statement (.setCauseMask word) := by
  intro h b hb
  delta Instr.wellFormed at h
  simp [isWord] at h
  delta Instr.frame at hb
  simp [frameOf, be2] at hb
  omega

theorem readTallies (group : Nat) : Statement (.readTallies group) := by
  intro h b hb
  delta Instr.wellFormed at h
  simp [isByte] at h
  delta Instr.frame at hb
  simp [frameOf] at hb
  omega

theorem unknownCommand (code : Nat) (args : List Nat) : Statement (.unknownCommand code args) := by
  intro h b hb
  delta Instr.wellFormed at h
  simp [isUnknownCode, isByte, areBytes] at h
  delta Instr.frame at hb
  simp only [frameOf, List.mem_cons] at hb
  rcases hb with rfl | rfl | hb
  · omega
  · omega
  · exact h.1.2 b hb

theorem commandFrameJudged (bytes : List Nat) (after : PeriodEnd) : Statement (.commandFrameJudged bytes after) := by
  intro _ _ hb
  delta Instr.frame at hb
  simp at hb

theorem partReset (part : ResetPart) : Statement (.partReset part) := by
  intro _ _ hb
  delta Instr.frame at hb
  simp at hb

theorem loopRawChange (lane : LaneNo) (loop : Loop) (level : LoopLevel) :
    Statement (.loopRawChange lane loop level) := by
  intro _ _ hb
  delta Instr.frame at hb
  simp at hb

theorem arrivalOccupied (lane : LaneNo) : Statement (.arrivalOccupied lane) := by
  intro _ _ hb
  delta Instr.frame at hb
  simp at hb

theorem arrivalCleared (lane : LaneNo) : Statement (.arrivalCleared lane) := by
  intro _ _ hb
  delta Instr.frame at hb
  simp at hb

theorem passOccupied (lane : LaneNo) : Statement (.passOccupied lane) := by
  intro _ _ hb
  delta Instr.frame at hb
  simp at hb

theorem passCleared (lane : LaneNo) : Statement (.passCleared lane) := by
  intro _ _ hb
  delta Instr.frame at hb
  simp at hb

theorem entryPassTimerExpiry (lane : Fin 4) : Statement (.entryPassTimerExpiry lane) := by
  intro _ _ hb
  delta Instr.frame at hb
  simp at hb

theorem exitPassTimerExpiry (lane : Fin 2) : Statement (.exitPassTimerExpiry lane) := by
  intro _ _ hb
  delta Instr.frame at hb
  simp at hb

theorem framePulse (field : FieldNo) : Statement (.framePulse field) := by
  intro _ _ hb
  delta Instr.frame at hb
  simp at hb

theorem pulseOverdue (field : FieldNo) : Statement (.pulseOverdue field) := by
  intro _ _ hb
  delta Instr.frame at hb
  simp at hb

theorem holdoverExpiry (field : FieldNo) : Statement (.holdoverExpiry field) := by
  intro _ _ hb
  delta Instr.frame at hb
  simp at hb

theorem referenceDropped (field : FieldNo) : Statement (.referenceDropped field) := by
  intro _ _ hb
  delta Instr.frame at hb
  simp at hb

theorem wordStrobe (field : FieldNo) : Statement (.wordStrobe field) := by
  intro _ _ hb
  delta Instr.frame at hb
  simp at hb

theorem wordClockFall (field : FieldNo) : Statement (.wordClockFall field) := by
  intro _ _ hb
  delta Instr.frame at hb
  simp at hb

theorem carrierLoss (field : FieldNo) : Statement (.carrierLoss field) := by
  intro _ _ hb
  delta Instr.frame at hb
  simp at hb

theorem carrierRise (field : FieldNo) : Statement (.carrierRise field) := by
  intro _ _ hb
  delta Instr.frame at hb
  simp at hb

theorem issueTimerExpiry (slot : SetHandle) : Statement (.issueTimerExpiry slot) := by
  intro _ _ hb
  delta Instr.frame at hb
  simp at hb

theorem prepTimerExpiry (order : OrderHandle) : Statement (.prepTimerExpiry order) := by
  intro _ _ hb
  delta Instr.frame at hb
  simp at hb

theorem gatherTimerExpiry (trip : TripHandle) : Statement (.gatherTimerExpiry trip) := by
  intro _ _ hb
  delta Instr.frame at hb
  simp at hb

end Sys2Proof.Laws.FrameBytes
end

