-- ==== Sys2Proof/Laws/Port.lean ====
section
/-! SUPPORT. What a command's frame does at the port, once for every command: taken, discarded, set aside; what an edge of
SEL and an edge of SCK change; what stands while RESET is low; that due events are taken in some order; and what the
checks before a command's work let through. -/

namespace Sys2Proof.Machine

variable (s : State)

/-- A command at a free port is worked in the state it finds, and answered (R172, R175). -/
theorem State.command_free {s : State} (h : PortFree s) (i : Instr) (work : State → Answer) :
    s.command i work = (work (s.atWork i)).complete := by
  simp [State.command, State.selectPeriod, State.busy, State.runCommand, State.atWork, h.1, h.2]

/-- A command's frame that ends while BUSY is discarded (R174). -/
theorem State.command_busy {s : State} (h : s.port.taken.isSome = true) (h' : s.port.select = .high) (i : Instr)
    (work : State → Answer) :
    s.command i work = (s.clockStatus i.frame.length).raisePort .busyFrame := by
  simp [State.command, State.selectPeriod, State.busy, h, h']

/-- A select period under way at reset is set aside (R186). -/
theorem State.command_aside {s : State} (h : s.port.select = .aside) (i : Instr) (work : State → Answer) :
    s.command i work = s.setPeriodAside := by
  simp [State.command, State.selectPeriod, h]

/-! ### Select periods, whole and edge by edge (R172 to R174, R177, R186) -/

@[simp] theorem State.selectPeriod_high {s : State} (h : s.port.select = .high) (effect : State → State) :
    s.selectPeriod effect = effect s := by
  simp [State.selectPeriod, h]
@[simp] theorem State.selectPeriod_low {s : State} {p : Period} (h : s.port.select = .low p) (effect : State → State) :
    s.selectPeriod effect = s := by
  simp [State.selectPeriod, h]
@[simp] theorem State.selectPeriod_aside {s : State} (h : s.port.select = .aside) (effect : State → State) :
    s.selectPeriod effect = s.setPeriodAside := by
  simp [State.selectPeriod, h]
@[simp] theorem State.selectPeriod_inReset {s : State} (h : s.port.select = .inReset) (effect : State → State) :
    s.selectPeriod effect = s := by
  simp [State.selectPeriod, h]

/-- A falling edge of SCK moves the select period on, and nothing else (R172). -/
theorem State.dropSck_spec (p : Period) :
    ∃ q, s.dropSck p = { s with port := { s.port with select := .low q } } := ⟨_, rfl⟩

/-- A rising edge of SCK moves the select period and the bytes SDO has carried on, and nothing else (R172). -/
theorem State.raiseSck_spec (p : Period) (sdi : Bool) :
    ∃ q sdo, s.raiseSck p sdi = { s with port := { s.port with select := .low q, sdo := sdo } } := by
  unfold State.raiseSck
  dsimp only
  split
  · exact ⟨_, s.port.sdo, rfl⟩
  · exact ⟨_, _, rfl⟩

/-- An edge of SCK moves a select period under way on, and nothing else; elsewhere it changes nothing (R172, R186). -/
theorem State.clockEdge_spec (edge : SckEdge) :
    ((∀ p, s.port.select ≠ .low p) ∧ s.clockEdge edge = s) ∨
      ∃ p q sdo, s.port.select = .low p ∧
        s.clockEdge edge = { s with port := { s.port with select := .low q, sdo := sdo } } := by
  unfold State.clockEdge
  cases h : s.port.select with
  | low p =>
    refine .inr ⟨p, ?_⟩
    have same : ∃ q sdo, SelectLine.low p = .low p ∧ s = { s with port := { s.port with select := .low q, sdo := sdo } } :=
      ⟨p, s.port.sdo, rfl, by rw [← h]⟩
    cases edge with
    | falls => dsimp only; split; exacts [same, ⟨_, _, rfl, rfl⟩]
    | rises sdi =>
      obtain ⟨q, sdo, e⟩ := s.raiseSck_spec p sdi
      dsimp only; split; exacts [same, ⟨q, sdo, rfl, e⟩]
  | _ => exact .inl ⟨by simp, rfl⟩

/-- Edges of SCK move the select period and the bytes SDO has carried on, and nothing else (R172). -/
theorem State.clockEdges_spec (edges : List SckEdge) :
    ∃ select sdo, s.clockEdges edges = { s with port := { s.port with select := select, sdo := sdo } } := by
  induction edges generalizing s with
  | nil => exact ⟨s.port.select, s.port.sdo, rfl⟩
  | cons e rest ih =>
    obtain ⟨select, sdo, h⟩ := ih (s.clockEdge e)
    rw [show s.clockEdges (e :: rest) = (s.clockEdge e).clockEdges rest from rfl, h]
    obtain ⟨-, h⟩ | ⟨_, q, sdo', -, h⟩ := s.clockEdge_spec e <;> rw [h] <;> exact ⟨_, _, rfl⟩

/-- Edges in two runs are the edges of both in one. -/
theorem State.clockEdges_append (xs ys : List SckEdge) : s.clockEdges (xs ++ ys) = (s.clockEdges xs).clockEdges ys := by
  simp [State.clockEdges]

/-- The fall of SEL begins a period where SEL is high, and is nothing where it is not (R172). -/
theorem State.selFalls_spec :
    (s.port.select = .high ∧
      s.selFalls =
        { s with port :=
          { s.port with select := .low { out := s.statusByte, level := s.statusByte.testBit 7 }, sdo := [] } }) ∨
      (s.port.select ≠ .high ∧ s.selFalls = s) := by
  unfold State.selFalls
  cases h : s.port.select <;> simp

/-- The judging of a frame changes the port, the PORT cause and the counter of free values alone (R174, R175). -/
theorem State.judgeFrame_spec (bytes : List Nat) (off busy : Bool) :
    ∃ port attention n, s.judgeFrame bytes off busy = { s with port := port, attention := attention, freeCount := n } := by
  unfold State.judgeFrame State.takeFrame State.discardReply State.raisePort
  split
  · exact ⟨_, _, _, rfl⟩
  · split
    · exact ⟨_, _, _, rfl⟩
    · dsimp only
      split <;> exact ⟨_, _, _, rfl⟩

/-- The rise of SEL changes the port, the PORT cause and the counter of free values alone (R173, R174, R177). -/
theorem State.selRises_spec (off : Bool) :
    ∃ port attention n, s.selRises off = { s with port := port, attention := attention, freeCount := n } := by
  unfold State.selRises State.setPeriodAside
  split
  · unfold State.endPeriod State.releaseFetched
    split
    · exact ⟨_, _, _, rfl⟩
    · split
      · exact ⟨_, _, _, rfl⟩
      · split
        · split
          · exact ⟨_, _, _, rfl⟩
          · split <;> exact ⟨_, _, _, rfl⟩
        · obtain ⟨port, attention, n, h⟩ := State.judgeFrame_spec _ _ _ _
          exact ⟨port, attention, n, by rw [h]⟩
  all_goals exact ⟨_, _, _, rfl⟩

/-! ### RESET low, and the events due in one cycle (R186, log entry 3) -/

/-- While RESET is low no time passes in the part (R186). -/
theorem State.tick_inReset {s : State} (h : s.port.select = .inReset) : s.tick = s := by
  simp [State.tick, State.inReset, h]

/-- While RESET is low every output line is low (R186). -/
theorem State.lines_inReset {s : State} (h : s.port.select = .inReset) : s.lines = {} := by
  simp [State.lines, State.inReset, h]

/-- The events due in a cycle are taken in some order. -/
theorem settle_takeAll (n : Nat) (due : List Due) (h : n = due.length) :
    ∃ order : List Due, order.Perm due ∧ settle n due s = takeAll order s := by
  induction n generalizing due s with
  | zero =>
    obtain rfl : due = [] := List.length_eq_zero_iff.mp h.symm
    exact ⟨[], List.Perm.refl _, rfl⟩
  | succ n ih =>
    match due, h with
    | [e], _ => exact ⟨[e], List.Perm.refl _, rfl⟩
    | e :: e' :: rest, h =>
      let k := Config.eventChoice s.freeCount % (e :: e' :: rest).length
      have hk : k < (e :: e' :: rest).length := Nat.mod_lt _ (by simp)
      have hl : ((e :: e' :: rest).eraseIdx k).length = rest.length + 1 := by
        rw [List.length_eraseIdx_of_lt hk]; rfl
      obtain ⟨order, perm, last⟩ := ih (({ s with freeCount := s.freeCount + 1 } : State).takeIfDue
        ((e :: e' :: rest).getD k e)) ((e :: e' :: rest).eraseIdx k) (by simp at h; omega)
      refine ⟨(e :: e' :: rest).getD k e :: order, ?_, ?_⟩
      · rw [List.getD_eq_getElem _ _ hk]
        exact (perm.cons _).trans (List.getElem_cons_eraseIdx_perm hk)
      · match order, perm.length_eq.trans hl, last with
        | x :: y, _, last => simp only [takeAll]; rw [← last]; rfl

/-! ### Answers and checks -/

@[simp] theorem Answer.complete_ok (bytes : List Nat) : (s.ok bytes).complete = s.answered .ok bytes := rfl
@[simp] theorem Answer.complete_deny (code : ResultCode) : (s.deny code).complete = s.answered code [] := rfl

@[simp] theorem firstFailure_nil : firstFailure [] = none := rfl
@[simp] theorem firstFailure_true (code : ResultCode) (rest : List (Bool × ResultCode)) :
    firstFailure ((true, code) :: rest) = firstFailure rest := rfl
@[simp] theorem firstFailure_false (code : ResultCode) (rest : List (Bool × ResultCode)) :
    firstFailure ((false, code) :: rest) = some code := rfl

/-- Checks that all hold let the work through. -/
theorem State.checked_of_none {checks : List (Bool × ResultCode)} (h : firstFailure checks = none) (work : Answer) :
    s.checked checks work = work := by
  simp [State.checked, h]

/-- The first check that fails answers. -/
theorem State.checked_of_some {checks : List (Bool × ResultCode)} {code : ResultCode}
    (h : firstFailure checks = some code) (work : Answer) : s.checked checks work = s.deny code := by
  simp [State.checked, h]

/-- Every check holds exactly when none fails first. -/
theorem firstFailure_eq_none (checks : List (Bool × ResultCode)) :
    firstFailure checks = none ↔ ∀ x ∈ checks, x.1 = true := by
  induction checks with
  | nil => simp
  | cons x rest ih =>
    obtain ⟨b, code⟩ := x
    cases b <;> simp [ih]

@[simp] theorem State.withHandle_of_lt {n k : Nat} (h : k < n) (work : Fin n → Answer) :
    s.withHandle n k work = work ⟨k, h⟩ := by
  simp [State.withHandle, h]

@[simp] theorem State.withHandle_of_ge {n k : Nat} (h : n ≤ k) (work : Fin n → Answer) :
    s.withHandle n k work = s.deny .badArg := by
  simp [State.withHandle, h]

/-- The discard of a held reply changes the reply and the PORT cause alone; without one, nothing (R175). -/
theorem State.discardReply_spec :
    (s.port.reply = none ∧ s.discardReply = s) ∨
      (s.port.reply ≠ none ∧
        s.discardReply = ({ s with port := { s.port with reply := none } }).raisePort .replyDiscarded) := by
  unfold State.discardReply
  split
  · exact .inl ⟨by assumption, rfl⟩
  · rename_i h
    exact .inr ⟨by simp [h], rfl⟩

@[simp] theorem State.atWork_taken (i : Instr) : (s.atWork i).port.taken = s.port.taken := by
  unfold State.atWork State.discardReply State.clockStatus
  dsimp only
  split <;> rfl

@[simp] theorem State.atWork_select (i : Instr) : (s.atWork i).port.select = s.port.select := by
  unfold State.atWork State.discardReply State.clockStatus
  dsimp only
  split <;> rfl

@[simp] theorem State.atWork_reply (i : Instr) : (s.atWork i).port.reply = none := by
  unfold State.atWork State.discardReply State.clockStatus
  dsimp only
  split
  · assumption
  · rfl

/-- READ FIELD to READ TALLIES and every other command of the host: its row is its frame at the port. -/
theorem exec_frame (i : Instr) (h : i.isFrame = true) : exec i s = .next (s.command i (workOf i)) := by
  cases i <;> first
    | rfl
    | exact absurd h (by simp [Instr.isFrame, Instr.frame])

/-- A frame at a free port: the work of its command, in the state it finds, and the completion (R175). -/
theorem exec_free {s : State} (i : Instr) (h : i.isFrame = true) (hp : PortFree s) :
    exec i s = .next (workOf i (s.atWork i)).complete := by
  rw [exec_frame s i h, State.command_free hp]

/-! ### The records a command finds are those of the state before it -/

@[simp] theorem State.unit_atWork (i : Instr) (f : FieldNo) : (s.atWork i).unit f = s.unit f := by simp [State.unit]
@[simp] theorem State.entry_atWork (i : Instr) (h : CarHandle) : (s.atWork i).entry h = s.entry h := by
  simp [State.entry]
@[simp] theorem State.car_atWork (i : Instr) (h : CarHandle) : (s.atWork i).car h = s.car h := by simp [State.car]
@[simp] theorem State.lane_atWork (i : Instr) (l : LaneNo) : (s.atWork i).lane l = s.lane l := by simp [State.lane]
@[simp] theorem State.program_atWork (i : Instr) (f : FieldNo) : (s.atWork i).program f = s.program f := by
  simp [State.program]
@[simp] theorem State.timebase_atWork (i : Instr) (f : FieldNo) : (s.atWork i).timebase f = s.timebase f := by
  simp [State.timebase]
@[simp] theorem State.slot_atWork (i : Instr) (n : SetHandle) : (s.atWork i).slot n = s.slot n := by simp [State.slot]
@[simp] theorem State.bay_atWork (i : Instr) (b : BayNo) : (s.atWork i).bay b = s.bay b := by simp [State.bay]
@[simp] theorem State.order_atWork (i : Instr) (o : OrderHandle) : (s.atWork i).order o = s.order o := by
  simp [State.order]
@[simp] theorem State.station_atWork (i : Instr) (n : StationNo) : (s.atWork i).station n = s.station n := by
  simp [State.station]
@[simp] theorem State.backlog_atWork (i : Instr) (n : StationNo) : (s.atWork i).backlog n = s.backlog n := by
  simp [State.backlog]
@[simp] theorem State.trip_atWork (i : Instr) (t : TripHandle) : (s.atWork i).trip t = s.trip t := by simp [State.trip]
@[simp] theorem State.tally_atWork (i : Instr) (k : Tally) : (s.atWork i).tally k = s.tally k := by simp [State.tally]

end Sys2Proof.Machine
end

