-- ==== Sys2Proof/Laws/Timebases.lean ====
section
/-! SUPPORT. What the timebase's counting of a reacquisition can do, said once (R77, R78). -/

namespace Sys2Proof.Machine

/-- All that `State.countReacquire` can do: the timebase goes on counting, or the failure is counted
and raises the SOUND cause (R77, R78); it loses no lock. -/
theorem countReacquire_spec (s : State) (f : FieldNo) (k : Nat) (x : Timebase) (hx : s.timebase f = x) :
    PulseCounted s (s.countReacquire f k) f (x.reacquired k) (x.failsReacquire k) False := by
  subst hx
  cases hr : (s.timebase f).reacquire with
  | none =>
    have e : s.countReacquire f k = s := by simp [State.countReacquire, hr]
    have e2 : (s.timebase f).reacquired k = s.timebase f := by simp [Timebase.reacquired, hr]
    have nf : ¬ (s.timebase f).failsReacquire k := by rintro ⟨n, h, _⟩; rw [hr] at h; cases h
    rw [e, e2]
    exact ⟨⟨fun h => absurd h nf, fun _ => rfl, False.elim, fun _ => rfl, fun h => absurd h (by simp [nf]), fun _ _ => rfl⟩,
      fun _ _ _ => rfl, fun h => absurd h (by simp [nf]), fun _ _ => rfl, by simp [State.timebase, put_look]⟩
  | some n =>
    have hfi : (s.timebase f).failsReacquire k ↔ (s.timebase f).state ≠ .locked ∧ (s.timebase f).settings.reacquire ≤ n + k := by
      unfold Timebase.failsReacquire; rw [hr]; simp
    by_cases hl : (s.timebase f).state = .locked
    · have e : s.countReacquire f k = s.setTimebase f { s.timebase f with reacquire := none } := by simp [State.countReacquire, hr, hl]
      have e2 : (s.timebase f).reacquired k = { s.timebase f with reacquire := none } := by simp [Timebase.reacquired, hr, hl]
      have nf : ¬ (s.timebase f).failsReacquire k := by rw [hfi]; simp [hl]
      rw [e, e2]
      exact ⟨⟨fun h => absurd h nf, fun _ => rfl, False.elim, fun _ => rfl, fun h => absurd h (by simp [nf]), fun _ _ => rfl⟩,
        fun _ _ _ => rfl, fun h => absurd h (by simp [nf]), fun _ _ => rfl, rfl⟩
    · by_cases hle : (s.timebase f).settings.reacquire ≤ n + k
      · have e : s.countReacquire f k = ((s.setTimebase f { s.timebase f with reacquire := none }).count (.field f .reacquireFailures)).raiseSound f := by simp [State.countReacquire, hr, hl, hle]
        have e2 : (s.timebase f).reacquired k = { s.timebase f with reacquire := none } := by simp [Timebase.reacquired, hr, hle]
        have yf : (s.timebase f).failsReacquire k := by rw [hfi]; exact ⟨hl, hle⟩
        have ht : ∀ j, (s.countReacquire f k).tally j = if Tally.field f .reacquireFailures = j then min 65535 (s.tally (.field f .reacquireFailures) + 1) else s.tally j := by
          intro j; rw [e]; exact State.tally_count (s.setTimebase f { s.timebase f with reacquire := none }) _ j 1
        refine ⟨⟨fun _ => by rw [ht]; simp, fun h => absurd yf h, False.elim, fun _ => by rw [ht]; simp, fun _ => ?_, fun h => absurd yf h⟩,
          fun j h _ => by rw [ht]; simp [Ne.symm h], fun _ => ?_, fun h => absurd yf h, ?_⟩
        · rw [e]; simp [State.raiseSound, setFlag, Attention.withCause, causeBit]
        · rw [e]; rfl
        · rw [e, e2]; rfl
      · have e : s.countReacquire f k = s.setTimebase f { s.timebase f with reacquire := some (min 65535 (n + k)) } := by simp [State.countReacquire, hr, hl, hle]
        have e2 : (s.timebase f).reacquired k = { s.timebase f with reacquire := some (min 65535 (n + k)) } := by simp [Timebase.reacquired, hr, hl, hle]
        have nf : ¬ (s.timebase f).failsReacquire k := by rw [hfi]; simp [hl, hle]
        rw [e, e2]
        exact ⟨⟨fun h => absurd h nf, fun _ => rfl, False.elim, fun _ => rfl, fun h => absurd h (by simp [nf]), fun _ _ => rfl⟩,
          fun _ _ _ => rfl, fun h => absurd h (by simp [nf]), fun _ _ => rfl, rfl⟩

end Sys2Proof.Machine
end

