-- ==== Sys2Proof/Tests/Slice0.lean ====
section
/-! SUPPORT. The model's own tests: ill-formed terms that WellFormed refuses, frames written out from the manual's
encoding tables, the manual's worked examples, and for every statement with hypotheses a state and operands that meet
them. -/

namespace Sys2Proof.Tests

open Sys2Proof Sys2Proof.Machine

/-! ### WellFormed: one ill-formed term for each check, and a term at the edge of each width -/

theorem test_wellFormed_byte :
    (Instr.openField 256).wellFormed = false ∧ (Instr.openField 255).wellFormed = true := by decide
theorem test_wellFormed_word :
    (Instr.closeRows 0 65536).wellFormed = false ∧ (Instr.closeRows 0 65535).wellFormed = true := by decide
theorem test_wellFormed_three :
    (Instr.addSegment 0 0 16777216 0 0 0).wellFormed = false ∧
      (Instr.addSegment 0 0 16777215 0 0 0).wellFormed = true := by decide
theorem test_wellFormed_four :
    (Instr.lookupTicket 4294967296).wellFormed = false ∧ (Instr.lookupTicket 4294967295).wellFormed = true := by
  decide
theorem test_wellFormed_six :
    (Instr.enrolSet 281474976710656).wellFormed = false ∧ (Instr.enrolSet 281474976710655).wellFormed = true := by
  decide
theorem test_wellFormed_nibble :
    (Instr.admitCar 16 0 0 4 1 (List.replicate 8 0) none).wellFormed = false ∧
      (Instr.admitCar 15 0 0 4 1 (List.replicate 8 0) none).wellFormed = true := by decide
theorem test_wellFormed_plate :
    (Instr.lookupPlate (List.replicate 7 0)).wellFormed = false ∧
      (Instr.lookupPlate (64 :: List.replicate 7 0)).wellFormed = false ∧
      (Instr.lookupPlate (63 :: List.replicate 7 0)).wellFormed = true := by decide
theorem test_wellFormed_named_stall :
    (Instr.admitCar 0 0 0 4 1 (List.replicate 8 0) (some (256, 1))).wellFormed = false := by decide
theorem test_wellFormed_line_count :
    (Instr.placeOrder 0 0 1 []).wellFormed = false ∧
      (Instr.placeOrder 0 0 7 (List.replicate 7 ⟨1, 1, 0⟩)).wellFormed = false ∧
      (Instr.placeOrder 0 0 6 (List.replicate 6 ⟨1, 1, 0⟩)).wellFormed = true := by decide
theorem test_wellFormed_line_bytes : (Instr.placeOrder 0 0 1 [⟨256, 1, 0⟩]).wellFormed = false := by decide
theorem test_wellFormed_unknown_code :
    (Instr.unknownCommand 0x11 []).wellFormed = false ∧ (Instr.unknownCommand 0xF1 []).wellFormed = false ∧
      (Instr.unknownCommand 256 []).wellFormed = false ∧ (Instr.unknownCommand 0x10 []).wellFormed = true := by decide
theorem test_wellFormed_unknown_arguments :
    (Instr.unknownCommand 0x10 [256]).wellFormed = false ∧
      (Instr.unknownCommand 0x10 (List.replicate 256 0)).wellFormed = false := by decide +kernel
theorem test_wellFormed_judged_bytes : (Instr.commandFrameJudged [256] (.stays [])).wellFormed = false := by decide
theorem test_wellFormed_clocked :
    (Instr.readStatus 0).wellFormed = false ∧ (Instr.fetchReply 0).wellFormed = false ∧
      (Instr.readStatus 1).wellFormed = true := by decide

/-! ### Frames, byte by byte from the tables of chapter 10 -/

/-- CONFIGURE FIELD: field 1, R 16, P 32, T 17, A 8, channel 39, sign-on 64, sign-off 65. -/
theorem test_frame_fields :
    decodeFrame [0x11, 8, 1, 16, 32, 17, 8, 39, 64, 65] = .command (.configureField 1 16 32 17 8 39 64 65) := by decide
/-- CONFIGURE TIMEBASE: field 2, W 8, G 4, J 64, H 12, reacquire limit 0x1E0. -/
theorem test_frame_timebases :
    decodeFrame [0x15, 8, 2, 8, 4, 0x00, 0x40, 12, 0x01, 0xE0] = .command (.configureTimebase 2 8 4 64 12 480) := by
  decide
/-- ADD SEGMENT: field 0, INTERMISSION, 0x0FFFFF frames, title 7, cues 0x5, runners. -/
theorem test_frame_programs :
    decodeFrame [0x22, 8, 0, 1, 0x0F, 0xFF, 0xFF, 7, 5, 1] = .command (.addSegment 0 1 1048575 7 5 1) := by decide
/-- ADMIT: lane 2, field 3, class ACCESSIBLE, party 15, ticket 0x01020304, plate A (0x0A) at position 1, UNREAD at
position 8, stall (1, 32). -/
theorem test_frame_lanes :
    decodeFrame
      [0x31, 14, 0x23, 0x2F, 1, 2, 3, 4, 0x28, 0, 0, 0, 0, 0x26, 1, 32] =
        .command (.admitCar 2 3 2 15 16909060 [10, 0, 0, 0, 0, 0, 0, 38] (some (1, 32))) := by decide
/-- MOVE ENTRY: handle 0x03FF, no target, no stall. -/
theorem test_frame_entries :
    decodeFrame [0x46, 5, 0x03, 0xFF, 0xFF, 0, 0] = .command (.moveEntry 1023 255 0 0) := by decide
/-- DOCK IN: bay 5, serial 0x010203040506, charge 100. -/
theorem test_frame_sets :
    decodeFrame [0x64, 8, 5, 1, 2, 3, 4, 5, 6, 100] = .command (.dockIn 5 1108152157446 100) := by decide
/-- PLACE ORDER: handle 0x0102, AT_INTERMISSION, two lines. -/
theorem test_frame_orders :
    decodeFrame [0x71, 10, 1, 2, 1, 2, 9, 3, 0, 8, 1, 3] =
      .command (.placeOrder 258 1 2 [⟨9, 3, 0⟩, ⟨8, 1, 3⟩]) := by decide
/-- TRIP REPORT: order 200, UNDELIVERABLE. -/
theorem test_frame_trips : decodeFrame [0x77, 2, 200, 1] = .command (.tripReport 200 1) := by decide
/-- CLEAR CAUSES: TOUCHED and PORT. -/
theorem test_frame_attention : decodeFrame [0xF4, 2, 0x03, 0x00] = .command (.clearCauses 768) := by decide
/-- A length that is not the code's, and a code that names no command. -/
theorem test_frame_refused :
    decodeFrame [0x77, 1, 200] = .badLength ∧ decodeFrame [0x71, 5, 1, 2, 1, 0, 9] = .badLength ∧
      decodeFrame [0x10, 0] = .unknown := by decide

/-! ### Worked examples of the manual -/

/-- The table of R10. -/
theorem test_centreOut :
    centreOut 1 = [1] ∧ centreOut 5 = [3, 2, 4, 1, 5] ∧ centreOut 6 = [3, 4, 2, 5, 1, 6] ∧
      centreOut 7 = [4, 3, 5, 2, 6, 1, 7] ∧ centreOut 8 = [4, 5, 3, 6, 2, 7, 1, 8] := by decide

/-- The field of section 1.7 after its step 16: the counts and the next stalls of each class. -/
theorem test_worked_allocation :
    let rows : FieldUnit :=
      { rows := 4, posts := 6, tall := 4, accessible := 2, channel := some 0, signOn := 4, signOff := 8, closed := 2 }
    let u := [((⟨0, 0⟩ : Stall), (4 : CarHandle)), (⟨0, 3⟩, 1), (⟨0, 4⟩, 2), (⟨1, 2⟩, 5), (⟨1, 3⟩, 6), (⟨3, 1⟩, 8),
      (⟨3, 2⟩, 3), (⟨3, 3⟩, 7)].foldl (fun u x => u.setStall x.1 (some x.2)) rows
    (u.occupancy, u.standardFree, u.tallFree, u.accessibleFree) = (8, 11, 3, 1) ∧
      ((u.offers .tall).head?, (u.offers .accessible).head?, (u.offers .standard).take 2) =
        (some ⟨3, 4⟩, some ⟨0, 1⟩, [⟨0, 2⟩, ⟨0, 5⟩]) := by decide +kernel

/-- A timebase in TRACK at nominal, with a gap and a strobe count. -/
def tracking (divisor : Nat) (slip : Int) (run gap strobes : Nat) : Timebase :=
  { state := .track, divisor := divisor, nominal := 1024000, reference := true, gap := gap, strobes := strobes
    slip := slip, run := run }

/-- Pulses 1, 3 and 8 of section 5.9. -/
theorem test_worked_lock :
    let t1 := (tracking 131072 0 0 1022976 1998).update 2000 1
    let t3 := (tracking 130944 (-3) 2 1022976 1999).update 2000 1
    let t8 := (tracking 130925 (-4) 7 1022976 2001).update 2000 1
    (t1.slip, t1.divisor, t1.run, t1.state) = (-2, 131008, 1, .track) ∧
      (t3.slip, t3.divisor, t3.run, t3.state) = (-4, 130925, 3, .track) ∧
      (t8.slip, t8.divisor, t8.run, t8.state) = (-3, 130929, 8, .locked) := by decide

/-- A measuring pulse far too soon, and a spurious pulse in TRACK (section 5.10). -/
theorem test_limit_pulses :
    let m := ({ tracking 131072 0 0 614400 1200 with state := .seek } : Timebase).measure 2000
    let p := (tracking 127744 0 0 1024000 2052).update 2000 1
    let q := (tracking 131072 0 0 614400 1200).update 2000 1
    (m.divisor, m.range, m.state) = (127744, true, .track) ∧
      (p.slip, p.divisor, p.range, p.run) = (52, 127808, false, 0) ∧ (q.slip, q.divisor, q.run) = (-800, 131008, 0) := by
  decide

/-- A holdover bridged, and the slip at its limit (section 5.10). -/
theorem test_limit_holdover :
    let t := { tracking 131072 0 0 3276800 6400 with state := .holdover, missed := 2 }
    let u := { tracking 131072 (-32400) 0 1536000 3000 with
      state := .holdover, missed := 1, settings := { gain := 0 } }
    t.bridged = 3 ∧ ((t.update 2000 3).slip, (t.update 2000 3).divisor, (t.update 2000 3).run) = (400, 131136, 0) ∧
      u.bridged = 2 ∧ ((u.update 2000 2).slip, (u.update 2000 2).divisor) = (-32767, 131008) := by decide


/-! ### A state for the witnesses

Field 0 shows its first segment; five cars stand in it, one in each lane state, with sets, orders and trips. -/

def feature : Segment := { kind := .picture, length := 1000, title := 1, cues := 4, runners := false }
def interval : Segment := { kind := .intermission, length := 500, title := 2, cues := 8, runners := true }
def bill : Header :=
  { ns := 2000, cutoffSegment := some 1, cutoffFrames := 0, lead := 990, openCues := 1, endCues := 2 }

/-- A car of field 0, PRESENT. -/
def parkedCar (row : Fin 16) (post : Fin 32) (ticket : Nat) : Car :=
  { state := .present, field := 0, stall := ⟨row, post⟩, cls := .standard, ticket := ticket
    plate := some (List.replicate 8 (.symbol 10)), party := 4, lane := 0, serial := ticket }

def cars : List Car :=
  [{ parkedCar 0 2 1001 with lent := some (3, .lent), orders := [0, 2] },
   { parkedCar 0 1 1002 with lent := some (5, .issuing), orders := [1] },
   { parkedCar 1 2 1003 with state := .arriving },
   { parkedCar 0 3 1004 with state := .leaving },
   { parkedCar 1 1 1005 with held := true },
   { parkedCar 1 0 1006 with orders := [3, 4] }]

def ordered (car : CarHandle) (stage : Stage) (lines : List OrderLine) : Order :=
  { car := some car, field := 0, mode := .now, stage := stage, due := false, cancelPending := false, late := false
    serial := 1, trip := none, timer := none, lines := lines }

def line (station : StationNo) (state : LineState) : OrderLine :=
  { item := 1, quantity := 2, station := station, state := state }

def book : List (Option Order) :=
  [some { ordered 0 .preparing [line 0 .started, line 1 .waiting] with timer := some 720000 },
   some { ordered 1 .parked [line 2 .waiting] with mode := .atIntermission },
   some { ordered 0 .ready [line 0 .finished] with trip := some 0 },
   some { ordered 5 .onTrip [line 0 .finished] with trip := some 1 },
   some { ordered 5 .queued [line 3 .waiting] with timer := some 720000 }]

def pool : List SetSlot :=
  [{}, {}, {}, { state := .lent, serial := 33, car := some 0 }, { state := .absent, serial := 44 },
   { state := .issuing, serial := 55, bay := some 2, charge := 90, car := some 1, timer := some 45000 },
   { state := .ready, serial := 66, bay := some 4, charge := 100 },
   { state := .faulty, serial := 77, bay := some 6 },
   { state := .charging, serial := 88, bay := some 8, charge := 10 }]

def docks : List (Option SetHandle) := [none, none, some 5, none, some 6, none, some 7, none, some 8]

/-- The lists of a table's first records, then the record of every other handle. -/
def table {α : Type} (n : Nat) (first : List α) (rest : α) : Vector α n :=
  Vector.ofFn fun i => first.getD i.val rest

def stand : FieldUnit :=
  let unit : FieldUnit :=
    { rows := 2, posts := 5, tall := 2, accessible := 1, channel := some 7, signOn := 0, signOff := 1 }
  (((((unit.setStall ⟨0, 2⟩ (some 0)).setStall ⟨0, 1⟩ (some 1)).setStall ⟨1, 2⟩ (some 2)).setStall ⟨0, 3⟩
    (some 3)).setStall ⟨1, 1⟩ (some 4)).setStall ⟨1, 0⟩ (some 5)

def showing : ProgramUnit :=
  { record := .loaded bill [feature, interval], state := .running, segment := 0, frame := 0, cues := 4
    txen := true, carrier := true }

def demo : State :=
  { State.reset with
    fieldUnits := table 4 [stand] {}
    programs := table 4 [showing] {}
    timebases := table 4 [tracking 131072 0 7 1024000 2000] {}
    entries := table 1024 (cars.map fun c => { car := some c }) {}
    serialCounter := 1006
    lanes := table 6
      [{ state := .opened, barrier := true, timer := some 5000, served := some 2 },
       { state := .waiting, arrival := LoopInput.settled .occupied }, {}, {},
       { state := .opened, barrier := true, timer := some 5000, served := some 3 },
       { state := .waiting, arrival := LoopInput.settled .occupied }] {}
    sets := table 128 pool {}
    bays := table 128 docks none
    orders := table 256 book none
    parked := [1]
    stations := table 4
      [{ queue := [(0, 0)] }, { queue := [(0, 1)] }, {}, { queue := [(4, 0)] }] {}
    trips := table 8
      [{ state := .gathering, field := some 0, orders := [2], timer := some 30000 },
       { state := .out, field := some 0, orders := [3] }] {} }

/-- A state whose port is free takes commands. -/
theorem demo_free : PortFree demo := And.intro rfl rfl

/-- A table reads as its first records, and past them as the record of every other handle. -/
theorem look_table {α : Type} {n : Nat} (first : List α) (rest : α) (i : Fin n) :
    look (table n first rest) i = first.getD i.val rest := by simp [look, table]

/-- The last entry of the demonstration is VACANT. -/
theorem demo_last : demo.car 1023 = none := by
  show (look (table 1024 (cars.map fun c => ({ car := some c } : Entry)) {}) 1023).car = none
  rw [look_table]; rfl

/-- What holds of a table's first records and of the record of every other handle holds under every handle. -/
theorem table_all {α : Type} {n : Nat} (p : Fin n → α → Prop) (first : List α) (rest : α)
    (h : ∀ k (hk : k < first.length) (hn : k < n), p ⟨k, hn⟩ first[k]) (h' : ∀ i, p i rest) (i : Fin n) :
    p i (look (table n first rest) i) := by
  rw [look_table]
  by_cases hi : i.val < first.length
  · rw [List.getD_eq_getElem _ _ hi]; exact h i.val hi i.isLt
  · rw [List.getD_eq_default _ _ (Nat.le_of_not_lt hi)]; exact h' i

/-- What holds of the six cars of the demonstration holds of every live entry. -/
theorem demo_cars (p : CarHandle → Car → Prop)
    (h : ∀ k (hk : k < cars.length) (hn : k < 1024), p ⟨k, hn⟩ cars[k]) :
    ∀ i c, demo.car i = some c → p i c := by
  refine fun i => table_all (fun i (e : Entry) => ∀ c, e.car = some c → p i c) _ _ (fun k hk hn c hc => ?_)
    (fun i c hc => by simp at hc) i
  simp only [List.getElem_map, Option.some.injEq] at hc
  exact hc ▸ h k _ hn

/-! ### Laws: a state that is not the reset state meets each, so the statements that a step keeps them are not empty -/

/-- The program of field 0 stands inside its first segment; the records of both conditions are in their ranges. -/
theorem demo_positions : PositionLaw demo := by
  refine fun f => table_all (fun _ p => ProgramUnit.Position p) [showing] {} (fun k hk hn => ?_) (fun _ => ?_) f
  · obtain rfl : k = 0 := by simpa using hk
    show showing.Position
    exact ⟨by constructor <;> simp [showing, bill, feature, interval, ProgramRecord.header?, ProgramRecord.segments],
      by simp [showing], fun _ => ⟨feature, rfl, by decide⟩, by simp [showing]⟩
  · exact ⟨by constructor <;> simp [ProgramRecord.header?, ProgramRecord.segments], fun _ => ⟨rfl, rfl⟩, by simp, by simp⟩

theorem witness_ShowStatesAreKept : ShowLaw demo ∧ PositionLaw demo ∧ step demo = .next demo.tick := by
  refine ⟨fun f => ?_, demo_positions, rfl⟩
  fin_cases f <;> constructor <;> decide +kernel

theorem witness_TimebaseRangesAreKept :
    TimebaseLaw demo ∧ ShowLaw demo ∧ RangeLaw demo ∧ step demo = .next demo.tick := by
  refine ⟨fun f => table_all (fun _ t => Timebase.Bounds t) _ _ (fun k hk hn => ?_) (fun i => ?_) f,
    witness_ShowStatesAreKept.1, fun f => ?_, rfl⟩
  · obtain rfl : k = 0 := by simpa using hk
    constructor <;> simp [tracking]
  · constructor <;> simp
  · fin_cases f <;> constructor <;> decide +kernel

theorem witness_HoldIsKeptByTheBacklogs : HoldLaw demo ∧ step demo = .next demo.tick :=
  ⟨⟨by decide +kernel, by decide +kernel, fun _ => by decide +kernel⟩, rfl⟩

/-- What holds of the orders of the demonstration holds of every order in its book. -/
theorem demo_orders (p : OrderHandle → Order → Prop)
    (h : ∀ k (hk : k < book.length) (hn : k < 256), ∀ ord ∈ book[k], p ⟨k, hn⟩ ord) :
    ∀ o ord, demo.order o = some ord → p o ord := by
  refine fun o => table_all (fun o (x : Option Order) => ∀ ord, x = some ord → p o ord) book none
    (fun k hk hn ord e => h k hk hn ord e) (fun o ord e => by simp at e) o

theorem demo_orderLists : OrderListLaw demo := by
  refine ⟨fun o ord h e => ?_, fun h c o e => ?_, demo_cars (fun _ c => c.orders.Nodup) (by decide +kernel)⟩
  · have := demo_orders (fun o ord => ord.car.all (fun h => (demo.car h).any fun c => c.orders.contains o) = true)
      (by decide +kernel) o ord e
    intro e'
    simpa only [e', Option.all_some, Option.any_eq_true, List.contains_iff_mem] using this
  · have := demo_cars (fun h c => c.orders.all (fun o => (demo.order o).any fun ord => ord.car == some h) = true)
      (by decide +kernel) h c e
    intro ho
    simpa [Option.any_eq_true] using List.all_eq_true.mp this o ho

/-- A line that stands in a queue of the demonstration: its order is in the kitchen and the line is not done. -/
def queuedLine (n : StationNo) (e : OrderHandle × Nat) : Bool :=
  (demo.order e.1).any fun ord =>
    (ord.stage == .queued || ord.stage == .preparing) &&
      (ord.lines[e.2]?).any fun l =>
        l.station == n && (l.state == .started || (l.state == .waiting && !ord.cancelPending))

theorem demo_queues : QueueLaw demo where
  parked o := by
    constructor
    · intro h
      obtain rfl : o = 1 := by simpa [demo] using h
      exact ⟨{ ordered 1 .parked [line 2 .waiting] with mode := .atIntermission }, by decide +kernel, rfl⟩
    · rintro ⟨ord, e, h⟩
      exact demo_orders (fun o ord => ord.stage = .parked → o ∈ demo.parked) (by decide +kernel) o ord e h
  parkedOnce := by decide +kernel
  due := demo_orders _ (by decide +kernel)
  timer := demo_orders _ (by decide +kernel)
  lines := demo_orders _ (by decide +kernel)
  waiting := demo_orders _ (by decide +kernel)
  started := demo_orders _ (by decide +kernel)
  finished := demo_orders _ (by decide +kernel)
  queuesOnce := by decide +kernel
  queues n o k := by
    constructor
    · intro h
      have all : ∀ n, ((demo.station n).queue.all (queuedLine n)) = true := by decide +kernel
      have := List.all_eq_true.mp (all n) (o, k) h
      simp only [queuedLine, Option.any_eq_true, Bool.and_eq_true, Bool.or_eq_true, beq_iff_eq,
        Bool.not_eq_true'] at this
      obtain ⟨ord, e, stage, l, el, station, state⟩ := this
      exact ⟨ord, l, e, stage, el, station, state⟩
    · rintro ⟨ord, l, e, stage, el, station, state⟩
      have all := demo_orders (fun o ord => ord.stage = .queued ∨ ord.stage = .preparing →
          (ord.lines.zipIdx.all fun x => (demo.station x.1.station).queue.contains (o, x.2)) = true)
        (by decide +kernel) o ord e stage
      have := List.all_eq_true.mp all (l, k) (List.mk_mem_zipIdx_iff_getElem?.mpr el)
      simpa [station] using this
  unfinished := fun o ord e stage => by
    have := demo_orders (fun o ord => ord.stage = .queued ∨ ord.stage = .preparing →
        ((List.finRange 4).any fun n => (demo.station n).queue.any fun e => e.1 == o) = true)
      (by decide +kernel) o ord e stage
    simp only [List.any_eq_true, beq_iff_eq] at this
    obtain ⟨n, -, ⟨o', k⟩, h, rfl⟩ := this
    exact ⟨n, k, h⟩

theorem demo_trips : TripLaw demo where
  idle := by decide +kernel
  field := by decide +kernel
  timer := by decide +kernel
  members k o := by
    constructor
    · intro h
      have all : ∀ k, ((demo.trip k).orders.all fun o => (demo.order o).any fun ord => ord.trip == some k) = true := by
        decide +kernel
      simpa [Option.any_eq_true] using List.all_eq_true.mp (all k) o h
    · rintro ⟨ord, e, h⟩
      have := demo_orders (fun o ord => ord.trip.all (fun k => (demo.trip k).orders.contains o) = true)
        (by decide +kernel) o ord e
      simpa [h] using this
  stages o ord k e h := by
    have := demo_orders (fun o ord => ord.trip.all (fun k => (demo.trip k).field == some ord.field &&
        ord.stage == if (demo.trip k).state = .out then .onTrip else .ready) = true) (by decide +kernel) o ord e
    simpa [h] using this
  onTrip := demo_orders _ (by decide +kernel)
  once := by decide +kernel
  size := by decide +kernel
  ready o := by
    constructor
    · intro h; simp [demo, State.reset] at h
    · rintro ⟨ord, e, stage, trip⟩
      exact absurd trip (demo_orders (fun _ ord => ord.stage = .ready → ord.trip ≠ none) (by decide +kernel) o ord e stage)
  readyOnce := by decide +kernel
  formed h := absurd rfl h
  joined o ord h := by simp [demo, State.reset] at h

theorem witness_OrderListsAgreeWithTheBook :
    OrderListLaw demo ∧ QueueLaw demo ∧ TripLaw demo ∧ step demo = .next demo.tick :=
  ⟨demo_orderLists, demo_queues, demo_trips, rfl⟩

theorem witness_CapacitiesAreKept : CapacityLaw demo ∧ step demo = .next demo.tick := by
  refine ⟨⟨by decide +kernel, demo_cars _ (by decide +kernel), by decide +kernel, by decide +kernel, by decide +kernel,
    fun k => ?_, by decide +kernel, by decide +kernel⟩, rfl⟩
  simp [State.tally, demo, State.reset]

theorem demo_car : ∀ k (hk : k < cars.length), demo.car ⟨k, Nat.lt_trans hk (by decide)⟩ = some cars[k] := by
  decide +kernel

/-- The stalls of the demonstration that hold a car. -/
theorem stand_at (st : Stall) (h : CarHandle) (e : stand.at st = some h) :
    ∃ c, demo.car h = some c ∧ c.field = 0 ∧ c.stall = st := by
  simp only [stand, FieldUnit.at_setStall] at e
  split at e
  · cases e; exact ⟨_, demo_car 5 (by decide), rfl, by assumption⟩
  split at e
  · cases e; exact ⟨_, demo_car 4 (by decide), rfl, by assumption⟩
  split at e
  · cases e; exact ⟨_, demo_car 3 (by decide), rfl, by assumption⟩
  split at e
  · cases e; exact ⟨_, demo_car 2 (by decide), rfl, by assumption⟩
  split at e
  · cases e; exact ⟨_, demo_car 1 (by decide), rfl, by assumption⟩
  split at e
  · cases e; exact ⟨_, demo_car 0 (by decide), rfl, by assumption⟩
  · exfalso; simp [FieldUnit.at] at e

/-- Field 0 is the demonstration's; the others are unconfigured. -/
theorem demo_unit (f : FieldNo) : demo.unit f = if f = 0 then stand else {} := by
  fin_cases f <;> simp [demo, State.unit, table, look]

theorem demo_stalls : StallLaw demo := by
  refine ⟨fun f => ?_, by decide +kernel, demo_cars _ (by decide +kernel), demo_cars _ (by decide +kernel),
    demo_cars _ (by decide +kernel), fun f st h e => ?_⟩
  · unfold FieldUnit.Configuration; revert f; decide +kernel
  · rw [demo_unit] at e
    split at e
    · rename_i hf; subst hf; exact stand_at st h e
    · exfalso; simp [FieldUnit.at] at e

theorem demo_gate : GateLaw demo where
  shut := by decide +kernel
  opened := by decide +kernel
  arrival := by decide +kernel
  exits := by decide +kernel
  serves l h e := by
    have all : ∀ l, ((demo.lane l).served.all fun h => (demo.car h).any fun c =>
        c.state == if l.val < 4 then .arriving else .leaving) = true := by decide +kernel
    have := all l
    simp only [e, Option.all_some, Option.any_eq_true, beq_iff_eq] at this
    exact this
  served := demo_cars _ (by decide +kernel)
  alone l l' h e e' := by
    have all : ∀ l l', (demo.lane l).served ≠ none → (demo.lane l).served = (demo.lane l').served → l = l' := by
      decide +kernel
    exact all l l' (by simp [e]) (e.trans e'.symm)
  tickets := by
    have key : ∀ k (hk : k < cars.length), ∀ j (hj : j < cars.length), cars[k].ticket = cars[j].ticket → k = j := by
      decide +kernel
    intro h h' c c' e e'
    refine demo_cars (fun h c => ∀ h' c', demo.car h' = some c' → c.ticket = c'.ticket → h = h')
      (fun k hk hn => ?_) h c e h' c' e'
    exact demo_cars (fun h' c' => cars[k].ticket = c'.ticket → ⟨k, hn⟩ = h')
      (fun j hj hm e'' => Fin.ext (key k hk j hj e''))

theorem witness_StallLawIsKept : StallLaw demo ∧ GateLaw demo ∧ step demo = .next demo.tick :=
  ⟨demo_stalls, demo_gate, rfl⟩

/-- What holds of the sets of the demonstration, and of an UNENROLLED slot, holds of every slot. -/
theorem demo_sets (p : SetHandle → SetSlot → Prop)
    (h : ∀ k (hk : k < pool.length) (hn : k < 128), p ⟨k, hn⟩ pool[k]) (h' : ∀ n, p n {}) (n : SetHandle) :
    p n (demo.slot n) := table_all p pool {} h h' n

theorem witness_SetLawIsKept : SetLaw demo ∧ step demo = .next demo.tick := by
  refine ⟨⟨fun b n => ⟨fun e => ?_, fun e => ?_⟩, ?_, ?_, ?_, ?_, fun h n m => ⟨fun e => ?_, fun e => ?_⟩,
    by decide +kernel, fun n m e e' => ?_⟩, rfl⟩
  · exact table_all (fun b (y : Option SetHandle) => ∀ n, y = some n → (demo.slot n).bay = some b) docks none
      (by decide +kernel) (fun b n e => by simp at e) b n e
  · have := demo_sets (fun n x => x.bay.all (fun b => demo.bay b == some n) = true) (by decide +kernel)
      (by decide) n
    simpa [e] using this
  · exact demo_sets (fun _ x => x.state.docks = true → x.bay ≠ none) (by decide +kernel) (by decide)
  · exact demo_sets (fun _ x => x.state.docks = false → x.state ≠ .faulty → x.bay = none) (by decide +kernel) (by decide)
  · exact demo_sets (fun _ x => x.car ≠ none ↔ x.state = .issuing ∨ x.state = .lent) (by decide +kernel) (by decide)
  · exact demo_sets (fun _ x => x.timer ≠ none ↔ x.state = .issuing) (by decide +kernel) (by decide)
  · cases hc : demo.car h with
    | none => simp [hc] at e
    | some c =>
      have := demo_cars (fun h c => c.lent.all (fun x => (demo.slot x.1).car == some h && (demo.slot x.1).state == x.2.state) = true)
        (by decide +kernel) h c hc
      simpa [show c.lent = some (n, m) by simpa [hc] using e] using this
  · have := demo_sets (fun n x => x.car.all (fun h => [SetMark.issuing, .lent].all fun m =>
      x.state != m.state || ((demo.car h).bind Car.lent == some (n, m))) = true) (by decide +kernel) (by decide) n
    cases m <;> simpa [e.1, e.2, SetMark.state] using this
  · have key : ∀ k (hk : k < pool.length), ∀ j (hj : j < pool.length),
        pool[k].enrolled = true → pool[j].enrolled = true → pool[k].serial = pool[j].serial → k = j := by
      decide +kernel
    refine demo_sets (fun n x => x.enrolled = true → ∀ m, (demo.slot m).enrolled = true → x.serial = (demo.slot m).serial → n = m)
      (fun k hk hn e m => ?_) (fun n e => by simp [SetSlot.enrolled] at e) n e m e'
    exact demo_sets (fun m y => y.enrolled = true → pool[k].serial = y.serial → ⟨k, hn⟩ = m)
      (fun j hj hm e' e'' => Fin.ext (key k hk j hj e e' e'')) (fun m e' => by simp [SetSlot.enrolled] at e') m

/-! ### The port -/

def busyDemo : State := { demo with port := { taken := some ⟨[0xF8, 0], 1228⟩ } }
def asideDemo : State := { demo with port := { select := .aside } }
def resetDemo : State := { demo with port := { select := .inReset } }

/-- A select period under way in the demonstration. -/
def selected (p : Period) : State := { demo with port := { select := .low p } }

/-- At the end of a millisecond and within one, with a timer about to run out, and while RESET is low. -/
theorem witness_AnEmptyQueuePassesOneCycle :
    (demo.pending = [] ∧ demo.port.select ≠ .inReset ∧ demo.port.taken = none ∧ demo.phase + 1 < 24576) ∧
      ¬ ({ demo with phase := 24575 } : State).phase + 1 < 24576 ∧
      (resetDemo.pending = [] ∧ resetDemo.port.select = .inReset) ∧
      (demo.setTrip 0 { state := .gathering, timer := some 0 }).isDue (.gatherTimer 0) = true ∧
      demo.isDue (.gatherTimer 0) = false := by
  refine ⟨⟨rfl, by decide, rfl, by decide⟩, by decide, ⟨rfl, rfl⟩, by decide +kernel, by decide +kernel⟩

/-- Malformed by one byte too few, one too many and an end off the boundary; well made, with the port busy and free; in a
period under way whose last bit fell while BUSY, and not. -/
theorem witness_CommandFrameIsJudgedAtTheRiseOfSel :
    (0x14 ≠ 0xF1 ∧ 0x14 ≠ 0xF2 ∧ demo.port.select = .high ∧ busyDemo.port.select = .high) ∧
      (∀ p, (selected p).port.select = .low p) ∧
      (let p : Period := { bytes := [0x14, 0], busyAtLastBit := true }
       p.bytes = 0x14 :: [0] ∧ p.bits = [] ∧ (selected p).port.taken = none) ∧
      ¬ (false = false ∧ ∃ len args, [2, 0] = len :: args ∧ args.length = len) ∧
      ¬ (false = false ∧ ∃ len args, [2, 0, 0, 0] = len :: args ∧ args.length = len) ∧
      ¬ (true = false ∧ ∃ len args, [2, 0, 0] = len :: args ∧ args.length = len) ∧
      (false = false ∧ ∃ len args, [2, 0, 0] = len :: args ∧ args.length = len) ∧
      busyDemo.port.taken ≠ none ∧ demo.port.taken = none := by
  refine ⟨by decide, fun _ => rfl, by decide, by simp, by simp, by simp, ⟨rfl, 2, [0, 0], rfl, rfl⟩, by simp [busyDemo], rfl⟩

/-- With the longest time left, and with none. -/
theorem witness_BusyClearsInTime :
    (busyDemo.pending = [] ∧ busyDemo.port.select ≠ .inReset ∧ busyDemo.port.taken = some ⟨[0xF8, 0], 1228⟩) ∧
      ({ demo with port := { taken := some ⟨[0xF8, 0], 0⟩ } } : State).port.taken = some ⟨[0xF8, 0], 0⟩ :=
  ⟨⟨rfl, by decide, rfl⟩, rfl⟩

theorem witness_EveryFrameReadsBackAsItsCommand :
    let i := Instr.placeOrder 65535 255 255 (List.replicate 6 ⟨255, 255, 255⟩)
    i.wellFormed = true ∧ i.isFrame = true ∧ (∀ code args, i ≠ .unknownCommand code args) ∧
      ({ demo with port := { taken := some ⟨i.frame, 1⟩ } } : State).port.taken = some ⟨i.frame, 1⟩ ∧
      (Instr.unknownCommand 255 (List.replicate 3 255)).wellFormed = true ∧
      (∀ args, ({ demo with port := { taken := some ⟨0x71 :: args, 1⟩ } } : State).port.taken = some ⟨0x71 :: args, 1⟩) ∧
      (([0x71], [7, 10, 13, 16, 19, 22]) ∈ [(([0x71], [7, 10, 13, 16, 19, 22]) : List Nat × List Nat)] ∧ 0x71 ∈ [0x71] ∧
        (List.replicate 22 0).length ∈ [7, 10, 13, 16, 19, 22] ∧
        (List.replicate 21 0).length ∉ [7, 10, 13, 16, 19, 22]) :=
  ⟨by decide, by decide, by intros; exact Instr.noConfusion, rfl, by decide, fun _ => rfl, by decide⟩

/-- A frame command at a free port. -/
theorem witness_EveryFrameReadsBackAsItsCommand_rows : Instr.identify.isFrame = true ∧ PortFree demo := ⟨rfl, demo_free⟩

/-- One byte clocked; a held reply of three bytes with the frame clocked whole, and one byte short of it; a period under
way before its first bit, within a byte and before its last bit, and ending as each of its kinds. -/
theorem witness_SelectPeriodsThatAreNoFrames :
    demo.port.select = .high ∧ 0 < 1 ∧ ([] : List Nat).length + 1 = 1 ∧ [0, 1, 9].length < 4 ∧
      ¬ [0, 1, 9].length < 3 ∧ (∀ b ∈ [0xF2] ++ [0, 255], b < 256) ∧ (∀ p, (selected p).port.select = .low p) ∧
      (let p : Period := { bytes := [0xF2], fetched := some [0, 1, 9] }
       p.bits = [] ∧ p.bytes = 0xF2 :: []) ∧
      (let p : Period := { bits := (bitsOfByte 0xF1).take 6 }; p.bits ≠ [] ∧ p.bits.length < 7 ∧ p.bytes = []) ∧
      (let p : Period := { bits := (bitsOfByte 0xF1).take 7 }
       p.bits.length = 7 ∧ ∀ k, k < 8 → (p.bits ++ [true])[k]? = some ((0xF1 : Nat).testBit (7 - k))) := by
  refine ⟨rfl, by decide, rfl, by decide, by decide, by decide, fun _ => rfl, by decide, by decide, by decide⟩

/-- A falling edge before the first byte of a period and behind another byte, a falling and a rising edge on SCK at the
levels that let them come, at the level not yet known, and on SCK at their own level. -/
theorem witness_SelectPeriodsThatAreNoFrames_edges :
    ([SckEdge.falls] = [] ∨ [SckEdge.falls] = [.falls]) ∧
      (let p : Period := {}; p.sckHigh ≠ some false ∧ p.sckHigh ≠ some true ∧ p.bits = [] ∧ p.bits.length < 7) ∧
      (let p : Period := { bytes := [0xF1], sckHigh := some true }
       p.sckHigh ≠ some false ∧ p.bits = [] ∧ p.bytes = 0xF1 :: []) ∧
      (let p : Period := { bits := (bitsOfByte 0xF1).take 7, sckHigh := some false }
       p.sckHigh ≠ some true ∧ p.bits.length = 7) ∧
      (∀ p, (selected p).port.select = .low p) := by
  refine ⟨by decide, by decide, by decide, by decide, fun _ => rfl⟩

/-- SDO stands at a rising edge of SCK and moves to the next bit at a falling one, BUSY before REPLY_READY, in clock mode 0
and, behind a falling edge that changes nothing, in mode 3 (R172, R189). -/
theorem test_sdo_changes_at_falling_edges :
    let level (edges : List SckEdge) := (busyDemo.selFalls.clockEdges edges).sdoLevel
    busyDemo.sdoLevel = none ∧ level [] = some true ∧ level [.rises false] = some true ∧
      level [.rises false, .falls] = some false ∧ level [.falls] = some true ∧
      level [.falls, .rises false] = some true ∧ level [.falls, .rises false, .falls] = some false := by decide +kernel

/-- BUSY clears between the fall of SCK that puts the second byte's first bit on SDO and the rise that clocks it: the byte
is still the one sampled at the fall (log entry 29). -/
theorem test_status_sampled_at_the_fall :
    let begun := busyDemo.selFalls.clockEdges (edgesOfBytes [0xF1] ++ [.falls])
    let free := { begun with port := { begun.port with taken := none } }
    free.sdoLevel = some true ∧ (free.clockEdges [.rises false]).sdoLevel = some true := by decide +kernel

/-- FETCH REPLY byte by byte: a reply stored after the end of the first byte is neither sent nor released (R177). -/
theorem test_fetch_fixed_at_first_byte :
    let begun := demo.selFalls.clockEdges (edgesOfBytes [0xF2])
    let later := { begun with port := { begun.port with reply := some [0, 1, 9] } }
    let done := (later.clockEdges (edgesOfBytes [0, 0, 0, 0])).selRises false
    done.port.reply = some [0, 1, 9] ∧ done.port.sdo.drop 1 = [4, 0, 0, 0] := by decide +kernel

/-- READ STATUS over three bytes, BUSY clearing after the second byte has begun (spec/09, section 9.7, step 2). -/
theorem test_status_byte_by_byte :
    let two := busyDemo.selFalls.clockEdges (edgesOfBytes [0xF1] ++ [.falls])
    let free := { two with port := { two.port with taken := none, reply := some [0, 0] } }
    let done := (free.clockEdges (edgesOfBytes [0, 0])).selRises false
    (done.port.sdo.map fun b => (b.testBit 7, b.testBit 6)) = [(true, false), (true, false), (false, true)] := by
  decide +kernel

theorem witness_FramesThatReachNoBlock :
    (Instr.identify.isFrame = true ∧ busyDemo.port.taken ≠ none ∧ busyDemo.port.select = .high) ∧
      asideDemo.port.select = .aside ∧ resetDemo.port.select = .inReset ∧ (selected {}).port.select = .low {} ∧
      PortFree demo :=
  ⟨⟨rfl, by simp [busyDemo], rfl⟩, rfl, rfl, rfl, demo_free⟩

/-- A whole low period of RESET, its fall, and its rise while RESET is low and while it is high. -/
theorem witness_PartResetRestoresEveryRecord :
    ResetPart.pulse true = .pulse true ∧ resetDemo.port.select = .inReset ∧ resetDemo.pending = [] ∧
      demo.port.select ≠ .inReset := by
  refine ⟨rfl, rfl, rfl, by decide⟩

/-- For IDENTIFY, CLOSE ROWS, OPEN ROWS, READ TOUCHED and all that ask for a free port alone. -/
theorem witness_IdentifyAnswersTheIdentity : PortFree demo := demo_free

/-! ### Reads, lookups, causes, tallies -/

theorem witness_ReadsAnswerTheRecordAndChangeNothing :
    PortFree demo ∧ (1 : Fin 16).val + 1 ≤ (demo.unit 0).rows ∧ 1 ≠ 0xFF ∧
      (demo.program 0).record.segments[1]? = some interval ∧ demo.bay 8 = some 8 ∧
      demo.order 4 = some (book[4].getD (ordered 0 .parked [])) :=
  ⟨demo_free, by decide +kernel⟩

/-- Rows beyond R and beyond sixteen, a segment beyond the last, an empty bay, a free slot. -/
theorem witness_ReadsAnswerTheRecordAndChangeNothing_refusals :
    PortFree demo ∧ (3 ≠ 0 ∧ (demo.unit 0).rows < 3) ∧ (17 ≠ 0 ∧ 16 < 17) ∧
      (2 ≠ 0xFF ∧ (demo.program 0).record.segments.length ≤ 2) ∧ demo.bay 127 = none ∧ demo.order 255 = none :=
  ⟨demo_free, by decide +kernel⟩

/-- A ticket carried, one carried by nobody, one carried by a held car; a stall taken by a car that is found, in an
unconfigured field, beyond R, beyond P, free, and taken by a held car. -/
theorem witness_LookupsByTicketAndStall :
    (PortFree demo ∧ 1006 ≠ 0 ∧ demo.car 5 = some cars[5] ∧ cars[5].ticket = 1006 ∧ cars[5].held = false ∧
      ∀ h' c', h' < 5 → demo.car h' = some c' → c'.ticket = 1006 → c'.held = true) ∧
    (∀ h c, demo.car h = some c → c.ticket = 4294967295 → c.held = true) ∧
    (∀ h c, demo.car h = some c → c.ticket = 1005 → c.held = true) ∧
    ((demo.unit 0).rows ≠ 0 ∧ 2 ≤ (demo.unit 0).rows ∧ 3 ≤ (demo.unit 0).posts ∧ (demo.unit 0).at ⟨1, 2⟩ = some 2 ∧
      demo.car 2 = some cars[2] ∧ cars[2].held = false) ∧
    (demo.unit 1).rows = 0 ∧ (demo.unit 0).rows < 3 ∧ (demo.unit 0).posts < 6 ∧ (demo.unit 0).at ⟨0, 4⟩ = none ∧
    ((demo.unit 0).at ⟨1, 1⟩ = some 4 ∧ demo.car 4 = some cars[4] ∧ cars[4].held = true) := by
  refine ⟨⟨demo_free, by decide, by decide +kernel, by decide, by decide, fun h c hh e => ?_⟩, ?_, ?_, by decide +kernel⟩
  · have := demo_cars (fun h c => h < 5 → c.ticket = 1006 → c.held = true) (by decide +kernel) h c e
    exact this hh
  · exact demo_cars (fun h c => c.ticket = 4294967295 → c.held = true) (by decide +kernel)
  · exact demo_cars (fun h c => c.ticket = 1005 → c.held = true) (by decide +kernel)

/-- The shortest query, four positions read. -/
theorem witness_LookupByPlateRanksTheMatches :
    PortFree demo ∧
      plateOf (List.replicate 4 10 ++ List.replicate 4 38) =
        some (List.replicate 4 (.symbol 10) ++ List.replicate 4 PlatePos.unread) ∧
      4 ≤ (List.replicate 4 (PlatePos.symbol 10) ++ List.replicate 4 PlatePos.unread).countP (· != PlatePos.unread) :=
  ⟨demo_free, by decide +kernel, by decide +kernel⟩

/-- A plate too short, one with a code that is no position, and one with three positions that are read. -/
theorem witness_LookupByPlateRanksTheMatches_refusals :
    PortFree demo ∧ (List.replicate 7 0).length ≠ 8 ∧ (∃ code ∈ List.replicate 8 39, 38 < code) ∧
      (List.replicate 3 0 ++ List.replicate 5 38).countP (· < 38) < 4 :=
  ⟨demo_free, by decide⟩

theorem witness_CausesClearedMaskedAndNoted : PortFree demo ∧ 1024 ≤ 1024 ∧ 1023 < 1024 :=
  ⟨demo_free, by decide, by decide⟩

/-- The day open for each of the four grounds, and closed. -/
theorem witness_CloseDayClearsTheCounts :
    PortFree State.reset ∧ ((State.reset.setProgram 3 showing).program 3).state ≠ .dark ∧
      (State.reset.setOrder 255 (some (ordered 0 .parked []))).order 255 ≠ none ∧
      ((State.reset.setTrip 7 { state := .out }).trip 7).state ≠ .idle ∧
      ((State.reset.setSlot 127 { state := .issuing }).slot 127).state = .issuing ∧
      ¬ ((∃ f, (State.reset.program f).state ≠ .dark) ∨ (∃ o, State.reset.order o ≠ none) ∨
        (∃ k, (State.reset.trip k).state ≠ .idle) ∨ ∃ n, (State.reset.slot n).state = .issuing) := by
  refine ⟨And.intro rfl rfl, by decide +kernel, by decide +kernel, by decide +kernel, by decide +kernel, ?_⟩
  simp [State.program, State.order, State.trip, State.slot, State.reset]

/-- With every tally at its top. -/
theorem witness_TalliesOnlyGrow :
    let s := { demo with tallies := Vector.replicate 64 65535 }
    (∀ k, s.tally k ≤ 65535) ∧ Instr.identify ≠ .closeDay ∧ (∀ part, Instr.identify ≠ .partReset part) ∧
      (∃ t, exec .identify s = .next t) ∧ (∃ t, step s = .next t) ∧ s.pending = [] ∧ s.port.taken = none :=
  ⟨fun k => by simp [State.tally], by decide, fun _ => Instr.noConfusion, ⟨_, rfl⟩, ⟨_, rfl⟩, rfl, rfl⟩

/-! ### Fields -/

/-- The checks of R3 behind the field number, as the statement writes them. -/
def fieldRefusal (s : State) (f : FieldNo) (rows posts tall accessible channel signOn signOff : Nat) :
    Option ResultCode :=
  if (s.program f).state ≠ .dark then some .state
  else if ¬(1 ≤ rows ∧ rows ≤ 16 ∧ 1 ≤ posts ∧ posts ≤ 32) then some .badArg
  else if ¬(1 ≤ tall ∧ tall ≤ rows + 1) then some .badArg
  else if ¬(accessible ≤ 8 ∧ accessible ≤ posts) then some .badArg
  else if ¬ channel ≤ 39 then some .badArg
  else if ¬(signOn ≤ 64 ∧ signOn + 1 ≤ signOff ∧ signOff ≤ 65) then some .badArg
  else if ∃ g, g ≠ f ∧ (s.unit g).rows ≠ 0 ∧ (s.unit g).channel = some channel then some .duplicate
  else none

theorem witness_ConfigureFieldChecksAndWrites :
    4 ≤ 4 ∧ (3 : FieldNo).val = 3 ∧ fieldRefusal demo 3 16 32 17 8 39 64 65 = none ∧
      fieldRefusal demo 3 1 1 1 0 0 0 1 = none ∧
      fieldRefusal demo 0 1 1 1 0 0 0 1 = some .state ∧ fieldRefusal demo 3 17 1 1 0 0 0 1 = some .badArg ∧
      fieldRefusal demo 3 1 33 1 0 0 0 1 = some .badArg ∧ fieldRefusal demo 3 1 1 3 0 0 0 1 = some .badArg ∧
      fieldRefusal demo 3 1 1 1 2 0 0 1 = some .badArg ∧ fieldRefusal demo 3 1 1 1 0 40 0 1 = some .badArg ∧
      fieldRefusal demo 3 1 1 1 0 0 0 0 = some .badArg ∧ fieldRefusal demo 3 1 1 1 0 7 0 1 = some .duplicate := by
  decide +kernel

theorem witness_RowsCloseAndOpen : PortFree demo ∧ 4 ≤ 4 := ⟨demo_free, by decide⟩

/-- A configured field and an unconfigured one. -/
theorem witness_TheChosenStallIsTheFirstCandidate : stand.Configuration ∧ ({} : FieldUnit).Configuration := by
  unfold FieldUnit.Configuration; decide +kernel

theorem witness_SettingsAreWrittenAndAnswered :
    (demo.program 1).state = .dark ∧ ((demo.setProgram 1 { showing with state := .opened }).program 1).state = .opened ∧
      (1 ≤ 1 ∧ 64 ≤ 64 ∧ 4096 ≤ 4096 ∧ 48 ≤ 48 ∧ 24 ≤ 24 ∧ 480 ≤ 480) ∧ (63 < 64 ∧ 3 ≤ 3 ∧ 60 ≤ 60) ∧
      (50 ≤ 50 ∧ 100 ≤ 100 ∧ 10 ≤ 10 ∧ 120 ≤ 120) ∧ 5 ≤ 5 ∧ 120 ≤ 120 := by decide +kernel

/-- A running field, and settings one outside their ranges for one that is DARK. -/
theorem witness_SettingsAreWrittenAndAnswered_refusals :
    PortFree demo ∧ 4 ≤ 4 ∧ (0 : FieldNo).val = 0 ∧ ((demo.program 0).state ≠ .dark ∧ (demo.program 0).state ≠ .opened) ∧
      ((demo.program 1).state = .dark ∧ 23 < 24) ∧ 64 ≤ 64 ∧ 49 < 50 ∧ 4 < 5 :=
  ⟨demo_free, by decide +kernel⟩

/-! ### Timebases -/

/-- The demonstration with another timebase in field 0. -/
def ticking (x : Timebase) : State := demo.setTimebase 0 x

theorem witness_PulsesThatMeasureNothing :
    (demo.timebase 1).state = .stopped ∧ ((ticking { state := .free }).timebase 0).state = .free ∧
      (let x := (ticking { tracking 131072 0 0 511999 999 with state := .seek }).timebase 0
       x.state = .seek ∧ x.reference = true ∧ x.gap < x.nominal / 2) ∧
      (let x := (ticking (tracking 131072 0 0 511999 999)).timebase 0; x.state = .track ∧ x.gap < x.nominal / 2) ∧
      (let x := (ticking { tracking 131072 0 8 511999 999 with state := .locked }).timebase 0
       x.state = .locked ∧ x.gap < x.nominal / 2) ∧
      (let x := (ticking { state := .seek }).timebase 0; x.state = .seek ∧ x.reference = false) ∧
      (let y : Timebase := { state := .seek, reference := true, reacquire := some 95 }
       y.reacquire = some 95 ∧ y.state ≠ .locked ∧ y.settings.reacquire ≤ 95 + 1) ∧
      ((ticking { state := .lost }).timebase 0).state = .lost := by decide +kernel

/-- A pulse that leaves LOST in a field that is stalled, and in one that is not. -/
theorem witness_PulsesThatMeasureNothing_stall :
    (let s := (ticking { state := .lost }).setProgram 0 { showing with state := .paused .stall }
     (s.timebase 0).state = .lost ∧ (s.program 0).state = .paused .stall) ∧
      (let s := ticking { state := .lost }; (s.timebase 0).state = .lost ∧ (s.program 0).state ≠ .paused .stall) := by
  decide +kernel

/-- A pulse exactly half a nominal period after the last, in each state; a reacquisition at its limit; a slip one word
outside four windows. -/
theorem witness_PulsesThatMeasure :
    (let x := (ticking { tracking 131072 0 0 512000 1000 with state := .seek }).timebase 0
     x.state = .seek ∧ x.reference = true ∧ x.nominal / 2 ≤ x.gap) ∧
    (let x := (ticking (tracking 131072 0 0 512000 1000)).timebase 0; x.state = .track ∧ x.nominal / 2 ≤ x.gap) ∧
    (let x := (ticking { tracking 131072 0 8 1024000 1967 with state := .locked }).timebase 0
     x.state = .locked ∧ x.nominal / 2 ≤ x.gap ∧
       4 * x.settings.window < (max (-32767) (min 32767 (x.slip + x.strobes - 2000 * 1))).natAbs) ∧
    ((ticking { tracking 131072 0 0 1536000 3000 with state := .holdover, missed := 1 }).timebase 0).state = .holdover ∧
    (let y := { tracking 131072 0 1 0 0 with reacquire := some 95 }
     y.reacquire = some 95 ∧ y.state ≠ .locked ∧ y.settings.reacquire ≤ 95 + 1) := by decide +kernel

theorem witness_GapLimitsRunOut :
    (demo.timebase 0).state = .track ∧ ((ticking { state := .locked }).timebase 0).state = .locked ∧
      ((demo.timebase 1).state ≠ .track ∧ (demo.timebase 1).state ≠ .locked ∧ (demo.timebase 1).state ≠ .holdover) ∧
      (let x := (ticking { state := .holdover, missed := 11 }).timebase 0
       x.state = .holdover ∧ x.missed < x.settings.holdover) ∧
      (let x := (ticking { state := .holdover, missed := 12 }).timebase 0
       x.state = .holdover ∧ x.settings.holdover ≤ x.missed) ∧
      (demo.program 0).state = .running ∧ (demo.program 1).state ≠ .running ∧
      (let x := (ticking { state := .seek, reference := true }).timebase 0; x.state = .seek ∧ x.reference = true) ∧
      ((demo.timebase 1).state ≠ .seek ∨ (demo.timebase 1).reference = false) := by decide +kernel

/-- A strobe 512 cycles after the accumulator stood at 0, the fall of its clock 256 cycles after; a strobe in the next cycle
of an accumulator that stands above D, and a fall in the next cycle of one that stands above D / 2. -/
theorem witness_WordClockEdges :
    (demo.timebase 1).state = .stopped ∧
      (let x := demo.timebase 0
       x.state ≠ .stopped ∧ 0 < 512 ∧ x.accumulator + 256 * (512 - 1) < x.divisor ∧
         x.divisor ≤ x.accumulator + 256 * 512 ∧ x.wordClock = false) ∧
      (let x := (ticking { tracking 131072 0 0 0 0 with wordClock := true }).timebase 0
       x.state ≠ .stopped ∧ x.wordClock = true ∧ 0 < 256 ∧ x.accumulator + 256 * (256 - 1) < x.divisor / 2 ∧
         x.divisor / 2 ≤ x.accumulator + 256 * 256) ∧
      (let x := (ticking { tracking 127744 0 0 0 0 with accumulator := 130000 }).timebase 0
       x.state ≠ .stopped ∧ x.divisor ≤ x.accumulator ∧ x.divisor ≤ x.accumulator + 256 * 1) ∧
      (let x := (ticking { tracking 127744 0 0 0 0 with accumulator := 100000, wordClock := true }).timebase 0
       x.state ≠ .stopped ∧ x.wordClock = true ∧ x.accumulator + 256 < x.divisor ∧
         x.divisor / 2 ≤ x.accumulator ∧ x.divisor / 2 ≤ x.accumulator + 256 * 1) := by decide +kernel

/-! ### Programs -/

/-- The demonstration with another program unit in field 0. -/
def playing (p : ProgramUnit) : State := demo.setProgram 0 p

/-- A draft one segment short of full, and a full one; the widest arguments. -/
theorem witness_ProgramsAreBuiltInDraft :
    PortFree demo ∧ (demo.program 1).state = .dark ∧ (23 ≤ 23 ∨ 23 = 0xFF) ∧ (0xFF ≤ 23 ∨ 0xFF = 0xFF) ∧
      (1048575 ≤ 1048575 ∧ 1 ≤ 1 ∧ 15 < 16) ∧ (1 = 1 → 65535 ≤ 65535) ∧ ¬ (1 = 1 → 65536 ≤ 65535) ∧
      (0 = 1 → 65536 ≤ 65535) ∧ ¬ (24 ≤ 23 ∨ 24 = 0xFF) ∧
      (let s := playing { record := .draft bill (List.replicate 23 feature) }
       (s.program 0).state = .dark ∧ (s.program 0).record = .draft bill (List.replicate 23 feature) ∧
         (List.replicate 23 feature).length < 24 ∧ 1 ≤ 1 ∧ 255 ≤ 255) ∧
      (let s := playing { record := .draft bill (List.replicate 24 feature) }
       (s.program 0).record = .draft bill (List.replicate 24 feature) ∧ 24 ≤ (List.replicate 24 feature).length) :=
  ⟨demo_free, by decide +kernel⟩

/-- A field that is not DARK, one without a draft, and a draft given a segment of no kind. -/
theorem witness_ProgramsAreBuiltInDraft_refusals :
    PortFree demo ∧ 4 ≤ 4 ∧ (demo.program 0).state ≠ .dark ∧
      ((1 : FieldNo).val = 1 ∧ (demo.program 1).state = .dark ∧ (demo.program 1).record = .empty) ∧
      (let s := playing { record := .draft bill [] }
       (s.program 0).state = .dark ∧ (s.program 0).record = .draft bill [] ∧ 1 < 2) :=
  ⟨demo_free, by decide +kernel⟩

/-- A field that is not DARK, and one that is not configured. -/
theorem witness_OpenFieldLoadsTheDraft_refusals :
    PortFree demo ∧ 4 ≤ 4 ∧ (demo.program 0).state ≠ .dark ∧ ((1 : FieldNo).val = 1 ∧ (demo.unit 1).rows = 0) :=
  ⟨demo_free, by decide +kernel⟩

/-- Drafts at both ends of N_s, one that is too short, one whose cutoff segment is missing, one without segments, and no
draft. -/
theorem witness_OpenFieldLoadsTheDraft :
    let valid (header : Header) (segs : List Segment) : Prop :=
      segs ≠ [] ∧ (∀ c, header.cutoffSegment = some c → c < segs.length) ∧ 1500 ≤ header.ns ∧ header.ns ≤ 2500
    let s := playing { record := .draft bill [feature, interval] }
    PortFree s ∧ (s.program 0).state = .dark ∧ (s.unit 0).rows ≠ 0 ∧ (s.program 0).record = .draft bill [feature, interval] ∧
      valid { bill with ns := 1500 } [feature, interval] ∧ valid { bill with ns := 2500 } [feature, interval] ∧
      ¬ valid { bill with ns := 1499 } [feature, interval] ∧ ¬ valid bill [feature] ∧ ¬ valid bill [] ∧
      ((playing {}).program 0).record = .empty := by
  refine ⟨And.intro rfl rfl, by decide +kernel, by decide +kernel, by decide +kernel, ?_, ?_, ?_, ?_, ?_, by decide +kernel⟩ <;>
    simp [bill]

/-- Each state of the field; a trip held for it, in a segment that keeps runners back and in one that lets them walk. -/
theorem witness_ShowCommandsMoveTheShow :
    (let s := (playing { showing with segment := 1 }).setTrip 2 { state := .fieldHold, field := some 0, orders := [2] }
     (s.trip 2).state = .fieldHold ∧ (s.trip 2).field = some 0 ∧
       (s.program 0).record.segments[(s.program 0).segment]? = some interval ∧ interval.runners = true) ∧
    ((demo.program 0).state = .running ∧ (demo.program 0).record.segments[0]? = some feature ∧ feature.runners = false) ∧
    PortFree demo ∧ ((playing { showing with state := .opened }).program 0).state = .opened ∧
      (demo.program 0).state = .running ∧ (demo.program 0).record.segments[0 + 1]? = some interval ∧
      ((playing { showing with state := .paused .stall }).program 0).state = .paused .stall ∧
      ((playing { showing with state := .paused .host }).program 0).state = .paused .host ∧
      (let p := (playing { showing with segment := 1 }).program 0
       p.state = .running ∧ p.record.segments.length ≤ p.segment + 1) ∧
      (demo.program 1).state = .dark :=
  ⟨by decide +kernel, by decide +kernel, demo_free, by decide +kernel⟩

/-- A field that holds cars, with a lane that serves one, sets LENT and ISSUING and orders, and an empty field; stalls, sets
and cars agree. -/
theorem witness_CloseFieldDarkensTheField :
    (let s := playing { showing with state := .opened }
     PortFree s ∧ StallLaw s ∧ SetLaw s ∧ (s.program 0).state = .opened ∧ (s.unit 0).occupancy ≠ 0 ∧
       (s.car 2 = some cars[2] ∧ cars[2].field = 0 ∧ (s.lane 0).served = some 2) ∧ (s.lane 1).served = none ∧
       ((s.slot 3).car = some 0 ∧ (s.slot 3).state = .lent) ∧ ((s.slot 5).car = some 1 ∧ (s.slot 5).state = .issuing) ∧
       (s.slot 6).car = none ∧ (s.car 0 = some cars[0] ∧ 2 ∈ cars[0].orders) ∧ s.tally (.sets .lost) ≤ 65535) ∧
    (let s := demo.setProgram 1 { showing with state := .ended }
     PortFree s ∧ (s.program 1).state = .ended ∧ (s.unit 1).occupancy = 0) ∧
    (demo.program 0).state ≠ .opened ∧ (demo.program 0).state ≠ .ended := by
  have sets := witness_SetLawIsKept.1
  have st := demo_stalls
  refine ⟨⟨And.intro rfl rfl, ⟨st.configuration, by decide +kernel, st.parked, st.placed, ?_, st.named⟩,
    ⟨sets.bays, sets.docked, sets.undocked, sets.withCar, sets.timed, sets.cars, sets.limit, sets.serials⟩,
    by decide +kernel⟩, ⟨And.intro rfl rfl, by decide +kernel⟩, by decide +kernel⟩
  exact demo_cars (fun _ c => ((playing { showing with state := .opened }).program c.field).state ≠ .dark)
    (by decide +kernel)

/-- The demonstration's orders where field 1 is closed: each stage but READY on no list of a car of that field, the queues and
trips in agreement. -/
theorem witness_CloseFieldDarkensTheField_others :
    let s := demo.setProgram 1 { showing with state := .ended }
    QueueLaw s ∧ TripLaw s ∧ PortFree s ∧ (s.program 1).state = .ended ∧
      (∀ o, o ∉ (((List.finRange 1024).filterMap s.car).filter fun c => c.field == 1).flatMap Car.orders) ∧
      (∀ h c, s.car h = some c → c.field = 1 → (0 : OrderHandle) ∉ c.orders) ∧
      [0, 1, 3, 4].map (fun o => (s.order o).map fun x => (x.stage, x.field)) =
        [some (.preparing, 0), some (.parked, 0), some (.onTrip, 0), some (.queued, 0)] ∧
      (∀ o ord, s.order o = some ord → ord.stage = .parked → ord.field ≠ 1) ∧ (s.trip 1).state = .out ∧
      ((s.trip 0).state = .gathering ∧ (s.trip 0).orders ≠ []) := by
  have field := demo_cars (fun _ c => c.field = 0) (by decide +kernel)
  refine ⟨⟨demo_queues.1, demo_queues.2, demo_queues.3, demo_queues.4, demo_queues.5, demo_queues.6, demo_queues.7,
      demo_queues.8, demo_queues.9, demo_queues.10, demo_queues.11⟩,
    ⟨demo_trips.1, demo_trips.2, demo_trips.3, demo_trips.4, demo_trips.5, demo_trips.6, demo_trips.7, demo_trips.8,
      demo_trips.9, demo_trips.10, demo_trips.11, demo_trips.12⟩, And.intro rfl rfl, by decide +kernel, fun o ho => ?_,
    fun h c e e' => absurd (field h c e) (e' ▸ by decide), by decide +kernel,
    demo_orders (fun _ ord => ord.stage = .parked → ord.field ≠ 1) (by decide +kernel), by decide +kernel⟩
  simp only [List.mem_flatMap, List.mem_filter, List.mem_filterMap, beq_iff_eq] at ho
  obtain ⟨c, ⟨⟨h, -, e⟩, e'⟩, -⟩ := ho
  exact absurd (field h c e) (e' ▸ by decide)

/-- Eight trips out with an order each, and a ninth order ready with none to take it. -/
def allOut : List (Option Order) :=
  (List.finRange 8).map (fun k => some { ordered 5 .onTrip [line 0 .finished] with trip := some k }) ++
    [some (ordered 5 .ready [line 0 .finished])]

def waitingForATrip : State :=
  { demo.setProgram 1 { showing with state := .ended } with
    orders := table 256 allOut none
    parked := [], stations := Vector.replicate 4 {}, readyList := [8]
    trips := Vector.ofFn fun k => { state := .out, field := some 0, orders := [Fin.castLE (by decide) k] } }

theorem waitingForATrip_orders (p : OrderHandle → Order → Prop)
    (h : ∀ k (hk : k < allOut.length) (hn : k < 256), ∀ ord ∈ allOut[k], p ⟨k, hn⟩ ord) :
    ∀ o ord, waitingForATrip.order o = some ord → p o ord := by
  refine fun o => table_all (fun o (x : Option Order) => ∀ ord, x = some ord → p o ord) allOut none
    (fun k hk hn ord e => h k hk hn ord e) (fun o ord e => by simp at e) o

/-- A READY order on the ready list, in a state whose queues and trips agree. -/
theorem witness_CloseFieldDarkensTheField_ready :
    let s := waitingForATrip
    QueueLaw s ∧ TripLaw s ∧ PortFree s ∧ (s.program 1).state = .ended ∧
      (∀ o, o ∉ (((List.finRange 1024).filterMap s.car).filter fun c => c.field == 1).flatMap Car.orders) ∧
      (s.order 8 = some (ordered 5 .ready [line 0 .finished]) ∧ (8 : OrderHandle) ∈ s.readyList) := by
  have stage := waitingForATrip_orders (fun _ ord => ord.stage = .onTrip ∨ ord.stage = .ready) (by decide +kernel)
  have never {o ord} (e : waitingForATrip.order o = some ord) : ord.stage ≠ .parked ∧ ord.stage ≠ .queued ∧
      ord.stage ≠ .preparing := by
    rcases stage o ord e with h | h <;> simp [h]
  have queue : ∀ n, (waitingForATrip.station n).queue = [] := by decide +kernel
  refine ⟨{
      parked := fun o => ⟨fun h => by simp [waitingForATrip] at h, fun ⟨ord, e, h⟩ => absurd h (never e).1⟩
      parkedOnce := by decide +kernel
      due := waitingForATrip_orders _ (by decide +kernel)
      timer := waitingForATrip_orders _ (by decide +kernel)
      lines := waitingForATrip_orders _ (by decide +kernel)
      waiting := waitingForATrip_orders _ (by decide +kernel)
      started := waitingForATrip_orders _ (by decide +kernel)
      finished := waitingForATrip_orders _ (by decide +kernel)
      queuesOnce := by decide +kernel
      queues := fun n o k => ⟨fun h => by simp [queue] at h, fun ⟨ord, l, e, h, _⟩ => (h.elim (never e).2.1 (never e).2.2).elim⟩
      unfinished := fun o ord e h => (h.elim (never e).2.1 (never e).2.2).elim },
    { idle := by decide +kernel
      field := by decide +kernel
      timer := by decide +kernel
      members := fun k o => ?_
      stages := fun o ord k e h => ?_
      onTrip := waitingForATrip_orders _ (by decide +kernel)
      once := by decide +kernel
      size := by decide +kernel
      ready := fun o => ?_
      readyOnce := by decide +kernel
      formed := fun _ => by decide +kernel
      joined := fun _ _ _ _ k _ h => ?_ },
    And.intro rfl rfl, by decide +kernel, fun o ho => ?_, by decide +kernel⟩
  · constructor
    · intro h
      have all : ∀ k, ((waitingForATrip.trip k).orders.all fun o =>
          (waitingForATrip.order o).any fun ord => ord.trip == some k) = true := by decide +kernel
      simpa [Option.any_eq_true] using List.all_eq_true.mp (all k) o h
    · rintro ⟨ord, e, h⟩
      have := waitingForATrip_orders (fun o ord => ord.trip.all (fun k => (waitingForATrip.trip k).orders.contains o) = true)
        (by decide +kernel) o ord e
      simpa [h] using this
  · have := waitingForATrip_orders (fun o ord => ord.trip.all (fun k => (waitingForATrip.trip k).field == some ord.field &&
        ord.stage == if (waitingForATrip.trip k).state = .out then .onTrip else .ready) = true) (by decide +kernel) o ord e
    simpa [h] using this
  · constructor
    · intro h
      obtain rfl : o = 8 := by simpa [waitingForATrip] using h
      exact ⟨ordered 5 .ready [line 0 .finished], by decide +kernel, rfl, rfl⟩
    · rintro ⟨ord, e, h, h'⟩
      exact waitingForATrip_orders (fun o ord => ord.stage = .ready → ord.trip = none → o ∈ waitingForATrip.readyList)
        (by decide +kernel) o ord e h h'
  · have all : ∀ k, (waitingForATrip.trip k).state = .out := by decide +kernel
    rcases h.1 with h | h <;> simp [all] at h
  · simp only [List.mem_flatMap, List.mem_filter, List.mem_filterMap, beq_iff_eq] at ho
    obtain ⟨c, ⟨⟨h, -, e⟩, e'⟩, -⟩ := ho
    exact absurd (demo_cars (fun _ c => c.field = 0) (by decide +kernel) h c e) (e' ▸ by decide)

/-- The last frame of the program, and the frame after it. -/
theorem witness_FrameAdvanceWalksTheProgram :
    showing.record.segments[showing.segment]? = some feature ∧ showing.frame < feature.length ∧
      0 + showing.frame + 1499 < (showing.record.segments.map Segment.length).sum ∧
      (showing.record.segments.map Segment.length).sum ≤ 0 + showing.frame + 1500 ∧
      (showing.state = .running ∧ (showing.advance 999).ranOut = false ∧ (showing.advance 999).entered = false) ∧
      ((showing.advance 1000).ranOut = false ∧ (showing.advance 1000).entered = true) ∧
      (showing.advance 1500).ranOut = true ∧ { showing with state := .paused .host }.state ≠ .running := by decide

theorem witness_CarrierIsWatchedWhileTransmitting :
    ((demo.program 0).carrier = true ∧ (demo.program 0).txen = true) ∧ (demo.program 1).carrier = false ∧
      (let p := (playing { carrier := true }).program 0; p.carrier = true ∧ p.txen = false) := by decide +kernel

/-! ### Lanes -/

/-- The demonstration with another record in a lane. -/
def laned (l : LaneNo) (x : Lane) : State := demo.setLane l x

theorem witness_LoopEventsByLaneState :
    demo.port.select ≠ .inReset ∧ resetDemo.port.select = .inReset ∧
    (let x := demo.lane 2
     x.arrival.level = .clear ∧ x.state = .idle ∧ x.pass.level = .clear ∧ x.state ≠ .opened) ∧
    (let x := demo.lane 1; x.arrival.level = .occupied ∧ x.state = .waiting) ∧
    (let x := (laned 1 { state := .refused, arrival := LoopInput.settled .occupied }).lane 1
     x.arrival.level = .occupied ∧ x.state ≠ .waiting) ∧
    (let x := demo.lane 0
     x.arrival.level = .clear ∧ x.state ≠ .idle ∧ x.pass.level = .clear ∧ x.state = .opened) ∧
    (let x := (laned 2 { pass := LoopInput.settled .occupied }).lane 2
     x.pass.level = .occupied ∧ (x.state ≠ .opened ∨ x.begun = false)) ∧
    (let x := (laned 2 { state := .opened, pass := LoopInput.settled .occupied }).lane 2
     x.pass.level = .occupied ∧ (x.state ≠ .opened ∨ x.begun = false)) := by decide +kernel

/-- An open lane with its pass begun, serving a car or none. -/
def passing (served : Option CarHandle) (level : LoopLevel) : Lane :=
  { state := .opened, pass := LoopInput.settled .occupied, arrival := LoopInput.settled level, served := served
    begun := true, barrier := true, timer := some 1 }

/-- The highest entry lane, the lowest exit lane, lanes that serve no car. -/
theorem witness_APassCompletesAndClosesTheLane :
    (let s := laned 3 (passing (some 2) .occupied); let x := s.lane 3
     x.state = .opened ∧ x.begun = true ∧ x.pass.level = .occupied ∧ x.arrival.level = .occupied ∧ (3 : LaneNo).val < 4 ∧
       x.served = some 2 ∧ s.car 2 = some cars[2]) ∧
    (let s := laned 4 (passing (some 3) .clear); let x := s.lane 4
     x.state = .opened ∧ x.begun = true ∧ x.pass.level = .occupied ∧ 4 ≤ (4 : LaneNo).val ∧ x.served = some 3 ∧
       s.car 3 = some cars[3] ∧ cars[3].lent = none) ∧
    ((laned 5 (passing none .clear)).lane 5).served = none ∧ ((laned 0 (passing none .clear)).lane 0).served = none := by
  decide +kernel

theorem witness_PassTimersRunOut :
    (∃ n : Fin 4, Instr.entryPassTimerExpiry 3 = .entryPassTimerExpiry n ∧ 3 = entryLane n) ∧
    (∃ n : Fin 2, Instr.exitPassTimerExpiry 0 = .exitPassTimerExpiry n ∧ 4 = exitLane n) ∧
    (demo.lane 3).timer = none ∧
    (let s := laned 3 { passing (some 2) .occupied with pass := {} }; let x := s.lane 3
     x.state = .opened ∧ x.timer ≠ none ∧ x.pass.level = .clear ∧ x.arrival.level = .occupied ∧ (3 : LaneNo).val < 4 ∧
       x.served = some 2 ∧ s.car 2 = some cars[2] ∧ cars[2].lent = none) ∧
    (let x := (laned 3 (passing (some 2) .clear)).lane 3
     x.state = .opened ∧ x.timer ≠ none ∧ x.pass.level = .occupied) ∧
    (let x := demo.lane 4
     x.state = .opened ∧ x.timer ≠ none ∧ x.pass.level = .clear ∧ 4 ≤ (4 : LaneNo).val ∧ x.served = some 3 ∧
       demo.car 3 = some cars[3]) ∧
    (let x := (laned 5 { passing none .clear with pass := {} }).lane 5
     x.state = .opened ∧ x.timer ≠ none ∧ x.pass.level = .clear ∧ x.served = none) :=
  ⟨⟨3, rfl, rfl⟩, ⟨0, rfl, rfl⟩, by decide +kernel⟩

/-- Without a named stall, and into the accessible stall that is named. -/
theorem witness_AdmitMakesTheEntryAndOpensTheLane :
    PortFree demo ∧ 4294967295 ≤ 4294967295 ∧
      plateOf (List.replicate 8 38) = some (List.replicate 8 PlatePos.unread) ∧ (15 ≤ 15 ∧ 1 ≤ 15) ∧
      (demo.lane (entryLane 1)).state = .waiting ∧ (demo.program 0).state = .running ∧
      (demo.program 0).pastCutoff = false ∧ (∀ h c, demo.car h = some c → c.ticket ≠ 4294967295) ∧
      demo.car 6 = none ∧ (∀ h, h < 6 → demo.car h ≠ none) ∧ (demo.unit 0).choose .standard none = .ok ⟨0, 4⟩ ∧
      (demo.unit 0).choose .accessible (some ⟨0, 0⟩) = .ok ⟨0, 0⟩ := by
  refine ⟨demo_free, by decide, by decide, by decide, by decide +kernel, by decide +kernel, by decide +kernel,
    demo_cars (fun _ c => c.ticket ≠ 4294967295) (by decide +kernel), by decide +kernel, fun h hh e => ?_,
    by decide +kernel, by decide +kernel⟩
  have := demo_car h.val hh
  rw [show (⟨h.val, _⟩ : CarHandle) = h from rfl] at this
  rw [this] at e
  cases e

/-- The demonstration with another record of car 5, which is PRESENT. -/
def driven (c : Car) : State := demo.setCar 5 (some c)

/-- Each refusal of ADMIT, each of REFUSE and LET OUT, each case of DEPART. -/
theorem witness_LanesOpenForTheWaitingAlone :
    PortFree demo ∧ plateOf (List.replicate 8 38) = some (List.replicate 8 PlatePos.unread) ∧
      (demo.lane (entryLane 2)).state ≠ .waiting ∧ (demo.lane (entryLane 1)).state = .waiting ∧
      ((playing { showing with state := .ended }).program 0).state = .ended ∧ (demo.program 3).state = .dark ∧
      ((playing { showing with segment := 1 }).program 0).pastCutoff = true ∧
      (∃ h, ((demo.car h).map Car.ticket) = some 1001) ∧
      (∀ h, ({ demo with entries := Vector.replicate 1024 { car := some (parkedCar 0 0 1) } } : State).car h ≠ none) ∧
      ({ stand with closed := 3 } : FieldUnit).choose .standard none = .error .noStall ∧
      stand.choose .standard (some ⟨0, 2⟩) = .error .badStall ∧
      (demo.lane (exitLane 0)).state ≠ .waiting ∧ (demo.lane (exitLane 1)).state = .waiting ∧
      demo.car 5 = some cars[5] ∧ (cars[5].state = .present ∧ cars[5].held = false ∧ cars[5].lent = none) ∧
      (demo.car 2 = some cars[2] ∧ cars[2].state ≠ .present) ∧ (demo.car 4 = some cars[4] ∧ cars[4].held = true) ∧
      (demo.car 0 = some cars[0] ∧ cars[0].lent = some (3, .lent)) ∧
      (demo.car 1 = some cars[1] ∧ cars[1].lent = some (5, .issuing) ∧ (demo.slot 5).car = some 1) := by
  refine ⟨demo_free, by decide, by decide +kernel, by decide +kernel, by decide +kernel, by decide +kernel,
    by decide +kernel, ⟨0, by decide +kernel⟩, fun h => by simp [State.car, State.entry], by decide +kernel⟩

/-- The first lane, field, class and car that there is not, and a VACANT entry at a waiting exit lane. -/
theorem witness_LanesOpenForTheWaitingAlone_refusals :
    PortFree demo ∧ (4 ≤ 4 ∧ 2 < 3 ∧ 15 < 16 ∧ 4294967295 < 4294967296) ∧ ¬ (6 = 4 ∨ 6 = 5) ∧ 1024 ≤ 1024 ∧
      ((1023 : CarHandle).val = 1023 ∧ (5 = 4 ∨ 5 = 5) ∧ demo.car 1023 = none) :=
  ⟨demo_free, by decide, by decide, by decide, rfl, by decide, demo_last⟩

/-! ### The lot register -/

/-- A VACANT entry, the first handle that there is not, an undefined flag and flagged items out of their ranges. -/
theorem witness_HeldEntriesAreEdited_refusals :
    PortFree demo ∧ 1024 ≤ 1024 ∧ (1023 < 1024 ∧ ∀ h : CarHandle, h.val = 1023 → demo.car h = none) ∧ 8 ≤ 8 ∧
      ((1 : Nat).testBit 0 = true ∧ (List.replicate 7 0).length ≠ 8) ∧ ((2 : Nat).testBit 1 = true ∧ 2 < 3) ∧
      ((4 : Nat).testBit 2 = true ∧ 15 < 16) := by
  refine ⟨demo_free, by decide, ⟨by decide, fun h e => ?_⟩, by decide, by decide, by decide, by decide⟩
  obtain rfl : h = 1023 := Fin.ext e
  exact demo_last

/-- Not PRESENT, held, free to be held; flags of all items with a class that fits and one that does not. -/
theorem witness_HeldEntriesAreEdited :
    PortFree demo ∧ (demo.car 2 = some cars[2] ∧ cars[2].state ≠ .present ∧ cars[2].held = false) ∧
      (demo.car 4 = some cars[4] ∧ cars[4].state = .present ∧ cars[4].held = true) ∧
      (demo.car 5 = some cars[5] ∧ cars[5].state = .present ∧ cars[5].held = false) ∧ 7 < 8 ∧
      plateOf (List.replicate 8 0) = some (List.replicate 8 (.symbol 0)) ∧ classOf 1 = some .tall ∧ 15 ≤ 15 ∧
      (demo.unit cars[4].field).fits .tall cars[4].stall = true ∧
      (let s := demo.setCar 5 (some { parkedCar 0 4 1006 with held := true })
       s.car 5 = some { parkedCar 0 4 1006 with held := true } ∧ (s.unit 0).fits .tall ⟨0, 4⟩ = false) :=
  ⟨demo_free, by decide +kernel⟩

/-- The demonstration with field 1 open beside field 0. -/
def twoFields : State :=
  (demo.setProgram 1 { showing with state := .opened }).setUnit 1
    { rows := 1, posts := 1, tall := 1, accessible := 0, channel := some 8, signOn := 0, signOff := 1 }

/-- Within the field and to another, with a stall to be had and with none. -/
theorem witness_MoveEntryChangesTheStall :
    PortFree twoFields ∧ twoFields.car 4 = some cars[4] ∧ (1 = (1 : FieldNo).val ∧ 0xFF = 0xFF) ∧
      (twoFields.car 5 = some cars[5] ∧ cars[5].held = false) ∧
      (cars[4].held = true ∧ (1 : FieldNo) ≠ cars[4].field ∧ cars[4].lent = none ∧ cars[4].orders = []) ∧
      (let c := { cars[0] with held := true }
       (twoFields.setCar 0 (some c)).car 0 = some c ∧ c.held = true ∧ (1 : FieldNo) ≠ c.field ∧ c.lent ≠ none) ∧
      ((twoFields.program 1).pastCutoff = false ∧ (twoFields.program 1).state ≠ .dark ∧
        (twoFields.program 1).state ≠ .ended) ∧
      (twoFields.unit 1).choose .standard none = .ok ⟨0, 0⟩ ∧
      (twoFields.unit 0).choose .standard none = .ok ⟨0, 4⟩ ∧
      (twoFields.unit 0).choose .standard (some ⟨0, 2⟩) = .error .badStall :=
  ⟨And.intro rfl rfl, by decide +kernel⟩

/-- A car that may cross, to a field that is DARK, one that is ENDED and one past its cutoff; a VACANT entry, and arguments
one outside their ranges. -/
theorem witness_MoveEntryChangesTheStall_refusals :
    let other (p : ProgramUnit) : State := twoFields.setProgram 1 p
    PortFree twoFields ∧ (4 ≤ 4 ∧ 4 ≠ 0xFF) ∧ (1 ≠ 0 ∧ 32 < 33) ∧ 1024 ≤ 1024 ∧ twoFields.car 1023 = none ∧
      (cars[4].held = true ∧ (2 : FieldNo) ≠ cars[4].field ∧ cars[4].lent = none ∧ cars[4].orders = [] ∧
        (twoFields.program 2).state = .dark) ∧
      ((other { showing with state := .ended }).program 1).state = .ended ∧
      (let p := (other { showing with segment := 1 }).program 1
       p.state ≠ .dark ∧ p.state ≠ .ended ∧ p.pastCutoff = true) :=
  ⟨And.intro rfl rfl, by decide, by decide, by decide, demo_last, by decide +kernel⟩

theorem witness_RetireEntryEndsTheCar_refusals :
    PortFree demo ∧ 1024 ≤ 1024 ∧ 1 < 2 ∧ (1023 : CarHandle).val = 1023 ∧ demo.car 1023 = none ∧ 1 ≤ 1 :=
  ⟨demo_free, by decide, by decide, rfl, demo_last, by decide⟩

theorem witness_RetireEntryEndsTheCar :
    PortFree demo ∧ (demo.car 2 = some cars[2] ∧ cars[2].state ≠ .present) ∧
      (demo.car 4 = some cars[4] ∧ cars[4].state = .present ∧ cars[4].held = true) ∧
      (demo.car 0 = some cars[0] ∧ cars[0].state = .present ∧ cars[0].held = false ∧
        cars[0].lent = some (3, .lent) ∧ (demo.slot 3).car = some 0) ∧
      (demo.car 1 = some cars[1] ∧ cars[1].state = .present ∧ cars[1].held = false ∧
        cars[1].lent = some (5, .issuing) ∧ (demo.slot 5).car = some 1) ∧
      (demo.car 5 = some cars[5] ∧ cars[5].lent = none) ∧ 0 ≤ 1 ∧ 1 ≤ 1 :=
  ⟨demo_free, by decide +kernel⟩

/-- An order that is told of its car's retirement: at each stage, PREPARING with a line on the stove and without, and with
a cancel pending. -/
theorem witness_RetireEntryEndsTheCar_orders :
    let at' (o : OrderHandle) : Option (Stage × Bool) := (demo.order o).map fun x => (x.stage, x.cancelPending)
    demo.order 255 = none ∧ at' 3 = some (.onTrip, false) ∧ at' 1 = some (.parked, false) ∧
      at' 4 = some (.queued, false) ∧ at' 2 = some (.ready, false) ∧ at' 0 = some (.preparing, false) ∧
      ((0, 0) ∈ (demo.station 0).queue ∧ ((demo.order 0).bind fun x => x.lines[0]?.map OrderLine.state) = some .started ∧
        (0 : OrderHandle) ∉ demo.parked) ∧
      (∀ n, (({ demo with stations := Vector.replicate 4 {} } : State).station n).queue = []) ∧
      ((demo.setOrder 9 (some { ordered 0 .ready [] with cancelPending := true })).order 9).map Order.cancelPending =
        some true ∧
      demo.tally (.kitchen .wasteLines) ≤ 65535 ∧ demo.attention.notes.length < 8 := by
  decide +kernel

/-! ### Receiver sets -/

/-- The pool with every slot enrolled but the last. -/
def lastFree : State :=
  { demo with
    sets := put (Vector.ofFn fun n => { state := .absent, serial := n.val + 1 }) 127 {} }

theorem witness_EnrolSetTakesTheLowestFreeSlot :
    PortFree demo ∧ (∃ n, (demo.slot n).state ≠ .unenrolled ∧ (demo.slot n).serial = 33) ∧
      (¬ (∃ n, (lastFree.slot n).state ≠ .unenrolled ∧ (lastFree.slot n).serial = 281474976710655) ∧
        (lastFree.slot 127).state = .unenrolled ∧ ∀ m, m < 127 → (lastFree.slot m).state ≠ .unenrolled) ∧
      (∀ n, ({ demo with sets := Vector.replicate 128 { state := .absent, serial := 1 } } : State).slot n ≠ {}) ∧
      PortFree lastFree := by
  have key : ∀ m : SetHandle, lastFree.slot m = if m = 127 then {} else { state := .absent, serial := m.val + 1 } := by
    intro m
    simp only [lastFree, State.slot, look_put]
    by_cases h : (127 : SetHandle) = m
    · simp [h]
    · simp [h, Ne.symm h, look]
  refine ⟨demo_free, ⟨3, by decide +kernel⟩, ⟨?_, by simp [key], fun m hm => ?_⟩, fun n => by simp [State.slot], And.intro rfl rfl⟩
  · rintro ⟨n, -, h⟩
    rw [key] at h
    split at h
    · exact absurd h (by decide)
    · have := n.isLt
      simp at h
      omega
  · simp [key, hm.ne]

/-- Slots UNENROLLED, ISSUING, LENT and otherwise; cars that may not be lent a set; the pool with four ISSUING, with no
READY set, and with one that is chosen. -/
theorem witness_SetsAreRemovedAndLent :
    PortFree demo ∧
      ((demo.slot 127).state = .unenrolled ∧ (demo.slot 5).state = .issuing ∧ (demo.slot 3).state = .lent ∧
        (demo.slot 7).state ≠ .unenrolled ∧ (demo.slot 7).state ≠ .issuing ∧ (demo.slot 7).state ≠ .lent) ∧
      ((demo.car 2 = some cars[2] ∧ cars[2].state ≠ .present) ∧
        (demo.car 4 = some cars[4] ∧ cars[4].state = .present ∧ cars[4].held = true) ∧
        (demo.car 0 = some cars[0] ∧ cars[0].state = .present ∧ cars[0].held = false ∧ cars[0].lent ≠ none) ∧
        (demo.car 5 = some cars[5] ∧ cars[5].state = .present ∧ cars[5].held = false ∧ cars[5].lent = none)) ∧
      ((playing { showing with state := .ended }).program cars[5].field).state = .ended ∧
      (demo.program cars[5].field).state ≠ .ended ∧
      4 ≤ (countOf fun n => ((((demo.setSlot 0 (pool[5])).setSlot 1 (pool[5])).setSlot 2 (pool[5])).slot n).state == .issuing) ∧
      (countOf fun n => (demo.slot n).state == .issuing) < 4 ∧
      (∀ n, ((demo.setSlot 6 {}).slot n).state ≠ .ready) ∧
      ((demo.slot 6).state = .ready ∧ ∀ m, (demo.slot m).state = .ready →
        (demo.slot m).charge < (demo.slot 6).charge ∨ ((demo.slot m).charge = (demo.slot 6).charge ∧ 6 ≤ m)) := by
  have slots : (demo.slot 127).state = .unenrolled ∧ (demo.slot 5).state = .issuing ∧ (demo.slot 3).state = .lent ∧
      (demo.slot 7).state ≠ .unenrolled ∧ (demo.slot 7).state ≠ .issuing ∧ (demo.slot 7).state ≠ .lent := by
    decide +kernel
  have four : 4 ≤ (countOf fun n =>
      ((((demo.setSlot 0 (pool[5])).setSlot 1 (pool[5])).setSlot 2 (pool[5])).slot n).state == .issuing) := by
    decide +kernel
  refine ⟨demo_free, slots, by decide +kernel, by decide +kernel, by decide +kernel, four, by decide +kernel,
    fun n => ?_, by decide +kernel, fun m => ?_⟩
  · by_cases h : (6 : SetHandle) = n
    · subst h; simp [State.slot, State.setSlot]
    · rw [show (demo.setSlot 6 {}).slot n = demo.slot n by simp [State.slot, State.setSlot, h]]
      exact demo_sets (fun n x => 6 ≠ n → x.state ≠ .ready) (by decide +kernel) (by simp) n h
  · exact demo_sets (fun m x => x.state = .ready → x.charge < (demo.slot 6).charge ∨ (x.charge = (demo.slot 6).charge ∧ 6 ≤ m))
      (by decide +kernel) (by simp) m

theorem witness_SetsAreRemovedAndLent_refusals :
    PortFree demo ∧ 128 ≤ 128 ∧ 1024 ≤ 1024 ∧ (1023 : CarHandle).val = 1023 ∧ demo.car 1023 = none :=
  ⟨demo_free, by decide, by decide, rfl, demo_last⟩

/-- A serial that no slot holds, and a set reported in a bay where another stands; a set lifted in each state. -/
theorem witness_SetsAreDockedAndLifted :
    PortFree demo ∧ SetLaw demo ∧ 99 ≠ 0 ∧ 100 ≤ 100 ∧
      (∀ n, (demo.slot n).state ≠ .unenrolled → (demo.slot n).serial ≠ 99) ∧
      ((demo.slot 3).state ≠ .unenrolled ∧ (demo.slot 3).serial = 33 ∧ demo.bay 2 = some 5) ∧
      demo.bay 127 = none ∧
      ((demo.slot 5).state = .issuing ∧ (demo.slot 5).car = some 1 ∧ demo.car 1 = some cars[1]) ∧
      (demo.bay 4 = some 6 ∧ (demo.slot 6).state = .ready) ∧ (demo.bay 6 = some 7 ∧ (demo.slot 7).state = .faulty) := by
  refine ⟨demo_free, witness_SetLawIsKept.1, by decide, by decide,
    demo_sets (fun _ x => x.state ≠ .unenrolled → x.serial ≠ 99) (by decide +kernel) (by simp), by decide +kernel⟩

theorem witness_ChargeFaultAndService :
    PortFree demo ∧ 128 ≤ 128 ∧ 100 < 101 ∧ 100 ≤ 100 ∧ (8 : BayNo).val = 8 ∧ demo.bay 8 = some 8 ∧ demo.bay 127 = none ∧
      (demo.bay 4 = some 6 ∧ (demo.slot 6).state ≠ .issuing) ∧
      (demo.bay 2 = some 5 ∧ (demo.slot 5).state = .issuing ∧ (demo.slot 5).car = some 1 ∧ demo.car 1 = some cars[1]) ∧
      (demo.slot 6).state ≠ .faulty ∧ ((7 : SetHandle).val = 7 ∧ (demo.slot 7).state = .faulty) :=
  ⟨demo_free, by decide +kernel⟩

/-! ### Orders -/

/-- Before the interval, in it, after it, and in a bill without one; a parked order that falls due in the interval, and does
not before it. -/
theorem witness_OrdersFallDueByTheRule :
    (let p := { showing with state := .ended, segment := 2 }
     p.state = .ended ∧ p.record.segments[p.segment]? = none) ∧
    (let s := playing { showing with segment := 1 }
     1 ∈ s.parked ∧ (s.order 1).any (fun ord => ord.stage == .parked && !ord.due && ord.field == 0 &&
       (s.program 0).isDue ord.mode && !(demo.program 0).isDue ord.mode) = true) ∧
    showing.record.segments[showing.segment]? = some feature ∧ showing.state ≠ .ended ∧ feature.kind = .picture ∧
      (showing.segment < 1 ∧ showing.record.segments[1]? = some interval ∧ interval.kind = .intermission ∧
        ∀ m seg, showing.segment < m → m < 1 → showing.record.segments[m]? = some seg → seg.kind = .picture) ∧
      (let p := { showing with segment := 1 }; p.record.segments[p.segment]? = some interval) ∧
      (let p := { showing with record := .loaded bill [feature, feature] }
       p.record.segments[p.segment]? = some feature ∧
         ∀ n seg, p.segment < n → p.record.segments[n]? = some seg → seg.kind = .picture) := by
  refine ⟨by decide, by decide +kernel, by decide, by decide, by decide,
    ⟨by decide, by decide, by decide, fun m seg h h' => ?_⟩, by decide, by decide, fun n seg h e => ?_⟩
  · omega
  · have := List.mem_of_getElem? e
    simp [ProgramRecord.segments] at this
    subst this
    rfl

/-- Lines of the widest order, for car 5, in the sixth slot: due in the show, due while the kitchen is in HOLD, and not
due before an intermission that is far off. -/
theorem witness_PlaceOrderParksOrReleases :
    let lines : List OrderLine := List.replicate 6 { item := 255, quantity := 9, station := 3, state := .waiting }
    (demo.hold = false ∧ demo.parked.Nodup ∧ ∀ o ∈ demo.parked, demo.order o ≠ none) ∧ PortFree demo ∧ demo.car 5 = some cars[5] ∧ cars[5].state = .present ∧ cars[5].held = false ∧
      (demo.program 0).state ≠ .ended ∧ cars[5].orders.length < 4 ∧ demo.order 5 = none ∧
      (∀ o, o < 5 → demo.order o ≠ none) ∧ (1 ≤ lines.length ∧ lines.length ≤ 6) ∧
      (∀ l ∈ lines, 1 ≤ l.quantity ∧ l.quantity ≤ 9 ∧ l.state = .waiting) ∧
      (demo.program 0).isDue .now = true ∧ (demo.program 0).isDue .atIntermission = false ∧ demo.hold = false ∧
      (5 : OrderHandle) ∉ demo.parked ∧ (∀ p ∈ demo.parked, ∀ ord, demo.order p = some ord → ord.due = false) ∧
      (∀ n, lines.countP (fun l => l.station == n) = 0 ∨
        (demo.station n).queue.length + lines.countP (fun l => l.station == n) ≤ 255) ∧
      ({ demo with hold := true } : State).hold = true := by
  refine ⟨by decide +kernel, demo_free, by decide +kernel, by decide, by decide, by decide +kernel, by decide, by decide +kernel, ?_,
    by decide, by decide, by decide +kernel, by decide +kernel, rfl, by decide, ?_, by decide +kernel, rfl⟩
  · have : ∀ k (hk : k < 5), demo.order ⟨k, Nat.lt_trans hk (by decide)⟩ ≠ none := by decide +kernel
    exact fun o ho => this o.val ho
  · intro p hp ord e
    obtain rfl : p = 1 := by simpa [demo] using hp
    have : (demo.order 1).all (fun ord => !ord.due) = true := by decide +kernel
    simpa [e] using this

/-- Each refusal of PLACE ORDER, as R134 has it. -/
theorem witness_PlaceOrderParksOrReleases_refusals :
    let full := { demo with orders := Vector.replicate 256 (some (ordered 0 .parked [])) }
    let bad : List LineArg := [⟨1, 9, 3⟩, ⟨1, 10, 0⟩]
    (1024 ≤ 1024 ∧ 1 < 2 ∧ 6 < 7 ∧ 2 ≠ [(⟨1, 1, 0⟩ : LineArg)].length ∧ 2 = bad.length ∧ (5 : CarHandle).val = 5) ∧
      demo.car 6 = none ∧ (demo.car 2 = some cars[2] ∧ cars[2].state ≠ .present) ∧
      (demo.car 4 = some cars[4] ∧ cars[4].state = .present ∧ cars[4].held = true) ∧
      (demo.car 5 = some cars[5] ∧ cars[5].state = .present ∧ cars[5].held = false ∧ cars[5].orders.length < 4) ∧
      ((playing { showing with state := .ended }).program cars[5].field).state = .ended ∧
      ((driven { cars[5] with orders := [3, 4, 6, 7] }).car 5).map (fun c => c.orders.length) = some 4 ∧
      (full.car 5 = some cars[5] ∧ ∀ o, full.order o ≠ none) ∧
      (¬ (∀ o, demo.order o ≠ none) ∧ ∃ l ∈ bad, l.quantity = 0 ∨ 9 < l.quantity ∨ 4 ≤ l.station) := by
  refine ⟨by decide, by decide +kernel, by decide +kernel, by decide +kernel, by decide +kernel, by decide +kernel,
    by decide +kernel, ⟨by decide +kernel, fun o => by simp [State.order]⟩,
    ⟨fun h => absurd (h 255) (by decide +kernel), by decide⟩⟩

/-- An order of each stage, free of and with a cancel; a PREPARING one with a line on the stove, and one without. -/
theorem witness_CancelOrderSettlesByStage :
    PortFree demo ∧ demo.order 255 = none ∧ (demo.order 3).map (fun x => (x.stage, x.cancelPending)) = some (.onTrip, false) ∧
      (demo.order 1).map (fun x => (x.stage, x.cancelPending)) = some (.parked, false) ∧
      (demo.order 4).map (fun x => (x.stage, x.cancelPending)) = some (.queued, false) ∧
      (demo.order 2).map (fun x => (x.stage, x.cancelPending)) = some (.ready, false) ∧
      demo.tally (.kitchen .wasteLines) ≤ 65535 ∧
      (demo.order 0 = book[0] ∧ (demo.order 0).map (fun x => (x.stage, x.cancelPending)) = some (.preparing, false) ∧
        (∃ n k, (0, k) ∈ (demo.station n).queue ∧
          ¬ ((demo.order 0).bind fun x => x.lines[k]?.map OrderLine.state) = some .waiting) ∧
        (0 : OrderHandle) ∉ demo.parked) ∧
      (let s := { demo with stations := Vector.replicate 4 {} }
       (s.order 0).map (fun x => (x.stage, x.cancelPending)) = some (.preparing, false) ∧
         ¬ ∃ n k, (0, k) ∈ (s.station n).queue) ∧
      ((demo.setOrder 9 (some { ordered 0 .onTrip [] with cancelPending := true })).order 9).map Order.cancelPending =
        some true := by
  refine ⟨demo_free, by decide +kernel, by decide +kernel, by decide +kernel, by decide +kernel, by decide +kernel,
    by decide +kernel, ⟨by decide +kernel, by decide +kernel, ⟨0, 0, by decide +kernel, by decide +kernel⟩, by decide +kernel⟩,
    ⟨by decide +kernel, ?_⟩, by decide +kernel⟩
  simp [State.station]

/-- A full FIELD_HOLD trip that one of its orders leaves, with an order of its field waiting; an order with a line in a queue
and one without; a PREPARING order with a line on the stove and one that waits. -/
theorem witness_CancelOrderSettlesByStage_parts :
    (let s : State := { demo.setTrip 0 { state := .fieldHold, field := some 0, orders := [2, 10, 11, 12, 13, 14] } with
       readyList := [20] }
     PortFree s ∧ s.order 2 = some { ordered 0 .ready [line 0 .finished] with trip := some 0 } ∧
       (s.trip 0).state = .fieldHold ∧ (s.trip 0).field = some 0 ∧ (s.trip 0).orders.erase 2 ≠ []) ∧
      256 ≤ 256 ∧ (demo.order 4 = book[4] ∧ (4, 0) ∈ (demo.station 3).queue) ∧
      (demo.order 3 = book[3] ∧ ∀ n, ((demo.station n).queue.all fun e => e.1 != 3) = true) ∧
      (demo.order 0 = book[0] ∧ (0, 0) ∈ (demo.station 0).queue ∧ (0, 1) ∈ (demo.station 1).queue ∧
        ([line 0 .started, line 1 .waiting].map OrderLine.state) = [.started, .waiting]) := by
  refine ⟨⟨And.intro rfl rfl, by decide +kernel⟩, by decide +kernel⟩

/-- A free slot, and a line number past the lines of an order. -/
theorem witness_StationsHandOutAndFinishLines_refusals :
    PortFree demo ∧ 4 ≤ 4 ∧ 256 ≤ 256 ∧ 5 < 6 ∧ (255 : OrderHandle).val = 255 ∧ demo.order 255 = none ∧
      (demo.order 1).map (fun x => x.lines.length) = some 1 ∧ 1 ≤ 1 :=
  ⟨demo_free, by decide +kernel⟩

/-- A queue with a line on the stove before the one that waits, and a queue with none that waits; a line DONE with another
queued, and a last line with and without a cancel. -/
theorem witness_StationsHandOutAndFinishLines :
    let s := demo.setStation 0 { queue := [(0, 0), (0, 1)] }
    PortFree s ∧
      (s.station 0).queue = [(0, 0)] ++ (0, 1) :: [] ∧
      (∀ e ∈ [((0 : OrderHandle), 0)], ¬ ∃ ord l, s.order e.1 = some ord ∧ ord.lines[e.2]? = some l ∧ l.state = .waiting) ∧
      s.order 0 = some { ordered 0 .preparing [line 0 .started, line 1 .waiting] with timer := some 720000 } ∧
      [line 0 .started, line 1 .waiting][1]? = some (line 1 .waiting) ∧
      (∀ e ∈ (demo.station 2).queue, ¬ ∃ ord l, demo.order e.1 = some ord ∧ ord.lines[e.2]? = some l ∧ l.state = .waiting) ∧
      (0 ≤ 5 ∧ [line 0 .started, line 1 .waiting][0]? = some (line 0 .started) ∧ (line 0 .started).state = .started ∧
        (0 : OrderHandle) ∉ demo.parked ∧ (∃ n j, (0, j) ∈ (demo.station n).queue ∧ j ≠ 0) ∧
        (line 1 .waiting).state ≠ .started) ∧
      (let u := demo.setOrder 9 (some { ordered 0 .preparing [line 2 .started] with cancelPending := true })
       (u.order 9).map Order.cancelPending = some true ∧ (9 : OrderHandle) ∉ u.parked ∧
         ¬ ∃ n j, (9, j) ∈ (u.station n).queue ∧ j ≠ 0) := by
  have ord : (demo.setStation 0 { queue := [(0, 0), (0, 1)] }).order 0 =
      some { ordered 0 .preparing [line 0 .started, line 1 .waiting] with timer := some 720000 } := by decide +kernel
  refine ⟨And.intro rfl rfl, by decide +kernel, ?_, ord, by decide, ?_, ⟨by decide, by decide, by decide, by decide +kernel,
    ⟨1, 1, by decide +kernel, by decide⟩, by decide⟩, by decide +kernel, by decide +kernel, ?_⟩
  · rintro e he ⟨x, l, h, h', h''⟩
    obtain rfl : e = (0, 0) := by simpa using he
    rw [ord] at h
    cases h
    cases h'
    cases h''
  · intro e he
    rw [show (demo.station 2).queue = [] by decide +kernel] at he
    cases he
  · rintro ⟨n, j, h, -⟩
    have : ∀ n, ((demo.station n).queue.all fun e => e.1 != 9) = true := by decide +kernel
    have := List.all_eq_true.mp (this n) (9, j) (by simpa [State.station, State.setOrder] using h)
    simp at this

/-- For an order of field 0 that becomes READY: a trip that takes it, behind one that does not; a GATHERING trip of five in
a segment that keeps runners back and in one that lets them walk; none that takes it, with an IDLE one and without. -/
theorem witness_StationsHandOutAndFinishLines_trips :
    let five : Trip := { state := .gathering, field := some 0, orders := [2, 10, 11, 12, 13], timer := some 1 }
    let idle : State := { demo with trips := Vector.replicate 8 {} }
    let onRoad : State := { demo with trips := Vector.replicate 8 { state := .out, field := some 0, orders := [3] } }
    ((demo.trip 0).Joinable ∧ (demo.trip 0).field = some 0 ∧ ¬ (demo.trip 1).Joinable) ∧
      (((demo.setTrip 0 five).trip 0).Joinable ∧ ((demo.setTrip 0 five).trip 0).orders.length = 5) ∧
      ((demo.program 0).state = .running ∧
        (demo.program 0).record.segments[(demo.program 0).segment]? = some feature ∧ feature.runners = false) ∧
      (let p := (playing { showing with segment := 1 }).program 0
       p.record.segments[p.segment]? = some interval ∧ interval.runners = true) ∧
      ((∀ k, ¬ (idle.trip k).Joinable) ∧ (idle.trip 0).state = .idle) ∧
      ((∀ k, ¬ (onRoad.trip k).Joinable) ∧ ∀ k, (onRoad.trip k).state ≠ .idle) := by
  unfold Trip.Joinable; decide +kernel

theorem witness_ConfigureKitchenEvaluatesHold :
    PortFree demo ∧ (15 < 16 ∧ 2 ≤ 2 ∧ 255 ≤ 255 ∧ 1 < 2 ∧ 1 ≤ 1 ∧ 60 ≤ 60) ∧ demo.hold = false ∧
      ({ demo with hold := true } : State).hold = true ∧ ¬ (∃ n, 2 ≤ (demo.station n).queue.length) ∧
      (∀ n, (demo.station n).queue.length ≤ 1) ∧
      (∃ n, 2 ≤ ((demo.setStation 0 { queue := [(0, 0), (0, 1)] }).station n).queue.length) := by
  refine ⟨demo_free, by decide, rfl, rfl, by decide +kernel, by decide +kernel, ⟨0, by decide +kernel⟩⟩

/-- The kitchen in HOLD with its queues short, which it leaves, with a parked order that falls due then; out of HOLD with a
full queue, and in HOLD with one; arguments one outside their ranges. -/
theorem witness_ConfigureKitchenEvaluatesHold_fall :
    (let s := { playing { showing with segment := 1 } with hold := true }
     s.hold = true ∧ ¬ (∃ n, (s.station n).xoff ≤ (s.station n).queue.length) ∧
       (∀ n, (s.station n).queue.length ≤ (s.station n).xon) ∧
       ((1 : OrderHandle) ∈ s.parked ∧ (s.order 1).any (fun ord => ord.stage == .parked && !ord.due &&
         (s.program ord.field).isDue ord.mode) = true)) ∧
      (∃ n, ((demo.setStation 0 { queue := [(0, 0)], xoff := 1, xon := 0 }).station n).xoff ≤
        ((demo.setStation 0 { queue := [(0, 0)], xoff := 1, xon := 0 }).station n).queue.length) ∧
      (16 ≤ 16 ∧ 1 < 2 ∧ 255 < 256 ∧ 5 ≤ 5 ∧ 60 < 61) := by
  refine ⟨by decide +kernel, ⟨0, by decide +kernel⟩, by decide⟩

/-! ### Trips and timers -/

/-- Six orders of field 0, on the road as trip 1 or waiting in the ready list, in a show whose segment lets runners walk or
keeps them back. -/
def sixOrders (stage : Stage) (trip : Option TripHandle) (p : ProgramUnit) : State :=
  { playing p with
    orders := (Vector.ofFn fun o => if 10 ≤ o.val ∧ o.val < 16 then
      some { ordered 5 stage [line 0 .finished] with trip := trip } else look demo.orders o)
    trips := put demo.trips 1 { state := .out, field := some 0, orders := if trip = none then [3] else [10, 11, 12, 13, 14, 15] }
    readyList := if trip = none then [10, 11, 12, 13, 14, 15] else [] }

theorem witness_TripReportSettlesTheOrder_formed :
    (let s := sixOrders .ready none showing
     PortFree s ∧ s.order 3 = book[3] ∧ (s.trip 1).orders.erase 3 = [] ∧
       s.readyList = 10 :: [11, 12, 13, 14, 15] ∧ (3 : OrderHandle) ∉ s.readyList ∧
       s.order 10 = some (ordered 5 .ready [line 0 .finished]) ∧
       ((s.readyList.filter fun o => (s.order o).any fun z => z.field == 0).take 6).length = 6 ∧
       (s.program 0).record.segments[(s.program 0).segment]? = some feature ∧ feature.runners = false ∧
       ((({ s with readyList := [10] } : State).readyList.filter fun o => (s.order o).any fun z => z.field == 0).take 6).length < 6) ∧
      (let p := (sixOrders .ready none { showing with segment := 1 }).program 0
       p.record.segments[p.segment]? = some interval ∧ interval.runners = true) ∧
      256 ≤ 256 ∧ 1 < 2 ∧ (255 : OrderHandle).val = 255 ∧ demo.order 255 = none := by
  refine ⟨⟨And.intro rfl rfl, by decide +kernel⟩, by decide +kernel⟩

/-- Six orders recalled; five joined by a sixth, by none and by one in an OUT trip; a trip that two orders and that one
leave. -/
theorem witness_RecallTripGathersAgain_six :
    (let s := sixOrders .onTrip (some 1) showing
     PortFree s ∧ (s.trip 1).state = .out ∧ s.readyList = [] ∧ (s.trip 1).orders.length = 6 ∧ (s.trip 1).orders.Nodup ∧
       (s.trip 1).orders.all (fun o => (s.order o).any fun ord => ord.field == 0) = true) ∧
      (let five : Trip := { state := .gathering, field := some 0, orders := [2, 10, 11, 12, 13], timer := some 1 }
       five.state = .gathering ∧ ([20] : List OrderHandle) ≠ [] ∧ (five.orders ++ [20]).length = 6 ∧ five.field = some 0) ∧
      (demo.trip 1).state ≠ .gathering ∧ (demo.trip 1).state ≠ .fieldHold ∧ (demo.trip 0).orders.erase 2 = [] ∧
      ([3, 8] : List OrderHandle).erase 3 ≠ [] ∧ demo.readyList = [] ∧ 8 ≤ 8 ∧
      (let s := sixOrders .ready none showing
       s.readyList = 10 :: [11, 12, 13, 14, 15] ∧ s.order 10 = some (ordered 5 .ready [line 0 .finished])) := by
  refine ⟨⟨And.intro rfl rfl, by decide +kernel⟩, by decide +kernel⟩

/-- An order on a trip of one, another that is not, and one on a trip of two. -/
theorem witness_TripReportSettlesTheOrder :
    PortFree demo ∧ 1 ≤ 1 ∧ demo.order 3 = some { ordered 5 .onTrip [line 0 .finished] with trip := some 1 } ∧
      (demo.order 4).map Order.stage = some .queued ∧ (∀ j, demo.tally (.kitchen j) ≤ 65535) ∧
      (demo.trip 1).orders.erase 3 = [] ∧ demo.readyList = [] ∧
      (let s := demo.setTrip 1 { state := .out, field := some 0, orders := [3, 8] }
       (s.trip 1).state = .out ∧ ((s.trip 1).orders.erase 3).length ≠ 0) := by
  refine ⟨demo_free, by decide, by decide +kernel, by decide +kernel, fun j => ?_, by decide +kernel,
    by decide +kernel, by decide +kernel⟩
  cases j <;> decide +kernel

theorem witness_RecallTripGathersAgain :
    PortFree demo ∧ (demo.trip 1).state = .out ∧ (demo.trip 7).state ≠ .out ∧ demo.readyList = [] ∧
      (demo.trip 1).orders ≠ [] ∧ (demo.trip 1).orders.length < 6 ∧ (demo.trip 1).orders.Nodup ∧
      ∀ o ∈ (demo.trip 1).orders, ∃ ord, demo.order o = some ord ∧ ord.field = 0 := by
  refine ⟨demo_free, by decide +kernel, by decide +kernel, rfl, by decide +kernel, by decide +kernel, by decide +kernel,
    fun o ho => ?_⟩
  obtain rfl : o = 3 := by
    rw [show (demo.trip 1).orders = [3] by decide +kernel] at ho
    simpa using ho
  exact ⟨{ ordered 5 .onTrip [line 0 .finished] with trip := some 1 }, by decide +kernel, rfl⟩

/-- A gathering trip whose field lets no runners walk, and one whose field does; timers that run and timers that do
not. -/
theorem witness_TimersRunOut :
    (let x := demo.trip 0
     x.state = .gathering ∧ x.timer ≠ none ∧ x.field = some 0 ∧ (demo.trip 7).state ≠ .gathering) ∧
    (let p := demo.program 0
     ¬ (p.state = .dark ∨ p.state = .opened ∨ p.state = .ended) ∧
       (p.record.segments[p.segment]?.map Segment.runners) = some false) ∧
    ((playing { showing with segment := 1 }).program 0).record.segments[1]? = some interval ∧ interval.runners = true ∧
    (let x := demo.slot 5
     x.state = .issuing ∧ x.timer ≠ none ∧ x.car = some 1 ∧ demo.car 1 = some cars[1] ∧ (demo.slot 6).state ≠ .issuing) ∧
    (demo.order 0 = some { ordered 0 .preparing [line 0 .started, line 1 .waiting] with timer := some 720000 } ∧
      (demo.order 1).bind Order.timer = none) := by decide +kernel

end Sys2Proof.Tests
end

section
/-! PROOF. CONFIGURE FIELD (R3): the checks before a command's work, read as the chain of conditions that refuse it;
what such a command does at a free port; and O19. -/

namespace Sys2Proof.Machine

/-! ### Commands behind checks -/

/-- A check that fails exactly when `p` holds answers when `p` holds; otherwise the later checks answer. -/
theorem firstFailure_cons_of_fails {b : Bool} {p : Prop} [Decidable p] (h : b = false ↔ p) (code : ResultCode)
    (rest : List (Bool × ResultCode)) :
    firstFailure ((b, code) :: rest) = if p then some code else firstFailure rest := by
  cases b with
  | false => rw [firstFailure_false, if_pos (h.mp rfl)]
  | true => rw [firstFailure_true, if_neg (mt h.mpr Bool.noConfusion)]

/-- At a free port a command whose work stands behind checks is refused with the code of the first that fails. -/
theorem denied_of_firstFailure {s : State} {i : Instr} (hi : i.isFrame = true) (hp : PortFree s)
    {checks : List (Bool × ResultCode)} {work : Answer}
    (hw : workOf i (s.atWork i) = (s.atWork i).checked checks work) {code : ResultCode}
    (hc : firstFailure checks = some code) : Denied i s code := by
  rw [Denied, exec_free i hi hp, hw, State.checked_of_some _ hc, Answer.complete_deny]

/-- At a free port a command all of whose checks hold is worked and answered. -/
theorem exec_of_checks_hold {s : State} {i : Instr} (hi : i.isFrame = true) (hp : PortFree s)
    {checks : List (Bool × ResultCode)} {work : Answer}
    (hw : workOf i (s.atWork i) = (s.atWork i).checked checks work) (hc : firstFailure checks = none) :
    exec i s = .next work.complete := by
  rw [exec_free i hi hp, hw, State.checked_of_none _ hc]

/-! ### The checks of CONFIGURE FIELD -/

/-- A channel is taken when another field, a configured one, has it (R3). -/
theorem State.channelFree_eq_false (s : State) (f : FieldNo) (channel : Nat) :
    s.channelFree f channel = false ↔
      ∃ g, g ≠ f ∧ (s.unit g).rows ≠ 0 ∧ (s.unit g).channel = some channel := by
  simp [State.channelFree, FieldUnit.configured]

@[simp] theorem State.channelFree_atWork (s : State) (i : Instr) (f : FieldNo) (channel : Nat) :
    (s.atWork i).channelFree f channel = s.channelFree f channel := by
  simp [State.channelFree]

/-- The checks of CONFIGURE FIELD behind the field number, in R3's order. -/
def State.configureFieldChecks (s : State) (f : FieldNo)
    (rows posts tall accessible channel signOn signOff : Nat) : List (Bool × ResultCode) :=
  [((s.program f).state == .dark, .state),
   (within 1 16 rows && within 1 32 posts, .badArg),
   (within 1 (rows + 1) tall, .badArg),
   (accessible ≤ 8 && accessible ≤ posts, .badArg),
   (channel ≤ 39, .badArg),
   (signOn ≤ 64 && within (signOn + 1) 65 signOff, .badArg),
   (s.channelFree f channel, .duplicate)]

section
variable (s : State) (f : FieldNo) (rows posts tall accessible channel signOn signOff : Nat)

/-- The work of CONFIGURE FIELD for a field that there is: it writes the configuration behind the checks. -/
theorem workConfigureField_of_field :
    workConfigureField f rows posts tall accessible channel signOn signOff s =
      s.checked (s.configureFieldChecks f rows posts tall accessible channel signOn signOff)
        ((s.setUnit f
          { s.unit f with
            rows := rows, posts := posts, tall := tall, accessible := accessible, channel := some channel
            signOn := signOn, signOff := signOff, stalls := Vector.replicate 512 none }).ok (be2 (rows * posts))) :=
  State.withHandle_of_lt s f.isLt _

/-- The checks judge records that the port leaves alone. -/
@[simp] theorem State.configureFieldChecks_atWork (i : Instr) :
    (s.atWork i).configureFieldChecks f rows posts tall accessible channel signOn signOff =
      s.configureFieldChecks f rows posts tall accessible channel signOn signOff := by
  simp [State.configureFieldChecks]

/-- The code that refuses CONFIGURE FIELD, check by check. -/
theorem firstFailure_configureFieldChecks :
    firstFailure (s.configureFieldChecks f rows posts tall accessible channel signOn signOff) =
      if (s.program f).state ≠ .dark then some .state
      else if ¬(1 ≤ rows ∧ rows ≤ 16 ∧ 1 ≤ posts ∧ posts ≤ 32) then some .badArg
      else if ¬(1 ≤ tall ∧ tall ≤ rows + 1) then some .badArg
      else if ¬(accessible ≤ 8 ∧ accessible ≤ posts) then some .badArg
      else if ¬ channel ≤ 39 then some .badArg
      else if ¬(signOn ≤ 64 ∧ signOn + 1 ≤ signOff ∧ signOff ≤ 65) then some .badArg
      else if ∃ g, g ≠ f ∧ (s.unit g).rows ≠ 0 ∧ (s.unit g).channel = some channel then some .duplicate
      else none := by
  have hdark : ((s.program f).state == .dark) = false ↔ (s.program f).state ≠ .dark := beq_eq_false_iff_ne
  have hsize : (within 1 16 rows && within 1 32 posts) = false ↔
      ¬(1 ≤ rows ∧ rows ≤ 16 ∧ 1 ≤ posts ∧ posts ≤ 32) := by
    rw [← Bool.not_eq_true]; simp [and_assoc]
  have htall : within 1 (rows + 1) tall = false ↔ ¬(1 ≤ tall ∧ tall ≤ rows + 1) := by
    rw [← Bool.not_eq_true]; simp
  have haccessible : (decide (accessible ≤ 8) && decide (accessible ≤ posts)) = false ↔
      ¬(accessible ≤ 8 ∧ accessible ≤ posts) := by
    rw [← Bool.not_eq_true]; simp
  have hsign : (decide (signOn ≤ 64) && within (signOn + 1) 65 signOff) = false ↔
      ¬(signOn ≤ 64 ∧ signOn + 1 ≤ signOff ∧ signOff ≤ 65) := by
    rw [← Bool.not_eq_true]; simp
  rw [State.configureFieldChecks, firstFailure_cons_of_fails hdark, firstFailure_cons_of_fails hsize,
    firstFailure_cons_of_fails htall, firstFailure_cons_of_fails haccessible,
    firstFailure_cons_of_fails decide_eq_false_iff_not, firstFailure_cons_of_fails hsign,
    firstFailure_cons_of_fails (s.channelFree_eq_false f channel), firstFailure_nil]

end

/-- Settles O19: the chain of refusals is the first failure among the checks, and behind them stands the one write. -/
theorem configureFieldChecksAndWrites : Obligations.ConfigureFieldChecksAndWrites := by
  intro s field rows posts tall accessible channel signOn signOff hp i
  refine ⟨fun hfield => ?_, ?_⟩
  · have hw : workOf i (s.atWork i) = (s.atWork i).deny .badArg := State.withHandle_of_ge _ hfield _
    rw [Denied, exec_free i rfl hp, hw, Answer.complete_deny]
  · rintro f rfl refusal
    have hw := workConfigureField_of_field (s.atWork i) f rows posts tall accessible channel signOn signOff
    rw [State.configureFieldChecks_atWork, State.unit_atWork] at hw
    have hrefusal := firstFailure_configureFieldChecks s f rows posts tall accessible channel signOn signOff
    refine ⟨fun code hcode => denied_of_firstFailure (i := i) rfl hp hw (hrefusal.trans hcode), fun hnone => ?_⟩
    rw [exec_of_checks_hold (i := i) rfl hp hw (hrefusal.trans hnone), Answer.complete_ok, State.setUnit,
      (State.atWork_frame s i).1]

end Sys2Proof.Machine
end

section
/-! PROOF. READ TOUCHED (R41, R42): the touched list as a sorted list of handles, cut behind the 32nd; the walk that clears
flags; and O43. -/

namespace Sys2Proof.Machine

/-! ### A list cut in two -/

/-- In a list without repeats, what the front part leaves out is the rest. -/
theorem mem_drop_iff_of_nodup {α : Type} {l : List α} (hl : l.Nodup) (n : Nat) (x : α) :
    x ∈ l.drop n ↔ x ∈ l ∧ x ∉ l.take n := by
  refine ⟨fun hx => ⟨List.mem_of_mem_drop hx, fun hx' => List.disjoint_take_drop hl le_rfl hx' hx⟩, ?_⟩
  rintro ⟨hx, hx'⟩
  rw [← List.take_append_drop n l] at hx
  exact (List.mem_append.mp hx).resolve_left hx'

/-- Something is left behind the front part exactly when the list is longer. -/
theorem exists_mem_drop_iff {α : Type} (l : List α) (n : Nat) : (∃ x, x ∈ l.drop n) ↔ n < l.length := by
  rw [← List.length_pos_iff_exists_mem, List.length_drop, Nat.sub_pos_iff_lt]

/-- In a strictly ascending list the front part lies below the rest. -/
theorem lt_of_mem_take_of_mem_drop {α : Type} [LT α] {l : List α} (hl : l.Pairwise (· < ·)) {n : Nat} {x y : α}
    (hx : x ∈ l.take n) (hy : y ∈ l.drop n) : x < y := by
  rw [← List.take_append_drop n l] at hl
  exact (List.pairwise_append.mp hl).2.2 x hx y hy

/-! ### The touched list and the flags -/

section
variable (s : State)

@[simp] theorem State.mem_touchedList {h : CarHandle} : h ∈ s.touchedList ↔ (s.entry h).touched = true := by
  simp [State.touchedList]

/-- The touched list ascends (R41). -/
theorem State.touchedList_pairwise : s.touchedList.Pairwise (· < ·) :=
  (List.pairwise_lt_finRange 1024).filter _

/-- The port leaves the touched list alone. -/
@[simp] theorem State.touchedList_atWork (i : Instr) : (s.atWork i).touchedList = s.touchedList := by
  simp [State.touchedList]

/-- The walk that clears touched flags clears those of its handles and writes nothing else (R42). -/
theorem State.clearTouched_spec (hs : List CarHandle) :
    (∀ h, (s.clearTouched hs).entry h =
      { s.entry h with touched := (s.entry h).touched && !hs.contains h }) ∧
    s.clearTouched hs = { s with entries := (s.clearTouched hs).entries } := by
  induction hs generalizing s with
  | nil => exact ⟨fun h => by simp [State.clearTouched, State.forEach], rfl⟩
  | cons x rest ih =>
    obtain ⟨hentry, hframe⟩ := ih (s.setEntry x { s.entry x with touched := false })
    refine ⟨fun h => (hentry h).trans ?_, hframe⟩
    by_cases hx : x = h
    · subst hx
      simp
    · simp [hx, Ne.symm hx]

end

/-! ### The command -/

/-- At a free port READ TOUCHED clears the first 32 of the touched list and replies with them, behind their number and
whether the list goes on. -/
theorem exec_readTouched {s : State} (hp : PortFree s) :
    exec .readTouched s = .next (((s.atWork .readTouched).clearTouched (s.touchedList.take 32)).answered .ok
      ([(s.touchedList.take 32).length, flag (decide (32 < s.touchedList.length))] ++
        (s.touchedList.take 32).flatMap fun h => be2 h.val)) := by
  have hw : workOf .readTouched (s.atWork .readTouched) = workReadTouched (s.atWork .readTouched) := rfl
  rw [exec_free .readTouched rfl hp, hw, workReadTouched, State.touchedList_atWork, Answer.complete_ok]

/-- Settles O43: the touched list ascends, so its first 32 handles lie below the rest, and the rest is what stays
touched. -/
theorem readTouchedReportsAndClears : Obligations.ReadTouchedReportsAndClears := by
  intro s hp i
  have hsorted := s.touchedList_pairwise
  have hrest : ∀ h, h ∈ s.touchedList.drop 32 ↔ (s.entry h).touched = true ∧ h ∉ s.touchedList.take 32 := fun h => by
    rw [mem_drop_iff_of_nodup hsorted.nodup, s.mem_touchedList]
  have hmore : (∃ h, (s.entry h).touched = true ∧ h ∉ s.touchedList.take 32) ↔ 32 < s.touchedList.length := by
    rw [← exists_mem_drop_iff]
    exact exists_congr fun h => (hrest h).symm
  obtain ⟨hentry, hframe⟩ := (s.atWork i).clearTouched_spec (s.touchedList.take 32)
  refine ⟨s.touchedList.take 32, (s.atWork i).clearTouched (s.touchedList.take 32), hsorted.take,
    List.length_take_le _ _, fun h hh => s.mem_touchedList.mp (List.mem_of_mem_take hh), fun h ht hh => ⟨?full, ?below⟩,
    ?answer, hframe, fun h => by rw [hentry, State.entry_atWork]⟩
  case full => exact List.length_take_of_le (hmore.mp ⟨h, ht, hh⟩).le
  case below => exact fun h' hh' => lt_of_mem_take_of_mem_drop hsorted hh' ((hrest h).mpr ⟨ht, hh⟩)
  case answer => simp only [i, exec_readTouched hp, hmore, flag, decide_eq_true_eq]

end Sys2Proof.Machine
end

section
/-! PROOF. CLOSE DAY (R63, R64): the grounds on which the day is open, and O17. -/

namespace Sys2Proof.Machine

/-- The day is open exactly when a field, an order, a trip or a set holds it open (R63). -/
theorem State.dayOpen_iff (s : State) :
    s.dayOpen = true ↔ (∃ f, (s.program f).state ≠ .dark) ∨ (∃ o, s.order o ≠ none) ∨
      (∃ k, (s.trip k).state ≠ .idle) ∨ ∃ n, (s.slot n).state = .issuing := by
  simp [State.dayOpen, State.isIssuing, Option.isSome_iff_ne_none, or_assoc]

/-- The port does not open or close the day. -/
@[simp] theorem State.dayOpen_atWork (s : State) (i : Instr) : (s.atWork i).dayOpen = s.dayOpen := by
  rw [Bool.eq_iff_iff, State.dayOpen_iff, State.dayOpen_iff]
  simp only [State.program_atWork, State.order_atWork, State.trip_atWork, State.slot_atWork]

/-- The one check of CLOSE DAY refuses it while the day is open (R64). -/
theorem firstFailure_dayClosed (s : State) :
    firstFailure [(!s.dayOpen, .dayOpen)] = if s.dayOpen then some .dayOpen else none := by
  rw [firstFailure_cons_of_fails (Iff.of_eq (Bool.not_eq_false' _)), firstFailure_nil]

/-- Settles O17: the check of CLOSE DAY judges the day as R63 does, and behind it stands the one write of the counts. -/
theorem closeDayClearsTheCounts : Obligations.CloseDayClearsTheCounts := by
  intro s hp dayOpen
  have hday : s.dayOpen = true ↔ dayOpen := s.dayOpen_iff
  have hw : workOf .closeDay (s.atWork .closeDay) = workCloseDay (s.atWork .closeDay) := rfl
  rw [workCloseDay, State.dayOpen_atWork] at hw
  refine ⟨fun hopen => denied_of_firstFailure rfl hp hw ?_, fun hclosed => ?_⟩
  · rw [firstFailure_dayClosed, if_pos (hday.mpr hopen)]
  · have hnone : firstFailure [(!s.dayOpen, .dayOpen)] = none := by
      rw [firstFailure_dayClosed, if_neg (mt hday.mp hclosed)]
    rw [exec_of_checks_hold rfl hp hw hnone, Answer.complete_ok]

end Sys2Proof.Machine
end

section
/-! PROOF. What a command at a free port answers once its work is known; the search for the lowest handle. -/

namespace Sys2Proof.Machine

/-- At a free port a command whose work comes to nothing but a code is refused with that code. -/
theorem denied_of_work_eq_deny {s : State} {i : Instr} (hi : i.isFrame = true) (hp : PortFree s) {code : ResultCode}
    (hw : workOf i (s.atWork i) = (s.atWork i).deny code) : Denied i s code := by
  rw [Denied, exec_free i hi hp, hw, Answer.complete_deny]

/-- At a free port a command whose work is done is answered OK. -/
theorem exec_of_work_eq_ok {s t : State} {i : Instr} (hi : i.isFrame = true) (hp : PortFree s) {bytes : List Nat}
    (hw : workOf i (s.atWork i) = t.ok bytes) : exec i s = .next (t.answered .ok bytes) := by
  rw [exec_free i hi hp, hw, Answer.complete_ok]

/-- The search finds the handle that passes the test where no lower one does. -/
theorem lowest_eq_some_iff {n : Nat} {p : Fin n → Bool} {i : Fin n} :
    lowest p = some i ↔ p i = true ∧ ∀ j, j < i → p j = false := by
  refine ⟨lowest_spec, fun ⟨hi, hbelow⟩ => ?_⟩
  cases hfound : lowest p with
  | none => exact absurd hi (by simp [lowest_eq_none.mp hfound i])
  | some k =>
    obtain ⟨hk, hkbelow⟩ := lowest_spec hfound
    have hki : ¬ k < i := fun hlt => by simp [hbelow k hlt] at hk
    have hik : ¬ i < k := fun hlt => by simp [hkbelow i hlt] at hi
    rw [le_antisymm (not_lt.mp hik) (not_lt.mp hki)]

end Sys2Proof.Machine
end

section
/-! PROOF. ENROL SET (R116): the searches of the set pool by serial and for a free slot, the checks, and O45. -/

namespace Sys2Proof.Machine

/-! ### The searches of the pool -/

section
variable (s : State)

@[simp] theorem SetSlot.enrolled_eq_true (x : SetSlot) : x.enrolled = true ↔ x.state ≠ .unenrolled := by
  simp [SetSlot.enrolled]

@[simp] theorem SetSlot.enrolled_eq_false (x : SetSlot) : x.enrolled = false ↔ x.state = .unenrolled := by
  simp [SetSlot.enrolled]

/-- The pool has a holder of a serial when a slot that is not UNENROLLED holds it (R112). -/
theorem State.holderOf_isNone_eq_false (serial : Nat) :
    (s.holderOf serial).isNone = false ↔ ∃ n, (s.slot n).state ≠ .unenrolled ∧ (s.slot n).serial = serial := by
  rw [Option.isNone_eq_false_iff, Option.isSome_iff_ne_none, State.holderOf, ne_eq, lowest_eq_none]
  simp

/-- The free slot is the lowest-numbered UNENROLLED one (R116). -/
theorem State.freeSlot_eq_some_iff (n : SetHandle) :
    s.freeSlot = some n ↔ (s.slot n).state = .unenrolled ∧ ∀ m, m < n → (s.slot m).state ≠ .unenrolled := by
  rw [State.freeSlot, lowest_eq_some_iff]
  simp

/-- The pool is full when no slot is UNENROLLED (R116). -/
theorem State.freeSlot_eq_none_iff : s.freeSlot = none ↔ ∀ n, (s.slot n).state ≠ .unenrolled := by
  rw [State.freeSlot, lowest_eq_none]
  simp

@[simp] theorem State.holderOf_atWork (i : Instr) (serial : Nat) :
    (s.atWork i).holderOf serial = s.holderOf serial := by
  simp [State.holderOf]

@[simp] theorem State.freeSlot_atWork (i : Instr) : (s.atWork i).freeSlot = s.freeSlot := by
  simp [State.freeSlot]

/-- A slot written in the work of a command is written in the table that stood before it. -/
theorem State.setSlot_atWork (i : Instr) (n : SetHandle) (x : SetSlot) :
    (s.atWork i).setSlot n x = { s.atWork i with sets := put s.sets n x } := by
  have hsets : (s.atWork i).sets = s.sets := by simp
  rw [State.setSlot, hsets]

/-! ### The command -/

/-- The checks of ENROL SET before the search for a slot, in R116's order. -/
def State.enrolSetChecks (serial : Nat) : List (Bool × ResultCode) :=
  [(serial != 0, .badArg), ((s.holderOf serial).isNone, .duplicate)]

/-- What ENROL SET does once its checks hold: a full pool refuses it, a free slot takes the serial (R116). -/
def State.enrolInFreeSlot (serial : Nat) : Answer :=
  match s.freeSlot with
  | none => s.deny .full
  | some n => (s.setSlot n { state := .absent, serial := serial }).ok [n.val]

theorem workEnrolSet_eq (serial : Nat) :
    workEnrolSet serial s = s.checked (s.enrolSetChecks serial) (s.enrolInFreeSlot serial) := rfl

theorem State.enrolInFreeSlot_of_full {s : State} (h : s.freeSlot = none) (serial : Nat) :
    s.enrolInFreeSlot serial = s.deny .full := by
  simp only [State.enrolInFreeSlot, h]

theorem State.enrolInFreeSlot_of_free {s : State} {n : SetHandle} (h : s.freeSlot = some n) (serial : Nat) :
    s.enrolInFreeSlot serial = (s.setSlot n { state := .absent, serial := serial }).ok [n.val] := by
  simp only [State.enrolInFreeSlot, h]

@[simp] theorem State.enrolSetChecks_atWork (i : Instr) (serial : Nat) :
    (s.atWork i).enrolSetChecks serial = s.enrolSetChecks serial := by
  simp [State.enrolSetChecks]

/-- The code that refuses ENROL SET before the search, check by check. -/
theorem firstFailure_enrolSetChecks (serial : Nat) :
    firstFailure (s.enrolSetChecks serial) =
      if serial = 0 then some .badArg
      else if ∃ n, (s.slot n).state ≠ .unenrolled ∧ (s.slot n).serial = serial then some .duplicate
      else none := by
  have hserial : (serial != 0) = false ↔ serial = 0 := bne_eq_false_iff_eq
  rw [State.enrolSetChecks, firstFailure_cons_of_fails hserial,
    firstFailure_cons_of_fails (s.holderOf_isNone_eq_false serial), firstFailure_nil]

end

/-- Settles O45: the two checks fail as R116 says, and behind them the lowest free slot, if there is one, takes the
serial. -/
theorem enrolSetTakesTheLowestFreeSlot : Obligations.EnrolSetTakesTheLowestFreeSlot := by
  intro s serial hp i held
  have hw : workOf i (s.atWork i) =
      (s.atWork i).checked (s.enrolSetChecks serial) ((s.atWork i).enrolInFreeSlot serial) := by
    rw [← s.enrolSetChecks_atWork i]
    exact workEnrolSet_eq (s.atWork i) serial
  have hcode := firstFailure_enrolSetChecks s serial
  have hpass (hserial : serial ≠ 0) (hfresh : ¬ held) :
      workOf i (s.atWork i) = (s.atWork i).enrolInFreeSlot serial := by
    rw [if_neg hserial, if_neg hfresh] at hcode
    rw [hw, State.checked_of_none _ hcode]
  refine ⟨fun hzero => ?_, fun hserial hheld => ?_, fun hserial hfresh hfull => ?_,
    fun n hserial hfresh hfree hlowest => ?_⟩
  · exact denied_of_firstFailure rfl hp hw (by rw [hcode, if_pos hzero])
  · exact denied_of_firstFailure rfl hp hw (by rw [hcode, if_neg hserial, if_pos hheld])
  · have hnone : (s.atWork i).freeSlot = none := (s.freeSlot_atWork i).trans (s.freeSlot_eq_none_iff.mpr hfull)
    exact denied_of_work_eq_deny rfl hp ((hpass hserial hfresh).trans (State.enrolInFreeSlot_of_full hnone serial))
  · have hsome : (s.atWork i).freeSlot = some n :=
      (s.freeSlot_atWork i).trans ((s.freeSlot_eq_some_iff n).mpr ⟨hfree, hlowest⟩)
    rw [exec_of_work_eq_ok rfl hp ((hpass hserial hfresh).trans (State.enrolInFreeSlot_of_free hsome serial)),
      State.setSlot_atWork]

end Sys2Proof.Machine
end

section
/-! PROOF. CHARGE, SET FAULT and SERVICE SET (R124, R126, R127): work on the set in a bay, a failed self-test, the
states by charge; and O48. -/

namespace Sys2Proof.Machine

section
variable {s : State}

/-! ### Work on the set in a bay -/

theorem State.withBay_of_ge {bay : Nat} (h : 128 ≤ bay) (work : BayNo → SetHandle → Answer) :
    s.withBay bay work = s.deny .badArg :=
  s.withHandle_of_ge h _

theorem State.withBay_of_empty {b : BayNo} (h : s.bay b = none) (work : BayNo → SetHandle → Answer) :
    s.withBay b work = s.deny .notFound := by
  rw [State.withBay, s.withHandle_of_lt b.isLt]
  simp only [h]

theorem State.withBay_of_standing {b : BayNo} {n : SetHandle} (h : s.bay b = some n)
    (work : BayNo → SetHandle → Answer) : s.withBay b work = work b n := by
  rw [State.withBay, s.withHandle_of_lt b.isLt]
  simp only [h]

/-! ### CHARGE -/

theorem workCharge_of_out_of_range {bay level : Nat} (h : 128 ≤ bay ∨ 100 < level) :
    workCharge bay level s = s.deny .badArg := by
  by_cases hbay : 128 ≤ bay
  · exact s.withHandle_of_ge hbay _
  · have hlevel : decide (level ≤ 100) = false := decide_eq_false (not_le.mpr (h.resolve_left hbay))
    rw [workCharge, s.withHandle_of_lt (not_le.mp hbay), hlevel]
    exact s.checked_of_some rfl _

/-- CHARGE of a level in its range works on the set in the bay (R124). -/
theorem workCharge_of_le {level : Nat} (h : level ≤ 100) (b : BayNo) :
    workCharge b level s = s.withBay b fun _ n =>
      (s.setSlot n
        { s.slot n with charge := level, state := chargedState s.readyLevel level (s.slot n).state }).ok
        [n.val, level, setStateCode (chargedState s.readyLevel level (s.slot n).state)] := by
  rw [workCharge, s.withHandle_of_lt b.isLt, decide_eq_true h]
  exact s.checked_of_none rfl _

/-! ### SET FAULT -/

/-- TOUCHED is bit 8 of the cause word (R189). -/
theorem Attention.withCause_touched (a : Attention) :
    a.withCause .touched = { a with causes := a.causes ||| 0x100#10 } := rfl

theorem State.isIssuing_atWork (i : Instr) (n : SetHandle) : (s.atWork i).isIssuing n = s.isIssuing n := by
  simp [State.isIssuing]

/-- The set field of a car's entry is written and the entry is marked touched: one write of the
entry, and TOUCHED (R40, R114). -/
theorem State.touchCar_setCarSet {h : CarHandle} {c : Car} (hc : s.car h = some c)
    (x : Option (SetHandle × SetMark)) :
    (s.setCarSet (some h) x).touchCar (some h) =
      { s with
        entries := put s.entries h { car := some { c with lent := x }, touched := true }
        attention := { s.attention with causes := s.attention.causes ||| 0x100#10 } } := by
  simp only [State.setCarSet, State.touchCar, State.touch, State.modCar, State.setCar, hc, Option.map_some,
    State.entry_setEntry_self]
  simp only [State.setEntry, State.raise, put_put, Attention.withCause_touched]

/-- A set that is not ISSUING fails with no other change than its state (R126). -/
theorem State.failSet_of_not_issuing {n : SetHandle} (h : (s.slot n).state ≠ .issuing) :
    s.failSet n = s.setSlot n { s.slot n with state := .faulty } := by
  rw [State.failSet]
  simp [h]

/-- A cancelled issue whose car is told: the set keeps its place and takes its state by charge, and the car's entry
loses it and is touched (R120). -/
theorem State.touchCar_cancelIssue {n : SetHandle} {h : CarHandle} {c : Car} (hcar : (s.slot n).car = some h)
    (hc : s.car h = some c) :
    (s.cancelIssue n).touchCar (some h) =
      { s with
        sets := put s.sets n { s.slot n with state := s.byCharge (s.slot n).charge, car := none, timer := none }
        entries := put s.entries h { car := some { c with lent := none }, touched := true }
        attention := { s.attention with causes := s.attention.causes ||| 0x100#10 } } := by
  rw [State.cancelIssue, hcar]
  exact State.touchCar_setCarSet (s := s.setSlot n _) hc none

/-- The failure of an ISSUING set ends its issue: set and entry part, and the entry is touched (R120, R126). -/
theorem State.failSet_of_issuing {n : SetHandle} {h : CarHandle} {c : Car} (hstate : (s.slot n).state = .issuing)
    (hcar : (s.slot n).car = some h) (hc : s.car h = some c) :
    s.failSet n =
      { s with
        sets := put s.sets n { s.slot n with state := .faulty, car := none, timer := none }
        entries := put s.entries h { car := some { c with lent := none }, touched := true }
        attention := { s.attention with causes := s.attention.causes ||| 0x100#10 } } := by
  have hissuing : ((s.slot n).state == .issuing) = true := beq_iff_eq.mpr hstate
  simp only [State.failSet, hissuing, if_true, hcar, State.touchCar_cancelIssue hcar hc]
  simp only [State.setSlot, State.slot, look_put_self, put_put]

theorem workSetFault_of_standing {b : BayNo} {n : SetHandle} (h : s.bay b = some n) :
    workSetFault b s = (s.failSet n).ok [n.val, flag (s.isIssuing n)] :=
  State.withBay_of_standing h _

/-! ### SERVICE SET -/

/-- A repaired set is ABSENT without a bay and takes its state by charge in one (R127). -/
theorem State.servicedState_eq (x : SetSlot) :
    s.servicedState x =
      if x.bay = none then .absent else if s.readyLevel ≤ x.charge then .ready else .charging := by
  cases hbay : x.bay <;> simp [State.servicedState, State.byCharge, hbay]

/-- SERVICE SET of a FAULTY set writes the state it comes back in (R127). -/
theorem workServiceSet_of_faulty {n : SetHandle} (h : (s.slot n).state = .faulty) :
    workServiceSet n s =
      (s.setSlot n { s.slot n with state := s.servicedState (s.slot n) }).ok
        [setStateCode (s.servicedState (s.slot n))] := by
  rw [workServiceSet, s.withHandle_of_lt n.isLt, beq_iff_eq.mpr h]
  exact s.checked_of_none rfl _

theorem workServiceSet_of_not_faulty {n : SetHandle} (h : (s.slot n).state ≠ .faulty) :
    workServiceSet n s = s.deny .state := by
  rw [workServiceSet, s.withHandle_of_lt n.isLt, beq_eq_false_iff_ne.mpr h]
  exact s.checked_of_some rfl _

end

/-! ### The commands at a free port -/

section
variable {s : State} (hp : PortFree s)
include hp

/-- CHARGE of a level in its range writes the charge and the state that follows from it (R124). -/
theorem exec_charge_of_standing {b : BayNo} {n : SetHandle} {level : Nat} (hlevel : level ≤ 100)
    (hbay : s.bay b = some n) :
    exec (.charge b level) s = .next
      (({ s.atWork (.charge b level) with
          sets := put s.sets n
            { s.slot n with charge := level, state := chargedState s.readyLevel level (s.slot n).state } } :
        State).answered .ok [n.val, level, setStateCode (chargedState s.readyLevel level (s.slot n).state)]) := by
  have hready : (s.atWork (.charge b level)).readyLevel = s.readyLevel := by simp
  have hw := workCharge_of_le (s := s.atWork (.charge b level)) hlevel b
  rw [State.withBay_of_standing ((s.bay_atWork _ b).trans hbay), State.slot_atWork, hready, State.setSlot_atWork] at hw
  exact exec_of_work_eq_ok rfl hp hw

/-- SET FAULT of a set that is not ISSUING makes it FAULTY in its bay (R126). -/
theorem exec_setFault_of_not_issuing {b : BayNo} {n : SetHandle} (hbay : s.bay b = some n)
    (hstate : (s.slot n).state ≠ .issuing) :
    exec (.setFault b) s = .next
      (({ s.atWork (.setFault b) with sets := put s.sets n { s.slot n with state := .faulty } } : State).answered .ok
        [n.val, 0]) := by
  have hissuing : s.isIssuing n = false := beq_eq_false_iff_ne.mpr hstate
  have hw := workSetFault_of_standing ((s.bay_atWork (.setFault b) b).trans hbay)
  rw [State.failSet_of_not_issuing (by rwa [State.slot_atWork]), State.slot_atWork, State.setSlot_atWork,
    State.isIssuing_atWork, hissuing] at hw
  exact exec_of_work_eq_ok rfl hp hw

/-- SET FAULT of an ISSUING set ends its issue, with its car's entry touched (R120, R126). -/
theorem exec_setFault_of_issuing {b : BayNo} {n : SetHandle} {h : CarHandle} {c : Car} (hbay : s.bay b = some n)
    (hstate : (s.slot n).state = .issuing) (hcar : (s.slot n).car = some h) (hc : s.car h = some c) :
    exec (.setFault b) s = .next
      (({ s.atWork (.setFault b) with
          sets := put s.sets n { s.slot n with state := .faulty, car := none, timer := none }
          entries := put s.entries h { car := some { c with lent := none }, touched := true }
          attention :=
            { (s.atWork (.setFault b)).attention with
              causes := (s.atWork (.setFault b)).attention.causes ||| 0x100#10 } } : State).answered .ok
        [n.val, 1]) := by
  have hissuing : s.isIssuing n = true := beq_iff_eq.mpr hstate
  have hsets : (s.atWork (.setFault b)).sets = s.sets := by simp
  have hentries : (s.atWork (.setFault b)).entries = s.entries := by simp
  have hw := workSetFault_of_standing ((s.bay_atWork (.setFault b) b).trans hbay)
  rw [State.failSet_of_issuing (h := h) (c := c) (by rwa [State.slot_atWork]) (by rwa [State.slot_atWork])
    (by rwa [State.car_atWork]), State.slot_atWork, State.isIssuing_atWork, hissuing, hsets, hentries] at hw
  exact exec_of_work_eq_ok rfl hp hw

/-- SERVICE SET of a FAULTY set writes its state and answers it (R127). -/
theorem exec_serviceSet_of_faulty {n : SetHandle} (hstate : (s.slot n).state = .faulty) :
    exec (.serviceSet n) s = .next
      (({ s.atWork (.serviceSet n) with
          sets := put s.sets n { s.slot n with state := s.servicedState (s.slot n) } } : State).answered .ok
        [setStateCode (s.servicedState (s.slot n))]) := by
  have hserviced (x : SetSlot) : (s.atWork (.serviceSet n)).servicedState x = s.servicedState x := by
    simp [State.servicedState_eq]
  have hw := workServiceSet_of_faulty (s := s.atWork (.serviceSet n)) (n := n) (by rwa [State.slot_atWork])
  rw [State.slot_atWork, hserviced, State.setSlot_atWork] at hw
  exact exec_of_work_eq_ok rfl hp hw

end

/-- Settles O48: each command is refused by its number, by an empty bay or by the state of the set, and otherwise writes
the set (and, where an issue ends, its car's entry) in one step. -/
theorem chargeFaultAndService : Obligations.ChargeFaultAndService := by
  intro s hp
  refine ⟨fun bay level => ⟨fun hrange => ?_, ?_⟩, fun bay => ⟨fun hbay => ?_, ?_⟩,
    fun slot => ⟨fun hslot => ?_, ?_⟩⟩
  · exact denied_of_work_eq_deny rfl hp (workCharge_of_out_of_range hrange)
  · rintro b rfl hlevel
    refine ⟨fun hempty => denied_of_work_eq_deny rfl hp ?_, fun n hbay => exec_charge_of_standing hp hlevel hbay⟩
    exact (workCharge_of_le hlevel b).trans (State.withBay_of_empty ((s.bay_atWork _ b).trans hempty) _)
  · exact denied_of_work_eq_deny rfl hp (State.withBay_of_ge hbay _)
  · rintro b rfl
    refine ⟨fun hempty => denied_of_work_eq_deny rfl hp ?_, fun n hbay =>
      ⟨exec_setFault_of_not_issuing hp hbay, fun h c => exec_setFault_of_issuing hp hbay⟩⟩
    exact State.withBay_of_empty ((s.bay_atWork _ b).trans hempty) _
  · exact denied_of_work_eq_deny rfl hp (State.withHandle_of_ge _ hslot _)
  · rintro n rfl
    refine ⟨fun hstate => denied_of_work_eq_deny rfl hp ?_, fun hstate => ?_⟩
    · exact workServiceSet_of_not_faulty (by rwa [State.slot_atWork])
    · have hexec := exec_serviceSet_of_faulty hp hstate
      rwa [State.servicedState_eq] at hexec

end Sys2Proof.Machine
end

section
/-! PROOF. The attention unit by its commands and the identity (R181, R182, R184, R185): IDENTIFY and O11; a word of flags
and its check, CLEAR CAUSES, SET CAUSE MASK; and O16. -/

namespace Sys2Proof.Machine

/-- Settles O11: the work of IDENTIFY answers the identity in the state it finds. -/
theorem identifyAnswersTheIdentity : Obligations.IdentifyAnswersTheIdentity := by
  intro s hp
  have hw : workOf .identify (s.atWork .identify) = (s.atWork .identify).ok [0x6E, 0x04, 0x12, 0x43] := rfl
  exact exec_of_work_eq_ok rfl hp hw

/-! ### Words of ten flags -/

/-- The check of a flag word fails when a bit is set that names no cause (R182, R184). -/
theorem firstFailure_causeWord (w : Nat) :
    firstFailure [(decide (w < 1024), .badArg)] = if 1024 ≤ w then some .badArg else none := by
  have hfails : decide (w < 1024) = false ↔ 1024 ≤ w := decide_eq_false_iff_not.trans not_lt
  rw [firstFailure_cons_of_fails hfails, firstFailure_nil]

/-- Clearing by a word of the host: the flags of the causes go one by one, and with TAILGATE, SEGMENT, SOUND, SET, TRIP,
ORDER and PORT their details (R184). -/
theorem Attention.clear_ofNat (a : Attention) (w : Nat) :
    a.clear (BitVec.ofNat 10 w) =
      { a with
        causes := a.causes &&& ~~~(BitVec.ofNat 10 w)
        tailgate := if w.testBit 1 then 0 else a.tailgate
        segment := if w.testBit 2 then 0 else a.segment
        sound := if w.testBit 3 then 0 else a.sound
        setKinds := if w.testBit 4 then 0 else a.setKinds
        dispatched := if w.testBit 5 then 0 else a.dispatched
        notes := if w.testBit 6 then [] else a.notes
        overflow := if w.testBit 6 then false else a.overflow
        portKinds := if w.testBit 9 then 0 else a.portKinds } := by
  simp only [Attention.clear, causeBit, BitVec.getLsbD_ofNat, Nat.reduceLT, decide_true, Bool.true_and]

/-- The level of ATTN as a number: 0 when no cause is set that the mask enables (R182). -/
theorem State.flag_attn (s : State) : flag s.attn = if s.attention.causes &&& s.attention.mask = 0 then 0 else 1 := by
  simp [flag, State.attn]

/-! ### The work of CLEAR CAUSES and SET CAUSE MASK -/

section
variable (s : State) {w : Nat}

theorem workClearCauses_of_ge (hw : 1024 ≤ w) : workClearCauses w s = s.deny .badArg :=
  State.checked_of_some s ((firstFailure_causeWord w).trans (if_pos hw)) _

/-- CLEAR CAUSES of a word in range clears by it and answers the causes left (R184). -/
theorem workClearCauses_of_lt (hw : w < 1024) :
    workClearCauses w s = ({ s with attention := s.attention.clear (BitVec.ofNat 10 w) } : State).ok
      (be2 (s.attention.causes &&& ~~~(BitVec.ofNat 10 w)).toNat) :=
  State.checked_of_none s ((firstFailure_causeWord w).trans (if_neg hw.not_ge)) _

theorem workSetCauseMask_of_ge (hw : 1024 ≤ w) : workSetCauseMask w s = s.deny .badArg :=
  State.checked_of_some s ((firstFailure_causeWord w).trans (if_pos hw)) _

/-- SET CAUSE MASK of a word in range writes it and answers the mask and the level of ATTN after the write (R182). -/
theorem workSetCauseMask_of_lt (hw : w < 1024) :
    workSetCauseMask w s = ({ s with attention := { s.attention with mask := BitVec.ofNat 10 w } } : State).ok
      (be2 w ++ [if s.attention.causes &&& BitVec.ofNat 10 w = 0 then 0 else 1]) := by
  have hmask : (BitVec.ofNat 10 w).toNat = w := Nat.mod_eq_of_lt hw
  have hchecked := State.checked_of_none s ((firstFailure_causeWord w).trans (if_neg hw.not_ge))
  simp only [workSetCauseMask, hchecked, State.flag_attn, hmask]

end

/-- Settles O16: one check guards both commands; CLEAR CAUSES clears each flagged cause with its detail, SET CAUSE MASK
writes the mask alone, and a raise of ORDER keeps its note or sets the mark. -/
theorem causesClearedMaskedAndNoted : Obligations.CausesClearedMaskedAndNoted := by
  refine fun s => ⟨fun hp w => ⟨fun hrange => ⟨?clearRefused, ?maskRefused⟩, fun hrange => ⟨?cleared, ?masked⟩⟩,
    s.raiseOrder_eq⟩
  case clearRefused => exact denied_of_work_eq_deny rfl hp (workClearCauses_of_ge _ hrange)
  case maskRefused => exact denied_of_work_eq_deny rfl hp (workSetCauseMask_of_ge _ hrange)
  case cleared =>
    have hw := workClearCauses_of_lt (s.atWork (.clearCauses w)) hrange
    rw [Attention.clear_ofNat] at hw
    exact exec_of_work_eq_ok rfl hp hw
  case masked => exact exec_of_work_eq_ok rfl hp (workSetCauseMask_of_lt _ hrange)

end Sys2Proof.Machine
end

section
/-! PROOF. What a step can do, said once: the changes that the work of a command makes behind its checks, the changes of the
events, and the induction that carries a law through every step. -/

namespace Sys2Proof.Machine

/-! ### Work behind checks -/

theorem State.checked_state {s : State} {p : State → Prop} (hs : p s) {checks : List (Bool × ResultCode)} {work : Answer}
    (hw : (∀ x ∈ checks, x.1 = true) → p work.state) : p (s.checked checks work).state := by
  unfold State.checked
  cases hc : firstFailure checks with
  | some code => exact hs
  | none => exact hw ((firstFailure_eq_none checks).mp hc)

theorem State.withHandle_state {s : State} {p : State → Prop} (hs : p s) {n k : Nat} {work : Fin n → Answer}
    (hw : ∀ i : Fin n, k = i.val → p (work i).state) : p (s.withHandle n k work).state := by
  unfold State.withHandle
  by_cases hk : k < n
  · rw [handle?_of_lt hk]
    exact hw ⟨k, hk⟩ rfl
  · rw [handle?_of_ge (not_lt.mp hk)]
    exact hs

theorem State.withCar_state {s : State} {p : State → Prop} (hs : p s) {h : CarHandle} {work : Car → Answer}
    (hw : ∀ c, s.car h = some c → p (work c).state) : p (s.withCar h work).state := by
  unfold State.withCar
  split
  · exact hs
  · exact hw _ ‹_›

theorem State.withOrder_state {s : State} {p : State → Prop} (hs : p s) {order : Nat}
    {work : OrderHandle → Order → Answer} (hw : ∀ o ord, s.order o = some ord → p (work o ord).state) :
    p (s.withOrder order work).state := by
  refine State.withHandle_state hs fun o _ => ?_
  split
  · exact hs
  · exact hw _ _ ‹_›

theorem State.withBay_state {s : State} {p : State → Prop} (hs : p s) {bay : Nat} {work : BayNo → SetHandle → Answer}
    (hw : ∀ b n, s.bay b = some n → p (work b n).state) : p (s.withBay bay work).state := by
  refine State.withHandle_state hs fun b _ => ?_
  split
  · exact hs
  · exact hw _ _ ‹_›

/-! ### The changes that commands make -/

/-- What the work of a command can change once its checks have passed, with what the checks have found: one case for each
effect of a command's rule. -/
inductive Change (s : State) : State → Prop
  | configureField (f : FieldNo) (rows posts tall accessible channel signOn signOff : Nat)
      (dark : (s.program f).state = .dark) (size : 1 ≤ rows ∧ rows ≤ 16 ∧ 1 ≤ posts ∧ posts ≤ 32)
      (bounds : 1 ≤ tall ∧ tall ≤ rows + 1 ∧ accessible ≤ 8 ∧ accessible ≤ posts) :
      Change s (s.setUnit f
        { s.unit f with
          rows := rows, posts := posts, tall := tall, accessible := accessible, channel := some channel
          signOn := signOn, signOff := signOff, stalls := Vector.replicate 512 none })
  | writeClosedRows (f : FieldNo) (closed : BitVec 16) : Change s (s.writeClosedRows f closed).state
  | configureTimebase (f : FieldNo) (x : LockSettings)
      (state : (s.program f).state = .dark ∨ (s.program f).state = .opened)
      (window : 1 ≤ x.window ∧ x.window ≤ 64) (gain : x.gain ≤ 64) (jump : 1 ≤ x.jump ∧ x.jump ≤ 4096)
      (holdover : 1 ≤ x.holdover ∧ x.holdover ≤ 48) (reacquire : 24 ≤ x.reacquire ∧ x.reacquire ≤ 480) :
      Change s (s.setTimebase f { s.timebase f with settings := x })
  | beginProgram (f : FieldNo) (header : Header) (dark : (s.program f).state = .dark)
      (cutoffSegment : ∀ c, header.cutoffSegment = some c → c ≤ 23) (cutoffFrames : header.cutoffFrames ≤ 1048575)
      (lead : header.lead ≤ 65535) :
      Change s (s.setProgram f { s.program f with record := .draft header [] })
  | addSegment (f : FieldNo) (header : Header) (segs : List Segment) (seg : Segment)
      (dark : (s.program f).state = .dark) (draft : (s.program f).record = .draft header segs)
      (room : segs.length < 24) (length : 1 ≤ seg.length ∧ seg.length ≤ 1048575) (title : seg.title ≤ 255) :
      Change s (s.setProgram f { s.program f with record := .draft header (segs ++ [seg]) })
  | openField (f : FieldNo) (header : Header) (segs : List Segment) (dark : (s.program f).state = .dark)
      (configured : (s.unit f).rows ≠ 0) (draft : (s.program f).record = .draft header segs)
      (valid : validDraft header segs = true) : Change s (s.openFieldWith f header segs)
  | startShow (f : FieldNo) (opened : (s.program f).state = .opened) :
      Change s (((s.setProgram f { s.program f with state := .running, segment := 0, frame := 0 }.withCues).setTimebase f
        (s.timebase f).sought).fieldChange f)
  | pauseShow (f : FieldNo) (state : (s.program f).state = .running ∨ (s.program f).state = .paused .stall) :
      Change s (((s.setProgram f { s.program f with state := .paused .host }).setTimebase f
        (s.timebase f).freed).fieldChange f)
  | resumeShow (f : FieldNo) (paused : (s.program f).state = .paused .host) :
      Change s (((s.setProgram f { s.program f with state := .running }).setTimebase f
        (s.timebase f).sought).fieldChange f)
  | skipSegment (f : FieldNo) (inShow : (s.program f).state.inShow = true) : Change s (s.skipSegment f)
  | endShow (f : FieldNo) (inShow : (s.program f).state.inShow = true) : Change s ((s.endField f).fieldChange f)
  | closeForced (f : FieldNo) (state : (s.program f).state = .opened ∨ (s.program f).state = .ended) :
      Change s ((s.cascade f).goDark f)
  | closeEmpty (f : FieldNo) (state : (s.program f).state = .opened ∨ (s.program f).state = .ended)
      (empty : (s.unit f).occupancy = 0) : Change s (s.goDark f)
  | admission (q : AdmitRequest) (h : CarHandle) (st : Stall) (waiting : (s.lane (entryLane q.lane)).state = .waiting)
      (admits : (s.program q.field).state.admits = true) (ticket : s.ticketInUse q.ticket = false)
      (vacant : s.vacantEntry = some h) (chosen : (s.unit q.field).choose q.cls q.named = .ok st) :
      Change s (s.admitInto q h st)
  | refuse (l : Fin 4) (waiting : (s.lane (entryLane l)).state = .waiting) :
      Change s (s.setLane (entryLane l) { s.lane (entryLane l) with state := .refused })
  | depart (l : LaneNo) (h : CarHandle) (c : Car) (exit : 4 ≤ l.val) (waiting : (s.lane l).state = .waiting)
      (car : s.car h = some c) (present : c.state = .present) (notHeld : c.held = false)
      (notLent : ∀ n, c.lent ≠ some (n, .lent)) : Change s (s.departCar l h c)
  | letOut (l : LaneNo) (exit : 4 ≤ l.val) (waiting : (s.lane l).state = .waiting) :
      Change s (s.setLane l ((s.lane l).openFor none))
  | configureLanes (mask passTime : Nat) : Change s (s.setPassTimes mask passTime)
  | holdEntry (h : CarHandle) (c : Car) (car : s.car h = some c) : Change s (s.setCar h (some { c with held := true }))
  | moveEntry (h : CarHandle) (c : Car) (f : FieldNo) (named : Option Stall) (st : Stall) (car : s.car h = some c)
      (held : c.held = true)
      (cross : f ≠ c.field → c.lent = none ∧ c.orders = [] ∧ (s.program f).state.admits = true)
      (chosen : (s.unit f).choose c.cls named = .ok st) : Change s (s.moveCar h c f st)
  | amendEntry (h : CarHandle) (c : Car) (x : Amendment) (car : s.car h = some c)
      (fits : ∀ k, x.cls = some k → (s.unit c.field).fits k c.stall = true) : Change s (s.setCar h (some (x.apply c)))
  | releaseEntry (h : CarHandle) (c : Car) (car : s.car h = some c) :
      Change s (s.setCar h (some { c with held := false }))
  | retireEntry (h : CarHandle) (c : Car) (car : s.car h = some c) (present : c.state = .present)
      (notHeld : c.held = false) : Change s (s.retireCar h .retire)
  | readTouched (hs : List CarHandle) : Change s (s.clearTouched hs)
  | enrolSet (n : SetHandle) (serial : Nat) (fresh : s.holderOf serial = none) (free : s.freeSlot = some n) :
      Change s (s.setSlot n { state := .absent, serial := serial })
  | removeSet (n : SetHandle) (issuing : (s.slot n).state ≠ .issuing) (lent : (s.slot n).state ≠ .lent) :
      Change s ((s.clearBay n).setSlot n {})
  | lendSet (n : SetHandle) (h : CarHandle) (c : Car) (car : s.car h = some c) (noSet : c.lent = none)
      (room : s.issuingCount < 4) (chosen : s.chooseSet = some n) : Change s (s.issueSet n h c)
  | dockForeign : Change s (s.raiseSet .foreign)
  | dockIn (n : SetHandle) (b : BayNo) (serial level : Nat) (holder : s.holderOf serial = some n) :
      Change s ((s.undockFrom (s.displacedBy n b)).arrive n b level)
  | completeLend (b : BayNo) (n : SetHandle) (bay : s.bay b = some n) (state : (s.slot n).state = .issuing) :
      Change s ((s.liftFrom b n).completeLend n)
  | removeUnlawfully (b : BayNo) (n : SetHandle) (bay : s.bay b = some n)
      (state : (s.slot n).state = .ready ∨ (s.slot n).state = .charging) :
      Change s ((s.liftFrom b n).removeUnlawfully n)
  | lift (b : BayNo) (n : SetHandle) (bay : s.bay b = some n) (docks : (s.slot n).state.docks = false) :
      Change s (s.liftFrom b n)
  | charge (b : BayNo) (n : SetHandle) (level : Nat) (bay : s.bay b = some n) :
      Change s (s.setSlot n
        { s.slot n with charge := level, state := chargedState s.readyLevel level (s.slot n).state })
  | setFault (b : BayNo) (n : SetHandle) (bay : s.bay b = some n) : Change s (s.failSet n)
  | serviceSet (n : SetHandle) (faulty : (s.slot n).state = .faulty) :
      Change s (s.setSlot n { s.slot n with state := s.servicedState (s.slot n) })
  | configureSets (readyLevel issueTime : Nat) : Change s { s with readyLevel := readyLevel, issueTime := issueTime }
  | placeOrder (h : CarHandle) (c : Car) (o : OrderHandle) (mode : ReleaseMode) (args : List LineArg)
      (lines : List OrderLine) (car : s.car h = some c) (present : c.state = .present) (room : c.orders.length < 4)
      (free : s.freeOrder = some o) (read : linesOf args = some lines) (count : 1 ≤ args.length ∧ args.length ≤ 6) :
      Change s ((s.parkOrder o h c.field mode lines).placeDueCheck o c.field mode)
  | cancelOrder (o : OrderHandle) (ord : Order) (order : s.order o = some ord) (notPending : ord.cancelPending = false) :
      Change s (s.cancelAtStage o ord)
  | stationNext (n : StationNo) (o : OrderHandle) (k : Nat) (ord : Order) (l : OrderLine)
      (oldest : s.oldestWaiting n = some (o, k)) (order : s.order o = some ord) (line : ord.lines[k]? = some l) :
      Change s (s.setOrder o (some (ord.handOut k)))
  | lineDone (o : OrderHandle) (k : Nat) (ord : Order) (order : s.order o = some ord)
      (started : ord.lineState k = some .started) : Change s (s.finishLine o ord k)
  | configureKitchen (mask xoff xon prepLimit : Nat) (below : xon < xoff) :
      Change s { s.setThresholds mask xoff xon with prepLimit := prepLimit }.afterThresholds
  | tripReport (o : OrderHandle) (ord : Order) (delivered : Bool) (order : s.order o = some ord)
      (onTrip : ord.stage = .onTrip) : Change s (s.reportOrder o ord delivered)
  | recallTrip (k : TripHandle) (out : (s.trip k).state = .out) : Change s (s.recallTrip k)
  | configureTrips (window : Nat) : Change s { s with window := window }
  | clearCauses (w : BitVec 10) : Change s { s with attention := s.attention.clear w }
  | setCauseMask (w : BitVec 10) : Change s { s with attention := { s.attention with mask := w } }

/-! ### The changes of each family of commands -/

/-- CLOSE DAY, its check passed, clears the tallies and the admission serial counter (R64). -/
def State.dayClosed (s : State) : State := { s with tallies := Vector.replicate 64 0, serialCounter := 0 }

/-- The work of a command that is refused, or that only reads, leaves the state; else it makes a change of its rule. CLOSE
DAY is the command that clears the day's counts. -/
def Worked (s t : State) : Prop := t = s ∨ Change s t

variable (s : State)

theorem worked_self : Worked s s := .inl rfl

theorem worked_ok {s t : State} (h : Change s t) (bytes : List Nat) : Worked s (t.ok bytes).state := .inr h

/-! Fields, programs, timebases. -/

theorem worked_configureField (field rows posts tall accessible channel signOn signOff : Nat) :
    Worked s (workConfigureField field rows posts tall accessible channel signOn signOff s).state := by
  refine State.withHandle_state (worked_self s) fun f _ => State.checked_state (worked_self s) fun hc => .inr ?_
  simp only [List.forall_mem_cons, Bool.and_eq_true, decide_eq_true_eq, beq_iff_eq] at hc
  obtain ⟨dark, ⟨⟨h1, h2⟩, h3, h4⟩, ⟨h5, h6⟩, ⟨h7, h8⟩, -⟩ := hc
  exact .configureField f rows posts tall accessible channel signOn signOff dark ⟨h1, h2, h3, h4⟩ ⟨h5, h6, h7, h8⟩

theorem worked_closeRows (field mask : Nat) : Worked s (workCloseRows field mask s).state :=
  State.withHandle_state (worked_self s) fun f _ => .inr (.writeClosedRows f _)

theorem worked_openRows (field mask : Nat) : Worked s (workOpenRows field mask s).state :=
  State.withHandle_state (worked_self s) fun f _ => .inr (.writeClosedRows f _)

theorem worked_readField (field row : Nat) : Worked s (workReadField field row s).state := by
  refine State.withHandle_state (worked_self s) fun f _ => ?_
  split
  · exact worked_self s
  · exact State.withHandle_state (worked_self s) fun r _ => State.checked_state (worked_self s) fun _ => worked_self s

theorem worked_configureTimebase (field window gain jump holdover reacquire : Nat) :
    Worked s (workConfigureTimebase field window gain jump holdover reacquire s).state := by
  refine State.withHandle_state (worked_self s) fun f _ => State.checked_state (worked_self s) fun hc => .inr ?_
  simp only [List.forall_mem_cons, Bool.and_eq_true, Bool.or_eq_true, decide_eq_true_eq, beq_iff_eq] at hc
  obtain ⟨state, ⟨⟨⟨⟨hw, hg⟩, hj⟩, hh⟩, hr⟩, -⟩ := hc
  exact .configureTimebase f _ state hw hg hj hh hr

theorem worked_beginProgram (field ns cutoffSegment cutoffFrames leadGiven lead openCues endCues : Nat) :
    Worked s (workBeginProgram field ns cutoffSegment cutoffFrames leadGiven lead openCues endCues s).state := by
  refine State.withHandle_state (worked_self s) fun f _ => State.checked_state (worked_self s) fun hc => .inr ?_
  simp only [List.forall_mem_cons, Bool.and_eq_true, Bool.or_eq_true, decide_eq_true_eq, beq_iff_eq] at hc
  obtain ⟨dark, ⟨⟨⟨⟨⟨hseg, hframes⟩, -⟩, hlead⟩, -⟩, -⟩, -⟩ := hc
  refine .beginProgram f _ dark (fun c hc => ?_) hframes ?_
  · simp only [sentinel, ite_eq_iff, reduceCtorEq, and_false, false_or, Option.some.injEq] at hc
    omega
  · dsimp only
    split <;> omega

theorem worked_addSegment (field kind length title cues runners : Nat) :
    Worked s (workAddSegment field kind length title cues runners s).state := by
  refine State.withHandle_state (worked_self s) fun f _ => State.checked_state (worked_self s) fun hdark => ?_
  split
  case h_1 header segs draft =>
    split
    · exact worked_self s
    · refine State.checked_state (worked_self s) fun hc => .inr ?_
      simp only [List.forall_mem_cons, Bool.and_eq_true, decide_eq_true_eq, beq_iff_eq] at hc hdark
      obtain ⟨⟨⟨⟨hlength, htitle⟩, -⟩, -⟩, room, -⟩ := hc
      exact .addSegment f header segs _ hdark.1 draft room hlength htitle
  all_goals exact worked_self s

theorem worked_openField (field : Nat) : Worked s (workOpenField field s).state := by
  refine State.withHandle_state (worked_self s) fun f _ => State.checked_state (worked_self s) fun hc => ?_
  split
  case h_1 header segs draft =>
    refine State.checked_state (worked_self s) fun hvalid => .inr ?_
    simp only [List.forall_mem_cons, beq_iff_eq, FieldUnit.configured, bne_iff_ne] at hc hvalid
    exact .openField f header segs hc.1 hc.2.1 draft hvalid.1
  all_goals exact worked_self s

theorem worked_startShow (field : Nat) : Worked s (workStartShow field s).state := by
  refine State.withHandle_state (worked_self s) fun f _ => State.checked_state (worked_self s) fun hc => .inr ?_
  simp only [List.forall_mem_cons, beq_iff_eq] at hc
  exact .startShow f hc.1

theorem worked_pauseShow (field : Nat) : Worked s (workPauseShow field s).state := by
  refine State.withHandle_state (worked_self s) fun f _ => State.checked_state (worked_self s) fun hc => .inr ?_
  simp only [List.forall_mem_cons, Bool.or_eq_true, beq_iff_eq] at hc
  exact .pauseShow f hc.1

theorem worked_resumeShow (field : Nat) : Worked s (workResumeShow field s).state := by
  refine State.withHandle_state (worked_self s) fun f _ => State.checked_state (worked_self s) fun hc => .inr ?_
  simp only [List.forall_mem_cons, beq_iff_eq] at hc
  exact .resumeShow f hc.1

theorem worked_skipSegment (field : Nat) : Worked s (workSkipSegment field s).state := by
  refine State.withHandle_state (worked_self s) fun f _ => State.checked_state (worked_self s) fun hc => .inr ?_
  simp only [List.forall_mem_cons] at hc
  exact .skipSegment f hc.1

theorem worked_endShow (field : Nat) : Worked s (workEndShow field s).state := by
  refine State.withHandle_state (worked_self s) fun f _ => State.checked_state (worked_self s) fun hc => .inr ?_
  simp only [List.forall_mem_cons] at hc
  exact .endShow f hc.1

theorem worked_closeField (field force : Nat) : Worked s (workCloseField field force s).state := by
  refine State.withHandle_state (worked_self s) fun f _ => State.checked_state (worked_self s) fun hc => ?_
  simp only [List.forall_mem_cons, Bool.or_eq_true, beq_iff_eq] at hc
  obtain ⟨-, state, hempty, -⟩ := hc
  by_cases hforce : force = 1
  · rw [if_pos hforce]
    exact worked_ok (.closeForced f state) _
  · rw [if_neg hforce]
    exact .inr (.closeEmpty f state (hempty.resolve_left hforce))

theorem worked_readProgram (field segment : Nat) : Worked s (workReadProgram field segment s).state := by
  refine State.withHandle_state (worked_self s) fun f _ => ?_
  split
  · exact worked_self s
  · split <;> exact worked_self s

/-! Lanes. -/

theorem worked_admit (lane field cls party ticket : Nat) (plate : List Nat) (named : Option (Nat × Nat)) :
    Worked s (workAdmit lane field cls party ticket plate named s).state := by
  unfold workAdmit
  split
  · exact worked_self s
  · rename_i q _
    refine State.checked_state (worked_self s) fun hc => ?_
    simp only [List.forall_mem_cons, Bool.not_eq_true', beq_iff_eq] at hc
    obtain ⟨waiting, -, admits, -, ticket, -⟩ := hc
    split
    · exact worked_self s
    · rename_i h vacant
      split
      · exact worked_self s
      · exact .inr (.admission q h _ waiting admits ticket vacant ‹_›)

theorem worked_refuse (lane : Nat) : Worked s (workRefuse lane s).state := by
  refine State.withHandle_state (worked_self s) fun l _ => State.checked_state (worked_self s) fun hc => .inr ?_
  simp only [List.forall_mem_cons, beq_iff_eq] at hc
  exact .refuse l hc.1

/-- The number names an exit lane (R54, R57). -/
theorem exitLaneOf_ge {lane : Nat} {l : LaneNo} (h : exitLaneOf lane = some l) : 4 ≤ l.val := by
  unfold exitLaneOf handle? at h
  split at h
  · cases h
  · split at h
    · cases h
      exact not_lt.mp ‹¬lane < 4›
    · cases h

theorem worked_depart (lane car : Nat) : Worked s (workDepart lane car s).state := by
  unfold workDepart
  split
  · rename_i l h hl _
    refine State.checked_state (worked_self s) fun hw => ?_
    split
    · exact worked_self s
    · rename_i c hcar
      refine State.checked_state (worked_self s) fun hc => .inr ?_
      simp only [departChecks, List.forall_mem_cons, Bool.not_eq_true', beq_iff_eq] at hc hw
      obtain ⟨present, notHeld, notLent, -⟩ := hc
      refine .depart l h c (exitLaneOf_ge hl) hw.1 hcar present notHeld fun n hn => ?_
      simp [hn] at notLent
  · exact worked_self s

theorem worked_letOut (lane : Nat) : Worked s (workLetOut lane s).state := by
  unfold workLetOut
  split
  · exact worked_self s
  · refine State.checked_state (worked_self s) fun hw => .inr ?_
    simp only [List.forall_mem_cons, beq_iff_eq] at hw
    exact .letOut _ (exitLaneOf_ge ‹_›) hw.1

theorem worked_readLane (lane : Nat) : Worked s (workReadLane lane s).state :=
  State.withHandle_state (worked_self s) fun _ _ => worked_self s

theorem worked_configureLanes (mask passTime : Nat) : Worked s (workConfigureLanes mask passTime s).state :=
  State.checked_state (worked_self s) fun _ => .inr (.configureLanes mask passTime)

/-! The lot register. -/

theorem worked_readEntry (car : Nat) : Worked s (workReadEntry car s).state :=
  State.withHandle_state (worked_self s) fun _ _ => worked_self s

theorem worked_lookupTicket (ticket : Nat) : Worked s (workLookupTicket ticket s).state := by
  refine State.checked_state (worked_self s) fun _ => ?_
  split <;> exact worked_self s

theorem worked_lookupPlate (plate : List Nat) : Worked s (workLookupPlate plate s).state := by
  unfold workLookupPlate
  split
  · exact worked_self s
  · refine State.checked_state (worked_self s) fun _ => ?_
    dsimp only
    split <;> exact worked_self s

theorem worked_lookupStall (field row post : Nat) : Worked s (workLookupStall field row post s).state := by
  unfold workLookupStall
  (repeat' split) <;> exact worked_self s

theorem worked_holdEntry (car : Nat) : Worked s (workHoldEntry car s).state :=
  State.withHandle_state (worked_self s) fun h _ => State.withCar_state (worked_self s) fun c hcar =>
    State.checked_state (worked_self s) fun _ => .inr (.holdEntry h c hcar)

theorem worked_moveEntry (car target row post : Nat) : Worked s (workMoveEntry car target row post s).state := by
  unfold workMoveEntry
  split
  · rename_i h f named _ _ _
    refine State.withCar_state (worked_self s) fun c hcar => State.checked_state (worked_self s) fun hheld =>
      State.checked_state (worked_self s) fun hc => ?_
    split
    · exact worked_self s
    · simp only [List.forall_mem_cons] at hheld
      refine .inr (.moveEntry h c _ named _ hcar hheld.1 (fun hne => ?_) ‹_›)
      rw [if_neg (by simpa using hne)] at hc
      simp only [State.crossChecks, List.forall_mem_cons, Option.isNone_iff_eq_none, List.isEmpty_iff] at hc
      exact ⟨hc.1, hc.2.1, hc.2.2.1⟩
  · exact worked_self s

theorem worked_amendEntry (car flags : Nat) (plate : List Nat) (cls party : Nat) :
    Worked s (workAmendEntry car flags plate cls party s).state := by
  unfold workAmendEntry
  split
  · rename_i h x _ _
    refine State.withCar_state (worked_self s) fun c hcar => State.checked_state (worked_self s) fun hc => .inr ?_
    simp only [List.forall_mem_cons, Option.all_eq_true_iff_get] at hc
    refine .amendEntry h c x hcar fun k hk => ?_
    simpa [hk] using hc.2.1
  · exact worked_self s

theorem worked_releaseEntry (car : Nat) : Worked s (workReleaseEntry car s).state :=
  State.withHandle_state (worked_self s) fun h _ => State.withCar_state (worked_self s) fun c hcar =>
    State.checked_state (worked_self s) fun _ => .inr (.releaseEntry h c hcar)

theorem worked_retireEntry (car force : Nat) : Worked s (workRetireEntry car force s).state := by
  refine State.withHandle_state (worked_self s) fun h _ => State.checked_state (worked_self s) fun _ =>
    State.withCar_state (worked_self s) fun c hcar => State.checked_state (worked_self s) fun hc => .inr ?_
  simp only [List.forall_mem_cons, Bool.not_eq_true', beq_iff_eq] at hc
  exact .retireEntry h c hcar hc.1 hc.2.1

theorem worked_readTouched : Worked s (workReadTouched s).state := by
  unfold workReadTouched
  exact worked_ok (.readTouched (s.touchedList.take 32)) _

/-! The set pool. -/

theorem worked_enrolSet (serial : Nat) : Worked s (workEnrolSet serial s).state := by
  refine State.checked_state (worked_self s) fun hc => ?_
  simp only [List.forall_mem_cons, Option.isNone_iff_eq_none] at hc
  split
  · exact worked_self s
  · exact .inr (.enrolSet _ serial hc.2.1 ‹_›)

theorem worked_removeSet (slot : Nat) : Worked s (workRemoveSet slot s).state := by
  refine State.withHandle_state (worked_self s) fun n _ => State.checked_state (worked_self s) fun hc => .inr ?_
  simp only [List.forall_mem_cons, Bool.and_eq_true, bne_iff_ne] at hc
  exact .removeSet n hc.2.1.1 hc.2.1.2

theorem worked_lendSet (car : Nat) : Worked s (workLendSet car s).state := by
  refine State.withHandle_state (worked_self s) fun h _ => ?_
  split
  · exact worked_self s
  · rename_i c hcar
    refine State.checked_state (worked_self s) fun hc => ?_
    simp only [State.lendChecks, List.forall_mem_cons, Option.isNone_iff_eq_none, decide_eq_true_eq] at hc
    obtain ⟨-, -, noSet, -, room, -⟩ := hc
    split
    · exact worked_self s
    · exact .inr (.lendSet _ h c hcar noSet room ‹_›)

theorem worked_dockIn (bay serial level : Nat) : Worked s (workDockIn bay serial level s).state := by
  refine State.withHandle_state (worked_self s) fun b _ => State.checked_state (worked_self s) fun _ => ?_
  split
  · exact .inr .dockForeign
  · exact .inr (.dockIn _ b serial level ‹_›)

theorem worked_dockOut (bay : Nat) : Worked s (workDockOut bay s).state := by
  refine State.withBay_state (worked_self s) fun b n hbay => ?_
  dsimp only
  split <;> rename_i hstate
  · exact .inr (.completeLend b n hbay hstate)
  · exact .inr (.removeUnlawfully b n hbay (.inl hstate))
  · exact .inr (.removeUnlawfully b n hbay (.inr hstate))
  all_goals exact .inr (.lift b n hbay (by rw [hstate]; rfl))

theorem worked_charge (bay level : Nat) : Worked s (workCharge bay level s).state :=
  State.withHandle_state (worked_self s) fun _ _ => State.checked_state (worked_self s) fun _ =>
    State.withBay_state (worked_self s) fun b n hbay => .inr (.charge b n level hbay)

theorem worked_setFault (bay : Nat) : Worked s (workSetFault bay s).state :=
  State.withBay_state (worked_self s) fun b n hbay => .inr (.setFault b n hbay)

theorem worked_serviceSet (slot : Nat) : Worked s (workServiceSet slot s).state := by
  refine State.withHandle_state (worked_self s) fun n _ => State.checked_state (worked_self s) fun hc => .inr ?_
  simp only [List.forall_mem_cons, beq_iff_eq] at hc
  exact .serviceSet n hc.1

theorem worked_readSet (selector number : Nat) : Worked s (workReadSet selector number s).state := by
  unfold workReadSet
  split
  · exact State.withHandle_state (worked_self s) fun _ _ => worked_self s
  · exact State.withBay_state (worked_self s) fun _ _ _ => worked_self s
  · exact worked_self s

theorem worked_configureSets (readyLevel issueTime : Nat) : Worked s (workConfigureSets readyLevel issueTime s).state :=
  State.checked_state (worked_self s) fun _ => .inr (.configureSets readyLevel issueTime)

/-! The order book, the kitchen, the trips. -/

theorem worked_placeOrder (car mode count : Nat) (lines : List LineArg) :
    Worked s (workPlaceOrder car mode count lines s).state := by
  unfold workPlaceOrder
  split
  · exact worked_self s
  · rename_i h m hrequest
    have hcount : 1 ≤ lines.length ∧ lines.length ≤ 6 := by
      unfold placeRequest? at hrequest
      split at hrequest
      · split at hrequest
        · rename_i hc
          simp only [Bool.and_eq_true, decide_eq_true_eq, beq_iff_eq] at hc
          omega
        · cases hrequest
      · cases hrequest
    split
    · exact worked_self s
    · rename_i c hcar
      refine State.checked_state (worked_self s) fun hc => ?_
      simp only [State.placeChecks, List.forall_mem_cons, beq_iff_eq, decide_eq_true_eq] at hc
      obtain ⟨present, -, -, room, -⟩ := hc
      split
      · exact worked_self s
      · exact worked_self s
      · rename_i o ls hfree hlines
        exact .inr (.placeOrder h c o m lines ls hcar present room hfree hlines hcount)

theorem worked_cancelOrder (order : Nat) : Worked s (workCancelOrder order s).state := by
  refine State.withOrder_state (worked_self s) fun o ord hord => ?_
  split
  · exact worked_self s
  · rename_i hpending
    have hchange : Worked s (s.cancelAtStage o ord) := .inr (.cancelOrder o ord hord (Bool.eq_false_iff.mpr hpending))
    dsimp only
    split <;> exact hchange

theorem worked_stationNext (station : Nat) : Worked s (workStationNext station s).state := by
  refine State.withHandle_state (worked_self s) fun n _ => ?_
  split
  · exact worked_self s
  · split
    · exact worked_self s
    · split
      · exact worked_self s
      · exact .inr (.stationNext n _ _ _ _ ‹_› ‹_› ‹_›)

theorem worked_lineDone (order line : Nat) : Worked s (workLineDone order line s).state := by
  refine State.checked_state (worked_self s) fun _ => State.withOrder_state (worked_self s) fun o ord hord =>
    State.checked_state (worked_self s) fun hc => .inr ?_
  simp only [List.forall_mem_cons, beq_iff_eq] at hc
  exact .lineDone o line ord hord hc.2.1

theorem worked_readOrder (order : Nat) : Worked s (workReadOrder order s).state :=
  State.withOrder_state (worked_self s) fun _ _ _ => worked_self s

theorem worked_configureKitchen (mask xoff xon prepLimit : Nat) :
    Worked s (workConfigureKitchen mask xoff xon prepLimit s).state := by
  refine State.checked_state (worked_self s) fun hc => .inr ?_
  simp only [List.forall_mem_cons, Bool.and_eq_true, decide_eq_true_eq] at hc
  exact .configureKitchen mask xoff xon prepLimit hc.1.1.2

theorem worked_readTrip (trip : Nat) : Worked s (workReadTrip trip s).state :=
  State.withHandle_state (worked_self s) fun _ _ => worked_self s

theorem worked_tripReport (order outcome : Nat) : Worked s (workTripReport order outcome s).state := by
  refine State.checked_state (worked_self s) fun _ => State.withHandle_state (worked_self s) fun o _ => ?_
  split
  · exact worked_self s
  · rename_i ord hord
    refine State.checked_state (worked_self s) fun hc => .inr ?_
    simp only [List.forall_mem_cons, beq_iff_eq] at hc
    exact .tripReport o ord _ hord hc.1

theorem worked_recallTrip (trip : Nat) : Worked s (workRecallTrip trip s).state := by
  refine State.withHandle_state (worked_self s) fun k _ => State.checked_state (worked_self s) fun hc => .inr ?_
  simp only [List.forall_mem_cons, beq_iff_eq] at hc
  exact .recallTrip k hc.1

theorem worked_configureTrips (window : Nat) : Worked s (workConfigureTrips window s).state :=
  State.checked_state (worked_self s) fun _ => .inr (.configureTrips window)

/-! The attention unit and the tally bank. -/

theorem worked_clearCauses (word : Nat) : Worked s (workClearCauses word s).state :=
  State.checked_state (worked_self s) fun _ => .inr (.clearCauses _)

theorem worked_setCauseMask (word : Nat) : Worked s (workSetCauseMask word s).state :=
  State.checked_state (worked_self s) fun _ => .inr (.setCauseMask _)

theorem worked_readTallies (group : Nat) : Worked s (workReadTallies group s).state := by
  unfold workReadTallies
  split <;> exact worked_self s

theorem workCloseDay_state : (workCloseDay s).state = s ∨ (workCloseDay s).state = s.dayClosed :=
  State.checked_state (p := fun t => t = s ∨ t = s.dayClosed) (.inl rfl) fun _ => .inr rfl

/-- The work of every command but CLOSE DAY leaves the state or makes a change of its rule. -/
theorem worked_workOf (i : Instr) (hi : i ≠ .closeDay) : Worked s (workOf i s).state := by
  cases i with
  | configureField => exact worked_configureField s ..
  | closeRows => exact worked_closeRows s ..
  | openRows => exact worked_openRows s ..
  | readField => exact worked_readField s ..
  | configureTimebase => exact worked_configureTimebase s ..
  | readTimebase => exact State.withHandle_state (worked_self s) fun _ _ => worked_self s
  | beginProgram => exact worked_beginProgram s ..
  | addSegment => exact worked_addSegment s ..
  | openField => exact worked_openField s _
  | startShow => exact worked_startShow s _
  | pauseShow => exact worked_pauseShow s _
  | resumeShow => exact worked_resumeShow s _
  | skipSegment => exact worked_skipSegment s _
  | endShow => exact worked_endShow s _
  | closeField => exact worked_closeField s ..
  | readProgram => exact worked_readProgram s ..
  | admitCar => exact worked_admit s ..
  | refuse => exact worked_refuse s _
  | depart => exact worked_depart s ..
  | letOut => exact worked_letOut s _
  | readLane => exact worked_readLane s _
  | configureLanes => exact worked_configureLanes s ..
  | readEntry => exact worked_readEntry s _
  | lookupTicket t => exact worked_lookupTicket s t
  | lookupPlate => exact worked_lookupPlate s _
  | lookupStall => exact worked_lookupStall s ..
  | holdEntry => exact worked_holdEntry s _
  | moveEntry => exact worked_moveEntry s ..
  | amendEntry => exact worked_amendEntry s ..
  | releaseEntry => exact worked_releaseEntry s _
  | retireEntry => exact worked_retireEntry s ..
  | readTouched => exact worked_readTouched s
  | enrolSet => exact worked_enrolSet s _
  | removeSet => exact worked_removeSet s _
  | lendSet => exact worked_lendSet s _
  | dockIn => exact worked_dockIn s ..
  | dockOut => exact worked_dockOut s _
  | charge => exact worked_charge s ..
  | setFault => exact worked_setFault s _
  | serviceSet => exact worked_serviceSet s _
  | readSet => exact worked_readSet s ..
  | configureSets => exact worked_configureSets s ..
  | placeOrder => exact worked_placeOrder s ..
  | cancelOrder => exact worked_cancelOrder s _
  | stationNext => exact worked_stationNext s _
  | lineDone => exact worked_lineDone s ..
  | readOrder => exact worked_readOrder s _
  | configureKitchen => exact worked_configureKitchen s ..
  | readTrip => exact worked_readTrip s _
  | tripReport => exact worked_tripReport s ..
  | recallTrip => exact worked_recallTrip s _
  | configureTrips => exact worked_configureTrips s _
  | clearCauses => exact worked_clearCauses s _
  | setCauseMask => exact worked_setCauseMask s _
  | readTallies => exact worked_readTallies s _
  | closeDay => exact absurd rfl hi
  | _ => exact worked_self s

/-! ### The changes that events make, and the counting of a cycle -/

/-- What the events of lines and timers can change, and what an MCLK cycle counts. -/
inductive Event (s : State) : State → Prop
  | framePulse (f : FieldNo) : Event s (s.takePulse f)
  | overdue (f : FieldNo) : Event s (s.overduePulse f)
  | holdover (f : FieldNo) : Event s (s.expireHoldover f)
  | reference (f : FieldNo) : Event s (s.dropReference f)
  | strobe (f : FieldNo) : Event s (s.setTimebase f ((s.timebase f).runToStrobe (s.program f).ns))
  | fall (f : FieldNo) : Event s (s.setTimebase f (s.timebase f).runToFall)
  | carrierLoss (f : FieldNo) : Event s (s.loseCarrier f)
  | carrierRise (f : FieldNo) : Event s (s.setProgram f { s.program f with carrier := true })
  | rawArrival (l : LaneNo) (level : LoopLevel) :
      Event s (s.setLane l { s.lane l with arrival := (s.lane l).arrival.rawChange level })
  | rawPass (l : LaneNo) (level : LoopLevel) :
      Event s (s.setLane l { s.lane l with pass := (s.lane l).pass.rawChange level })
  | arrivalOccupied (l : LaneNo) : Event s (s.arrivalOccupied l)
  | arrivalCleared (l : LaneNo) : Event s (s.arrivalCleared l)
  | passOccupied (l : LaneNo) : Event s (s.passOccupied l)
  | passCleared (l : LaneNo) : Event s (s.passCleared l)
  | entryExpiry (l : LaneNo) (entry : l.val < 4) : Event s (s.entryExpiry l)
  | exitExpiry (l : LaneNo) (exit : 4 ≤ l.val) : Event s (s.exitExpiry l)
  | issueExpiry (n : SetHandle) : Event s (s.issueExpiry n)
  | prepExpiry (o : OrderHandle) : Event s (s.prepExpiry o)
  | gatherExpiry (k : TripHandle) : Event s (s.gatherExpiry k)
  | cycleTimebases : Event s s.cycleTimebases
  | countMillisecond : Event s s.countMillisecond

/-- A walk that changes the records of one table, each once and each by its own rule, writes the table so. -/
theorem State.forEach_table {α : Type} {n : Nat} (S : Vector α n → State) (g : Fin n → α → α)
    (turn : Fin n → State → State) (hturn : ∀ i v, turn i (S v) = S (put v i (g i (look v i)))) (v : Vector α n) :
    (S v).forEach (List.finRange n) turn = S (Vector.ofFn fun i => g i (look v i)) := by
  have walk (is : List (Fin n)) (hn : is.Nodup) (v : Vector α n) :
      ∃ w, (S v).forEach is turn = S w ∧ ∀ i, look w i = if i ∈ is then g i (look v i) else look v i := by
    induction is generalizing v with
    | nil => exact ⟨v, rfl, by simp⟩
    | cons x rest ih =>
      obtain ⟨hx, hrest⟩ := List.nodup_cons.mp hn
      obtain ⟨w, hw, hlook⟩ := ih hrest (put v x (g x (look v x)))
      refine ⟨w, ?_, fun i => ?_⟩
      · rw [← hw, ← hturn]
        rfl
      · rw [hlook]
        by_cases hi : x = i
        · subst hi
          simp [hx]
        · simp [hi, Ne.symm hi]
  obtain ⟨w, hw, hlook⟩ := walk (List.finRange n) (List.nodup_finRange n) v
  rw [hw]
  congr 1
  exact table_ext fun i => by rw [hlook, if_pos (List.mem_finRange i)]; simp [look]

/-- Every timebase runs one cycle, and nothing else changes (R91). -/
theorem State.cycleTimebases_eq :
    s.cycleTimebases = { s with timebases := Vector.ofFn fun f => (s.timebase f).cycle (s.program f).ns } :=
  State.forEach_table (fun v => { s with timebases := v }) (fun f x => x.cycle (s.program f).ns) _
    (fun _ _ => rfl) s.timebases

/-- A record whose timer is stopped is left as it is by a millisecond. -/
theorem countDown_of_not_isSome {timer : Option Nat} (h : ¬ timer.isSome) : countDown timer = timer := by
  cases timer <;> simp [countDown] at h ⊢

/-- The timers of lanes, sets, orders and trips run down by a millisecond, and nothing else changes (R1, R45). -/
theorem State.countMillisecond_eq :
    s.countMillisecond =
      { s with
        lanes := Vector.ofFn fun l => (s.lane l).countDown
        sets := Vector.ofFn fun n => { s.slot n with timer := countDown (s.slot n).timer }
        orders := Vector.ofFn fun o => (s.order o).map fun ord => { ord with timer := countDown ord.timer }
        trips := Vector.ofFn fun k => { s.trip k with timer := countDown (s.trip k).timer } } := by
  have hlanes := State.forEach_table (fun v => { s with lanes := v }) (fun _ x => x.countDown)
    (fun l acc => acc.setLane l (acc.lane l).countDown) (fun _ _ => rfl) s.lanes
  have hsets (lanes : Vector Lane 6) := State.forEach_table (fun v => { s with lanes := lanes, sets := v })
    (fun _ x => { x with timer := countDown x.timer })
    (fun n acc =>
      if (acc.slot n).timer.isSome then acc.setSlot n { acc.slot n with timer := countDown (acc.slot n).timer } else acc)
    (fun n v => by
      split
      · rfl
      · rw [countDown_of_not_isSome ‹_›]
        exact congrArg (fun w => { s with lanes := lanes, sets := w }) (put_look v n).symm) s.sets
  have horders (lanes : Vector Lane 6) (sets : Vector SetSlot 128) := State.forEach_table
    (fun v => { s with lanes := lanes, sets := sets, orders := v })
    (fun _ x => x.map fun ord => { ord with timer := countDown ord.timer })
    (fun o acc => acc.modOrder o fun ord => { ord with timer := countDown ord.timer }) (fun _ _ => rfl) s.orders
  have htrips (lanes : Vector Lane 6) (sets : Vector SetSlot 128) (orders : Vector (Option Order) 256) :=
    State.forEach_table (fun v => { s with lanes := lanes, sets := sets, orders := orders, trips := v })
    (fun _ x => { x with timer := countDown x.timer })
    (fun k acc =>
      if (acc.trip k).timer.isSome then acc.setTrip k { acc.trip k with timer := countDown (acc.trip k).timer } else acc)
    (fun k v => by
      split
      · rfl
      · rw [countDown_of_not_isSome ‹_›]
        exact congrArg (fun w => { s with lanes := lanes, sets := sets, orders := orders, trips := w })
          (put_look v k).symm) s.trips
  unfold State.countMillisecond
  dsimp only at hlanes hsets horders htrips ⊢
  rw [hlanes, hsets, horders, htrips]
  rfl

@[simp] theorem State.cycleTimebases_port : s.cycleTimebases.port = s.port := by rw [State.cycleTimebases_eq]
@[simp] theorem State.countMillisecond_port : s.countMillisecond.port = s.port := by rw [State.countMillisecond_eq]

/-- No event of a line or timer touches the port. -/
theorem Event.port {s t : State} (h : Event s t) : t.port = s.port := by
  cases h <;> simp

/-! ### A law carried through every step -/

/-- A law that stands whatever the port, the clock and the queue do, and that every change and every event keeps. -/
structure Kept (P : State → Prop) : Prop where
  outside : ∀ (s : State) (port : Port) (phase freeCount : Nat) (pending : List Instr), P s →
    P { s with port := port, phase := phase, freeCount := freeCount, pending := pending }
  flagged : ∀ (s : State) (k : PortKind), P s → P (s.raisePort k)
  change : ∀ {s t : State}, Change s t → P s → P t
  event : ∀ {s t : State}, Event s t → P s → P t

/-- The law stands when the day's counts are cleared. -/
def SurvivesDay (P : State → Prop) : Prop := ∀ s, P s → P s.dayClosed
/-- The law stands when the part is reset. -/
def SurvivesReset (P : State → Prop) : Prop := ∀ s select, P s → P (s.partReset select)

namespace Kept
variable {P : State → Prop} (K : Kept P) {s : State}
include K

theorem port (port : Port) (h : P s) : P { s with port := port } := K.outside s port s.phase s.freeCount s.pending h

theorem discardReply (h : P s) : P s.discardReply := by
  unfold State.discardReply
  split
  · exact h
  · exact K.flagged _ _ (K.port _ h)

theorem clockStatus (n : Nat) (h : P s) : P (s.clockStatus n) := K.port _ h

theorem complete {a : Answer} (h : P a.state) : P a.complete := K.port _ h

theorem workOf {i : Instr} (hday : SurvivesDay P ∨ i ≠ .closeDay) (h : P s) : P (workOf i s).state := by
  by_cases hi : i = .closeDay
  · subst hi
    obtain e | e : (workCloseDay s).state = s ∨ (workCloseDay s).state = s.dayClosed := workCloseDay_state s
    · exact (congrArg P e).mpr h
    · exact (congrArg P e).mpr (hday.resolve_right (fun hne => hne rfl) s h)
  · obtain e | hc := worked_workOf s i hi
    · exact (congrArg P e).mpr h
    · exact K.change hc h

theorem command {i : Instr} (hday : SurvivesDay P ∨ i ≠ .closeDay) (h : P s) : P (s.command i (Machine.workOf i)) := by
  unfold State.command State.selectPeriod
  split
  · dsimp only
    split
    · exact K.flagged _ _ (K.clockStatus _ h)
    · exact K.complete (K.workOf hday (K.discardReply (K.clockStatus _ h)))
  · exact K.port _ h
  · exact h
  · exact h

theorem judgeFrame (bytes : List Nat) (offBoundary busy : Bool) (h : P s) : P (s.judgeFrame bytes offBoundary busy) := by
  unfold State.judgeFrame
  split
  · exact K.flagged _ _ h
  · split
    · exact K.flagged _ _ h
    · exact K.outside s.discardReply _ s.discardReply.phase _ s.discardReply.pending (K.discardReply h)

theorem selectPeriod {effect : State → State} (heffect : P s → P (effect s)) (h : P s) : P (s.selectPeriod effect) := by
  unfold State.selectPeriod
  split
  exacts [heffect h, K.port _ h, h, h]

theorem wholePeriod (bytes : List Nat) (offBoundary : Bool) (h : P s) : P (s.wholePeriod bytes offBoundary) := by
  unfold State.wholePeriod
  split
  · exact K.clockStatus _ h
  · split
    · exact K.clockStatus _ h
    · split
      · exact K.port _ h
      · exact K.judgeFrame _ _ _ (K.clockStatus _ h)

theorem clockEdges (edges : List SckEdge) (h : P s) : P (s.clockEdges edges) := by
  obtain ⟨select, sdo, e⟩ := s.clockEdges_spec edges
  exact e ▸ K.port _ h

theorem selRises (offBoundary : Bool) (h : P s) : P (s.selRises offBoundary) := by
  unfold State.selRises
  split
  · have high := K.port { s.port with select := .high } h
    unfold State.endPeriod
    split
    · exact high
    · split
      · exact high
      · split
        · unfold State.releaseFetched
          (repeat' split)
          exacts [high, K.port _ high, high]
        · exact K.judgeFrame _ _ _ high
  · exact K.port _ h
  · exact h
  · exact h

theorem selFalls (h : P s) : P s.selFalls := by
  unfold State.selFalls
  split
  exacts [K.port _ h, h, h, h]

theorem commandFrameJudged {bytes : List Nat} {after : PeriodEnd} {t : State}
    (he : execCommandFrameJudged bytes after s = .next t) (h : P s) : P t := by
  unfold execCommandFrameJudged at he
  split at he <;> cases he
  · exact K.wholePeriod _ _ h
  · exact K.selRises _ (K.clockEdges _ h)
  · exact K.clockEdges _ (K.selFalls h)

/-- Every row keeps the law; CLOSE DAY and PART_RESET, where the law survives them. -/
theorem exec {i : Instr} {t : State} (hday : SurvivesDay P ∨ i ≠ .closeDay)
    (hreset : SurvivesReset P ∨ ∀ part, i ≠ .partReset part) (he : exec i s = .next t) (h : P s) : P t := by
  by_cases hframe : i.isFrame = true
  · rw [exec_frame s i hframe] at he
    cases he
    exact K.command hday h
  cases i with
  | readStatus n => cases he; exact K.selectPeriod (K.clockStatus n) h
  | fetchReply n => cases he; exact K.selectPeriod (K.port _) h
  | commandFrameJudged bytes after => exact K.commandFrameJudged he h
  | partReset part =>
    have survives := hreset.resolve_right fun hne => hne part rfl
    cases part <;> cases he
    · exact survives _ _ h
    · exact survives _ _ h
    · dsimp only
      split
      · exact survives _ _ h
      · exact h
  | loopRawChange l loop level =>
    cases loop <;> cases he
    · exact K.event (.rawArrival l level) h
    · exact K.event (.rawPass l level) h
  | arrivalOccupied l => cases he; split; exacts [h, K.event (.arrivalOccupied l) h]
  | arrivalCleared l => cases he; exact K.event (.arrivalCleared l) h
  | passOccupied l => cases he; split; exacts [h, K.event (.passOccupied l) h]
  | passCleared l => cases he; exact K.event (.passCleared l) h
  | entryPassTimerExpiry l => cases he; exact K.event (.entryExpiry _ l.isLt) h
  | exitPassTimerExpiry l => cases he; exact K.event (.exitExpiry _ (Nat.le_add_right 4 l.val)) h
  | framePulse f => cases he; exact K.event (.framePulse f) h
  | pulseOverdue f => cases he; exact K.event (.overdue f) h
  | holdoverExpiry f => cases he; exact K.event (.holdover f) h
  | referenceDropped f => cases he; exact K.event (.reference f) h
  | wordStrobe f => cases he; exact K.event (.strobe f) h
  | wordClockFall f => cases he; exact K.event (.fall f) h
  | carrierLoss f => cases he; exact K.event (.carrierLoss f) h
  | carrierRise f => cases he; exact K.event (.carrierRise f) h
  | issueTimerExpiry n => cases he; exact K.event (.issueExpiry n) h
  | prepTimerExpiry o => cases he; exact K.event (.prepExpiry o) h
  | gatherTimerExpiry k => cases he; exact K.event (.gatherExpiry k) h
  | _ => exact absurd rfl hframe

end Kept

/-- No taken CLOSE DAY is under way to its completion. -/
def NoDayTaken (s : State) : Prop := ∀ x, s.port.taken = some x → decodeFrame x.bytes ≠ .command .closeDay

/-- An event that is due is the completion of the taken frame, or one of the events of lines and timers, or none. -/
theorem takeDue_cases (e : Due) : (e = .completion) ∨ s.takeDue e = s ∨ Event s (s.takeDue e) := by
  cases e with
  | completion => exact .inl rfl
  | overdue f => exact .inr (.inr (.overdue f))
  | holdover f => exact .inr (.inr (.holdover f))
  | reference f => exact .inr (.inr (.reference f))
  | loop l which =>
    refine .inr (.inr ?_)
    simp only [State.takeDue, State.loopPasses]
    split
    exacts [.arrivalOccupied l, .arrivalCleared l, .passOccupied l, .passCleared l]
  | passTimer l =>
    refine .inr (.inr ?_)
    by_cases hl : l.val < 4
    · rw [State.takeDue, if_pos (by simpa [isEntryLane] using hl)]
      exact .entryExpiry l hl
    · rw [State.takeDue, if_neg (by simpa [isEntryLane] using hl)]
      exact .exitExpiry l (not_lt.mp hl)
  | issueTimer n => exact .inr (.inr (.issueExpiry n))
  | prepTimer o => exact .inr (.inr (.prepExpiry o))
  | gatherTimer k => exact .inr (.inr (.gatherExpiry k))

namespace Kept
variable {P : State → Prop} (K : Kept P) {s : State}
include K

theorem takeIfDue (e : Due) (hday : SurvivesDay P ∨ NoDayTaken s) (h : P s) :
    P (s.takeIfDue e) ∧ (SurvivesDay P ∨ NoDayTaken (s.takeIfDue e)) := by
  unfold State.takeIfDue
  split
  case isFalse => exact ⟨h, hday⟩
  obtain rfl | he | he := takeDue_cases s e
  · simp only [State.takeDue, State.finishTaken]
    split
    · exact ⟨h, hday⟩
    · rename_i x hx
      refine ⟨K.complete ?_, .inr fun y hy => nomatch hy⟩
      unfold frameWork
      split
      · exact h
      · exact h
      · rename_i i hi
        exact K.workOf (hday.imp_right fun hno hc => hno x hx (hc ▸ hi)) h
  · exact ⟨he.symm ▸ h, he.symm ▸ hday⟩
  · refine ⟨K.event he h, hday.imp_right fun hno x hx => hno x ?_⟩
    rwa [he.port] at hx

theorem takeAll (due : List Due) (hday : SurvivesDay P ∨ NoDayTaken s) (h : P s) : P (takeAll due s) := by
  induction due generalizing s with
  | nil => exact h
  | cons e rest ih =>
    cases rest with
    | nil => exact (K.takeIfDue e hday h).1
    | cons e' rest =>
      have drawn := K.outside s s.port s.phase (s.freeCount + 1) s.pending h
      obtain ⟨h', hday'⟩ := K.takeIfDue e (s := { s with freeCount := s.freeCount + 1 }) hday drawn
      exact ih hday' h'

/-- The counting of a cycle keeps the law and the taken frame. -/
theorem cycle (h : P s) : P s.cycle := by
  have hport : P (s.cycleTimebases).cyclePort := K.port _ (K.event .cycleTimebases h)
  unfold State.cycle State.cycleMillisecond
  split
  · exact K.outside _ _ _ _ _ hport
  · exact K.event .countMillisecond (K.outside _ _ _ _ _ hport)

end Kept

theorem State.cycle_taken : s.cycle.port.taken = s.port.taken.map fun x => { x with left := x.left - 1 } := by
  unfold State.cycle State.cycleMillisecond
  split <;> simp [State.cyclePort]

theorem NoDayTaken.cycle {s : State} (h : NoDayTaken s) : NoDayTaken s.cycle := by
  intro x hx
  rw [State.cycle_taken, Option.map_eq_some_iff] at hx
  obtain ⟨y, hy, rfl⟩ := hx
  exact h y hy

/-- A law kept by every change and event is kept by every step; where CLOSE DAY or PART_RESET is at work, if it survives
them. -/
theorem Kept.step {P : State → Prop} (K : Kept P) {s t : State}
    (hday : SurvivesDay P ∨ (∀ rest, s.pending ≠ .closeDay :: rest) ∧ (s.pending = [] → NoDayTaken s))
    (hreset : SurvivesReset P ∨ ∀ part rest, s.pending ≠ .partReset part :: rest)
    (he : step s = .next t) (h : P s) : P t := by
  unfold Machine.step at he
  split at he
  · rename_i i rest hp
    refine K.exec (hday.imp_right fun hno hi => hno.1 rest (hi ▸ hp))
      (hreset.imp_right fun hno part hi => hno part rest (hi ▸ hp)) he ?_
    exact K.outside s s.port s.phase s.freeCount rest h
  · rename_i hp
    cases he
    unfold State.tick
    split
    · exact h
    · obtain ⟨order, -, e⟩ := settle_takeAll s.cycle _ s.cycle.dueNow rfl
      rw [e]
      exact K.takeAll order (hday.imp_right fun hno => (hno.2 hp).cycle) (K.cycle h)

/-- A law that CLOSE DAY and PART_RESET keep too is kept by every step. -/
theorem Kept.everyStep {P : State → Prop} (K : Kept P) (hday : SurvivesDay P) (hreset : SurvivesReset P) {s t : State}
    (he : Machine.step s = .next t) (h : P s) : P t :=
  K.step (.inl hday) (.inl hreset) he h

end Sys2Proof.Machine
end

section
/-! PROOF. Laws of the order book: what lies aside from the book, what the reports to it make of a law that the book's own
operations keep, and the induction over every step for such a law. -/

namespace Sys2Proof.Machine

/-! ### What lies aside from the order book -/

/-- The order list of an entry, empty where the entry is VACANT (R20). -/
def State.listOf (s : State) (h : CarHandle) : List OrderHandle := (s.car h).elim [] Car.orders

/-- The change from `s` to `t` leaves orders, queues, lists and trips as they are; a tally it changes has been counted, and
a note it adds stays within their number. -/
structure BookStands (s t : State) : Prop where
  orders : t.orders = s.orders
  parked : t.parked = s.parked
  stations : t.stations = s.stations
  hold : t.hold = s.hold
  trips : t.trips = s.trips
  ready : t.readyList = s.readyList
  lists : ∀ h, t.listOf h = s.listOf h
  tallies : ∀ k, s.tally k ≤ 65535 → s.tally k ≤ t.tally k ∧ t.tally k ≤ 65535
  notes : s.attention.notes.length ≤ 8 → t.attention.notes.length ≤ 8

theorem BookStands.refl (s : State) : BookStands s s :=
  ⟨rfl, rfl, rfl, rfl, rfl, rfl, fun _ => rfl, fun _ h => ⟨le_rfl, h⟩, id⟩

theorem BookStands.trans {s t u : State} (h : BookStands s t) (h' : BookStands t u) : BookStands s u where
  orders := h'.orders.trans h.orders
  parked := h'.parked.trans h.parked
  stations := h'.stations.trans h.stations
  hold := h'.hold.trans h.hold
  trips := h'.trips.trans h.trips
  ready := h'.ready.trans h.ready
  lists x := (h'.lists x).trans (h.lists x)
  tallies k hk := ⟨(h.tallies k hk).1.trans (h'.tallies k (h.tallies k hk).2).1, (h'.tallies k (h.tallies k hk).2).2⟩
  notes hn := h'.notes (h.notes hn)

section
variable (s : State)

theorem bookStands_count (k : Tally) (n : Nat) : BookStands s (s.count k n) := by
  refine { BookStands.refl s with tallies := fun j hj => ?_ }
  rw [State.tally_count]
  split <;> rename_i h
  · subst h
    omega
  · exact ⟨le_rfl, hj⟩

theorem bookStands_raiseOrder (o : OrderHandle) (k : NoteKind) : BookStands s (s.raiseOrder o k) := by
  refine { BookStands.refl s with notes := fun hn => ?_ }
  rw [State.raiseOrder_eq]
  dsimp only
  split
  · rw [List.length_append]
    exact ‹_›
  · exact hn

theorem bookStands_touch (h : CarHandle) : BookStands s (s.touch h) := by
  refine { BookStands.refl s with lists := fun k => ?_ }
  by_cases e : h = k
  · subst e
    simp [State.listOf, State.car, State.entry, State.touch, State.raise, State.setEntry]
  · simp [State.listOf, State.car, State.entry, State.touch, State.raise, State.setEntry, e]

theorem bookStands_touchCar (c : Option CarHandle) : BookStands s (s.touchCar c) := by
  cases c with
  | none => exact BookStands.refl s
  | some h => exact bookStands_touch s h

/-- A live entry rewritten with its order list stands aside from the book. -/
theorem bookStands_setCar {h : CarHandle} {c : Option Car} (hc : c.elim [] Car.orders = s.listOf h) :
    BookStands s (s.setCar h c) := by
  refine { BookStands.refl s with lists := fun k => ?_ }
  by_cases e : h = k
  · subst e
    rw [State.listOf, State.car_setCar_self, hc]
  · rw [State.listOf, State.car_setCar_ne _ _ e, State.listOf]

theorem bookStands_modCar (h : CarHandle) {g : Car → Car} (hg : ∀ c, (g c).orders = c.orders) :
    BookStands s (s.modCar h g) := by
  refine bookStands_setCar s ?_
  cases hc : s.car h <;> simp [State.listOf, hc, hg]

theorem bookStands_setCarSet (car : Option CarHandle) (x : Option (SetHandle × SetMark)) :
    BookStands s (s.setCarSet car x) := by
  cases car with
  | none => exact BookStands.refl s
  | some h => exact bookStands_modCar s h fun _ => rfl

/-- A change of tables that hold nothing of the book stands aside from it. -/
theorem bookStands_of_frame {t : State}
    (h : t.orders = s.orders ∧ t.parked = s.parked ∧ t.stations = s.stations ∧ t.hold = s.hold ∧ t.trips = s.trips ∧
      t.readyList = s.readyList ∧ t.entries = s.entries ∧ t.tallies = s.tallies ∧
      t.attention.notes = s.attention.notes) : BookStands s t := by
  obtain ⟨horders, hparked, hstations, hhold, htrips, hready, hentries, htallies, hnotes⟩ := h
  refine ⟨horders, hparked, hstations, hhold, htrips, hready, fun h => ?_, fun k hk => ?_, fun hn => ?_⟩
  · simp only [State.listOf, State.car, State.entry, hentries]
  · simp only [State.tally, htallies] at hk ⊢
    exact ⟨le_rfl, hk⟩
  · rwa [hnotes]

theorem bookStands_cancelIssue (n : SetHandle) : BookStands s (s.cancelIssue n) :=
  (bookStands_of_frame s (by simp)).trans (bookStands_setCarSet (s.setSlot n _) _ _)

theorem bookStands_clearBay (n : SetHandle) : BookStands s (s.clearBay n) := by
  unfold State.clearBay
  split
  · exact BookStands.refl s
  · exact bookStands_of_frame s (by simp)

theorem bookStands_departCar (l : LaneNo) (h : CarHandle) (c : Car) : BookStands s (s.departCar l h c) := by
  have leaves (t : State) : BookStands t ((t.modCar h fun x => { x with state := .leaving, lent := none }).setLane l
      (((t.modCar h fun x => { x with state := .leaving, lent := none }).lane l).openFor (some h))) :=
    (bookStands_modCar t h (g := fun x => { x with state := .leaving, lent := none }) fun _ => rfl).trans
      (bookStands_of_frame _ (by simp))
  unfold State.departCar
  dsimp only
  split
  · exact (bookStands_cancelIssue s _).trans (leaves _)
  · exact leaves s

theorem bookStands_displace (n : SetHandle) : BookStands s (s.displace n) := by
  have hset (t : State) (x : SetSlot) : BookStands t (t.setSlot n x) := bookStands_of_frame t (by simp)
  unfold State.displace
  dsimp only
  split
  · exact (((bookStands_cancelIssue s n).trans (bookStands_touchCar _ _)).trans (bookStands_clearBay _ n)).trans (hset _ _)
  · exact (bookStands_clearBay s n).trans (hset _ _)
  · exact (bookStands_clearBay s n).trans (hset _ _)
  all_goals exact bookStands_clearBay s n

theorem bookStands_takeBay (n : SetHandle) (b : BayNo) : BookStands s (s.takeBay n b) := bookStands_of_frame s (by simp)

theorem bookStands_setSlot (n : SetHandle) (x : SetSlot) : BookStands s (s.setSlot n x) := bookStands_of_frame s (by simp)

theorem bookStands_dockAt (n : SetHandle) (b : BayNo) (level : Nat) : BookStands s (s.dockAt n b level) :=
  ((bookStands_of_frame s (by simp)).trans (bookStands_clearBay (s.setSlot n { s.slot n with charge := level }) n)).trans
    (bookStands_takeBay _ n b)

theorem bookStands_dockByCharge (n : SetHandle) (b : BayNo) (level : Nat) : BookStands s (s.dockByCharge n b level) :=
  (bookStands_dockAt s n b level).trans (bookStands_setSlot _ n _)

theorem bookStands_arrive (n : SetHandle) (b : BayNo) (level : Nat) : BookStands s (s.arrive n b level) := by
  have hset (t : State) (x : SetSlot) : BookStands t (t.setSlot n x) := bookStands_of_frame t (by simp)
  unfold State.arrive
  dsimp only
  split
  · exact ((bookStands_cancelIssue s n).trans (bookStands_touchCar _ _)).trans (bookStands_dockByCharge _ n b level)
  · exact ((((hset s _).trans (bookStands_setCarSet _ _ _)).trans (bookStands_touchCar _ _)).trans
      (bookStands_dockByCharge _ n b level)).trans (bookStands_count _ _ _)
  · exact bookStands_dockAt s n b level
  · exact bookStands_dockByCharge s n b level
  · exact bookStands_dockByCharge s n b level
  · exact bookStands_dockByCharge s n b level
  · exact bookStands_dockByCharge s n b level
  · exact BookStands.refl s

theorem bookStands_setAtRetirement (c : Car) : BookStands s (s.setAtRetirement c) := by
  unfold State.setAtRetirement
  split
  · exact BookStands.refl s
  · exact ((bookStands_of_frame s (by simp)).trans (bookStands_setCarSet (s.setSlot _ _) _ _)).trans (bookStands_count _ _ _)
  · exact bookStands_cancelIssue s _

theorem bookStands_lanesLoseCar (h : CarHandle) : BookStands s (s.lanesLoseCar h) := bookStands_of_frame s (by simp)

theorem bookStands_closeLane (l : LaneNo) : BookStands s (s.closeLane l) := by
  unfold State.closeLane
  dsimp only
  split
  · exact bookStands_of_frame s ⟨rfl, rfl, rfl, rfl, rfl, rfl, rfl, rfl, rfl⟩
  · exact bookStands_of_frame s (by simp)

theorem bookStands_countReacquire (f : FieldNo) (k : Nat) : BookStands s (s.countReacquire f k) := by
  have hset (t : State) (x : Timebase) : BookStands t (t.setTimebase f x) := bookStands_of_frame t (by simp)
  unfold State.countReacquire
  dsimp only
  split
  · exact BookStands.refl s
  · split
    · exact hset s _
    · split
      · exact ((hset s _).trans (bookStands_count _ _ _)).trans (bookStands_of_frame _ ⟨rfl, rfl, rfl, rfl, rfl, rfl, rfl, rfl, rfl⟩)
      · exact hset s _

end

/-! ### Reports to the order book -/

/-- A law that stands whatever lies aside from the book, and that the book's answers to a report keep: the marks of a due
check (R139), a release (R142) and a dispatch (R162). -/
structure Reportable (P : State → Prop) : Prop where
  stands : ∀ {s t : State}, BookStands s t → P s → P t
  marked : ∀ (s : State) (which : Order → Bool), P s → P (s.markDue which)
  released : ∀ (s : State) (o : OrderHandle) (ord : Order), s.order o = some ord → ord.due = true →
    s.fitsQueues ord = true → P s → P (s.release o ord).evaluateHold
  dispatched : ∀ (s : State) (k : TripHandle), (s.trip k).state = .fieldHold → P s → P (s.dispatch k)

namespace Reportable
variable {P : State → Prop} (R : Reportable P) {s : State}
include R

theorem count (k : Tally) (n : Nat) (h : P s) : P (s.count k n) := R.stands (bookStands_count s k n) h

/-- Nothing of the book changes with the field units, programs, timebases, lanes, sets, bays, and the causes. -/
theorem frame {t : State} (h : P s)
    (ht : t.orders = s.orders ∧ t.parked = s.parked ∧ t.stations = s.stations ∧ t.hold = s.hold ∧ t.trips = s.trips ∧
      t.readyList = s.readyList ∧ t.entries = s.entries ∧ t.tallies = s.tallies ∧
      t.attention.notes = s.attention.notes) : P t :=
  R.stands (bookStands_of_frame s ht) h

theorem releaseWalk (os : List OrderHandle) (h : P s) : P (releaseWalk os s) := by
  induction os generalizing s with
  | nil => exact h
  | cons o rest ih =>
    unfold Machine.releaseWalk
    split
    · exact ih h
    · rename_i ord hord
      split
      · exact ih h
      · split
        · exact ih (R.count _ _ h)
        · have hreleased := R.released s o ord hord (by simpa using ‹¬(!ord.due) = true›)
            (by simpa using ‹¬(!s.fitsQueues ord) = true›) h
          dsimp only
          split
          · exact hreleased
          · exact ih hreleased

theorem releasePass (h : P s) : P s.releasePass := by
  unfold State.releasePass
  split
  exacts [h, R.releaseWalk _ h]

theorem dueCheckField (f : FieldNo) (h : P s) : P (s.dueCheckField f) := by
  unfold State.dueCheckField State.dueCheck
  split
  exacts [R.releasePass (R.marked _ _ h), h]

theorem releaseFieldHold (f : FieldNo) (h : P s) : P (s.releaseFieldHold f) := by
  unfold State.releaseFieldHold
  split
  · refine State.forEach_induct P s _ _ (fun k t _ ht => ?_) h
    split
    · rename_i hk
      simp only [Bool.and_eq_true, beq_iff_eq] at hk
      exact R.dispatched t k hk.1 ht
    · exact ht
  · exact h

theorem fieldChange (f : FieldNo) (h : P s) : P (s.fieldChange f) :=
  R.releaseFieldHold f (R.dueCheckField f (R.frame h ⟨rfl, rfl, rfl, rfl, rfl, rfl, rfl, rfl, rfl⟩))

theorem setProgram (f : FieldNo) (p : ProgramUnit) (h : P s) : P (s.setProgram f p) := R.frame h (by simp)
theorem setTimebase (f : FieldNo) (x : Timebase) (h : P s) : P (s.setTimebase f x) := R.frame h (by simp)

theorem raiseSound (f : FieldNo) (h : P s) : P (s.raiseSound f) :=
  R.frame h ⟨rfl, rfl, rfl, rfl, rfl, rfl, rfl, rfl, rfl⟩

theorem frameAdvance (f : FieldNo) (k : Nat) (h : P s) : P (s.frameAdvance f k) := by
  unfold State.frameAdvance
  dsimp only
  split
  · have placed : P (if ((s.program f).advance k).ranOut then
        (s.setProgram f { s.program f with
          segment := ((s.program f).advance k).segment, frame := ((s.program f).advance k).frame }.withCues).endField f
        else s.setProgram f { s.program f with
          segment := ((s.program f).advance k).segment, frame := ((s.program f).advance k).frame }.withCues) := by
      split
      · exact R.setTimebase f _ (R.setProgram f _ (R.setProgram f _ h))
      · exact R.setProgram f _ h
    split
    · exact R.fieldChange f (R.dueCheckField f placed)
    · exact R.dueCheckField f placed
  · exact R.dueCheckField f h

theorem stallField (f : FieldNo) (h : P s) : P (s.stallField f) := by
  unfold State.stallField
  split
  exacts [R.fieldChange f (R.setProgram f _ h), h]

theorem endStall (f : FieldNo) (h : P s) : P (s.endStall f) := by
  unfold State.endStall
  split
  exacts [R.fieldChange f (R.setProgram f _ h), h]

theorem expireHoldover (f : FieldNo) (h : P s) : P (s.expireHoldover f) := by
  unfold State.expireHoldover
  dsimp only
  split
  · split
    · exact R.setTimebase f _ h
    · exact R.stallField f (R.raiseSound f (R.setTimebase f _ h))
  · exact h

theorem countReacquire (f : FieldNo) (k : Nat) (h : P s) : P (s.countReacquire f k) :=
  R.stands (bookStands_countReacquire s f k) h

theorem measuredPulse (f : FieldNo) (k : Nat) (h : P s) : P (s.measuredPulse f k) := by
  refine R.frameAdvance f k (R.countReacquire f k ?_)
  split
  · exact R.raiseSound f (R.count _ _ (R.setTimebase f _ h))
  · exact R.setTimebase f _ h

theorem takePulse (f : FieldNo) (h : P s) : P (s.takePulse f) := by
  unfold State.takePulse
  dsimp only
  split
  · exact h
  · exact h
  · split
    · exact R.frameAdvance f 1 (R.countReacquire f 1 (R.setTimebase f _ h))
    · split
      · exact R.count _ _ h
      · exact R.frameAdvance f 1 (R.countReacquire f 1 (R.setTimebase f _ h))
  · split
    exacts [R.count _ _ h, R.measuredPulse f 1 h]
  · split
    exacts [R.count _ _ h, R.measuredPulse f 1 h]
  · exact R.measuredPulse f _ h
  · exact R.frameAdvance f 1 (R.endStall f (R.setTimebase f _ h))

end Reportable

/-! ### A law of the order book through every step -/

/-- A law that every operation of the order book keeps, from each of a command's or an event's effects on it. -/
structure BookLaw (P : State → Prop) : Prop extends Reportable P where
  told : ∀ (s : State) (h : CarHandle) (c : Car), s.listOf h = c.orders → P s → P (s.ordersAtRetirement h c)
  placed : ∀ (s : State) (h : CarHandle) (c : Car) (o : OrderHandle) (mode : ReleaseMode) (lines : List OrderLine),
    s.car h = some c → c.orders.length < 4 → s.freeOrder = some o → 1 ≤ lines.length ∧ lines.length ≤ 6 →
    (∀ l ∈ lines, l.state = .waiting) → P s → P ((s.parkOrder o h c.field mode lines).placeDueCheck o c.field mode)
  cancelled : ∀ (s : State) (o : OrderHandle) (ord : Order), s.order o = some ord → ord.cancelPending = false → P s →
    P (s.cancelAtStage o ord)
  handedOut : ∀ (s : State) (n : StationNo) (o : OrderHandle) (k : Nat) (ord : Order) (l : OrderLine),
    s.oldestWaiting n = some (o, k) → s.order o = some ord → ord.lines[k]? = some l → P s →
    P (s.setOrder o (some (ord.handOut k)))
  finished : ∀ (s : State) (o : OrderHandle) (k : Nat) (ord : Order), s.order o = some ord →
    ord.lineState k = some .started → P s → P (s.finishLine o ord k)
  thresholds : ∀ (s : State) (mask xoff xon prepLimit : Nat), xon < xoff → P s →
    P { s.setThresholds mask xoff xon with prepLimit := prepLimit }.afterThresholds
  settled : ∀ (s : State) (o : OrderHandle) (ord : Order), s.order o = some ord → ord.stage = .onTrip → P s →
    P (s.retireOrder o)
  recalled : ∀ (s : State) (k : TripHandle), (s.trip k).state = .out → P s → P (s.recallTrip k)
  late : ∀ (s : State) (o : OrderHandle) (ord : Order), s.order o = some ord → P s →
    P (s.setOrder o (some { ord with late := true, timer := none }))
  closed : ∀ (s : State) (k : TripHandle), (s.trip k).state = .gathering → P s → P (s.closeTrip k)
  millisecond : ∀ s : State, P s → P s.countMillisecond

/-- The lines of a placed order are as many as its arguments, and WAITING (R131, R134). -/
theorem linesOf_spec {args : List LineArg} {lines : List OrderLine} (h : linesOf args = some lines) :
    lines.length = args.length ∧ ∀ l ∈ lines, l.state = .waiting := by
  induction args generalizing lines with
  | nil =>
    cases h
    exact ⟨rfl, fun l hl => nomatch hl⟩
  | cons x rest ih =>
    simp only [linesOf, List.mapM_cons, Option.bind_eq_bind, Option.bind_eq_some_iff, Option.pure_def,
      Option.some.injEq] at h ih
    obtain ⟨l, hl, ls, hls, rfl⟩ := h
    obtain ⟨hlength, hwaiting⟩ := ih hls
    refine ⟨congrArg (· + 1) hlength, List.forall_mem_cons.mpr ⟨?_, hwaiting⟩⟩
    unfold lineOf at hl
    split at hl
    · split at hl
      · cases hl
        rfl
      · cases hl
    · cases hl

namespace BookLaw
variable {P : State → Prop} (B : BookLaw P) {s : State}
include B

theorem retireCar (h : CarHandle) (cause : RetireCause) (hs : P s) : P (s.retireCar h cause) := by
  unfold State.retireCar
  split
  · exact hs
  · rename_i c hc
    have hlist : (s.setAtRetirement c).listOf h = c.orders := by
      rw [(bookStands_setAtRetirement s c).lists, State.listOf, hc, Option.elim]
    have settled := B.told _ h c hlist (B.stands (bookStands_setAtRetirement s c) hs)
    have hgone : ((s.setAtRetirement c).ordersAtRetirement h c).listOf h = [] := by
      have hcar : ((s.setAtRetirement c).ordersAtRetirement h c).car h =
          ((s.setAtRetirement c).car h).map fun x => { x with lent := none, orders := [] } := by
        simp only [State.ordersAtRetirement, State.car, State.entry, State.ordersLoseCar_entries]
        exact State.car_setCar_self _ _ _
      rw [State.listOf, hcar]
      cases (s.setAtRetirement c).car h <;> rfl
    have freed := B.stands (bookStands_lanesLoseCar _ h)
      (B.frame (t := ((s.setAtRetirement c).ordersAtRetirement h c).setStall c.field c.stall none) settled (by simp))
    have vacant := B.stands (bookStands_setCar _ (h := h) (c := none) (by
      rw [(bookStands_lanesLoseCar _ h).lists]
      exact hgone.symm)) freed
    have signed : P (if cause == .forceClose then
        ((((s.setAtRetirement c).ordersAtRetirement h c).setStall c.field c.stall none).lanesLoseCar h).setCar h none
        else (((((s.setAtRetirement c).ordersAtRetirement h c).setStall c.field c.stall none).lanesLoseCar h).setCar h
          none).evaluateSign c.field) := by
      split
      · exact vacant
      · exact B.frame vacant (by simp)
    dsimp only
    split
    · exact signed
    · exact B.stands (bookStands_touch _ h) signed

theorem cascade (f : FieldNo) (hs : P s) : P (s.cascade f) :=
  State.forEach_induct P s _ _ (fun h _ _ ht => B.retireCar h _ ht) hs

theorem goDark (f : FieldNo) (hs : P s) : P (s.goDark f) :=
  B.fieldChange f (B.setTimebase f _ (B.frame hs (by simp)))

theorem reportOrder (o : OrderHandle) (ord : Order) (delivered : Bool) (ho : s.order o = some ord)
    (hstage : ord.stage = .onTrip) (hs : P s) : P (s.reportOrder o ord delivered) := by
  have hcounted : BookStands s (s.countReport o ord delivered) := by
    unfold State.countReport
    split
    · exact bookStands_count _ _ _
    · exact bookStands_count _ _ _
    · exact ((bookStands_count _ _ _).trans (bookStands_count _ _ _)).trans (bookStands_raiseOrder _ _ _)
    · exact (bookStands_count _ _ _).trans (bookStands_raiseOrder _ _ _)
  have htouched := hcounted.trans (bookStands_touchCar _ ord.car)
  refine B.settled _ o ord ?_ hstage (B.stands htouched hs)
  rw [State.order, htouched.orders]
  exact ho

/-- What every change of a command makes of a law of the book. -/
theorem change {t : State} (hc : Change s t) (hs : P s) : P t := by
  cases hc with
  | configureField f => exact B.frame hs (by simp)
  | writeClosedRows f closed =>
    unfold State.writeClosedRows State.evaluateSignIfLit
    dsimp only [State.ok]
    split <;> exact B.frame hs (by simp)
  | configureTimebase f x => exact B.setTimebase f _ hs
  | beginProgram f => exact B.setProgram f _ hs
  | addSegment f => exact B.setProgram f _ hs
  | openField f => exact B.fieldChange f (B.frame hs (by simp))
  | startShow f => exact B.fieldChange f (B.setTimebase f _ (B.setProgram f _ hs))
  | pauseShow f => exact B.fieldChange f (B.setTimebase f _ (B.setProgram f _ hs))
  | resumeShow f => exact B.fieldChange f (B.setTimebase f _ (B.setProgram f _ hs))
  | skipSegment f =>
    unfold State.skipSegment
    dsimp only
    split
    · exact B.fieldChange f (B.setProgram f _ hs)
    · exact B.fieldChange f (B.setTimebase f _ (B.setProgram f _ (B.setProgram f _ hs)))
  | endShow f => exact B.fieldChange f (B.setTimebase f _ (B.setProgram f _ hs))
  | closeForced f => exact B.goDark f (B.cascade f hs)
  | closeEmpty f => exact B.goDark f hs
  | admission q h st _ _ _ vacant =>
    have hempty : s.car h = none := by simpa using (lowest_spec vacant).1
    have made := B.stands (bookStands_setCar s (h := h) (c := some (q.car st s.nextSerial)) (by
      rw [State.listOf, hempty]
      rfl)) hs
    exact B.frame made (by simp [State.admitInto])
  | refuse => exact B.frame hs (by simp)
  | depart l h c => exact B.stands (bookStands_departCar s l h c) hs
  | letOut => exact B.frame hs (by simp)
  | configureLanes mask passTime =>
    refine State.forEach_induct P s _ _ (fun l t _ ht => ?_) hs
    split
    · exact B.frame ht (by simp)
    · exact ht
  | holdEntry h c car => exact B.stands (bookStands_setCar s (by rw [State.listOf, car]; rfl)) hs
  | moveEntry h c f named st car =>
    have moved := B.stands (bookStands_setCar ((s.setStall f st (some h)).setStall c.field c.stall none) (h := h)
      (c := some { c with field := f, stall := st }) (by simp [State.listOf, car])) (B.frame hs (by simp))
    unfold State.moveCar
    dsimp only
    split
    · exact B.frame moved (by simp)
    · exact B.frame moved (by simp)
  | amendEntry h c x car => exact B.stands (bookStands_setCar s (by rw [State.listOf, car]; rfl)) hs
  | releaseEntry h c car => exact B.stands (bookStands_setCar s (by rw [State.listOf, car]; rfl)) hs
  | retireEntry h c => exact B.retireCar h _ hs
  | readTouched hs' =>
    refine State.forEach_induct P s _ _ (fun h t _ ht => ?_) hs
    refine B.stands { BookStands.refl t with lists := fun k => ?_ } ht
    by_cases e : h = k
    · subst e
      simp [State.listOf, State.car]
    · simp [State.listOf, State.car, e]
  | enrolSet => exact B.frame hs (by simp)
  | removeSet n => exact B.frame (B.stands (bookStands_clearBay s n) hs) (by simp)
  | lendSet n h c => exact B.stands ((bookStands_of_frame s (by simp)).trans (bookStands_setCarSet (s.setSlot n _) _ _)) hs
  | dockForeign => exact B.frame hs ⟨rfl, rfl, rfl, rfl, rfl, rfl, rfl, rfl, rfl⟩
  | dockIn n b serial level =>
    refine B.stands (bookStands_arrive _ n b level) ?_
    unfold State.undockFrom
    split
    · exact hs
    · exact B.stands (bookStands_displace s _) hs
  | completeLend b n =>
    have lifted : BookStands s (s.liftFrom b n) := bookStands_of_frame s (by simp [State.liftFrom])
    exact B.stands ((((lifted.trans (bookStands_of_frame _ (by simp))).trans
      (bookStands_setCarSet ((s.liftFrom b n).setSlot n _) _ _)).trans (bookStands_touchCar _ _)).trans
      (bookStands_count _ _ _)) hs
  | removeUnlawfully b n =>
    have lifted : P (s.liftFrom b n) := B.frame hs (by simp [State.liftFrom])
    exact B.frame (B.count _ _ (B.frame (t := (s.liftFrom b n).setSlot n { (s.liftFrom b n).slot n with state := .absent })
      lifted (by simp))) ⟨rfl, rfl, rfl, rfl, rfl, rfl, rfl, rfl, rfl⟩
  | lift b n => exact B.frame hs (by simp [State.liftFrom])
  | charge => exact B.frame hs (by simp)
  | setFault b n =>
    have hended : BookStands s (if (s.slot n).state == .issuing then (s.cancelIssue n).touchCar (s.slot n).car else s) := by
      split
      · exact (bookStands_cancelIssue s n).trans (bookStands_touchCar _ _)
      · exact BookStands.refl s
    exact B.stands (hended.trans (bookStands_setSlot _ n _)) hs
  | serviceSet => exact B.frame hs (by simp)
  | configureSets => exact B.frame hs (by simp)
  | placeOrder h c o mode args lines car _ room free read count =>
    obtain ⟨hlength, hwaiting⟩ := linesOf_spec read
    exact B.placed s h c o mode lines car room free (hlength ▸ count) hwaiting hs
  | cancelOrder o ord order notPending => exact B.cancelled s o ord order notPending hs
  | stationNext n o k ord l oldest order line => exact B.handedOut s n o k ord l oldest order line hs
  | lineDone o k ord order started => exact B.finished s o k ord order started hs
  | configureKitchen mask xoff xon prepLimit below => exact B.thresholds s mask xoff xon prepLimit below hs
  | tripReport o ord delivered order onTrip => exact B.reportOrder o ord delivered order onTrip hs
  | recallTrip k out => exact B.recalled s k out hs
  | configureTrips => exact B.frame hs (by simp)
  | clearCauses w =>
    refine B.stands { BookStands.refl s with notes := fun hn => ?_ } hs
    simp only [Attention.clear]
    split
    · exact Nat.zero_le 8
    · exact hn
  | setCauseMask w => exact B.frame hs (by simp)

theorem passCompleted (l : LaneNo) (hs : P s) : P (s.completePass l) := by
  unfold State.completePass
  split
  · split
    · unfold State.commitCar
      split
      · exact hs
      · rename_i c hc
        refine B.count _ _ (B.count _ _ (B.stands (bookStands_touch _ _) (B.stands (bookStands_setCar s ?_) hs)))
        rw [State.listOf, hc]
        rfl
    · split
      · exact hs
      · exact B.count _ _ (B.retireCar _ _ (B.frame hs (by simp)))
  · split
    · exact hs
    · exact B.count _ _ hs

theorem closeLane (l : LaneNo) (hs : P s) : P (s.closeLane l) := B.stands (bookStands_closeLane s l) hs

/-- What every event makes of a law of the book. -/
theorem event {t : State} (he : Event s t) (hs : P s) : P t := by
  have lane (u : State) (l : LaneNo) (x : Lane) (h : P u) : P (u.setLane l x) := B.frame h (by simp)
  cases he with
  | framePulse f => exact B.takePulse f hs
  | overdue f =>
    unfold State.overduePulse
    dsimp only
    split
    exacts [B.setTimebase f _ hs, hs]
  | holdover f => exact B.expireHoldover f hs
  | reference f =>
    unfold State.dropReference
    dsimp only
    split
    exacts [B.setTimebase f _ hs, hs]
  | strobe f => exact B.setTimebase f _ hs
  | fall f => exact B.setTimebase f _ hs
  | carrierLoss f =>
    unfold State.loseCarrier
    dsimp only
    split
    · split
      · exact B.raiseSound f (B.count _ _ (B.setProgram f _ hs))
      · exact B.setProgram f _ hs
    · exact hs
  | carrierRise f => exact B.setProgram f _ hs
  | rawArrival l level => exact lane s l _ hs
  | rawPass l level => exact lane s l _ hs
  | arrivalOccupied l =>
    unfold State.arrivalOccupied
    dsimp only
    split
    · exact hs
    · split
      · exact B.frame hs ⟨rfl, rfl, rfl, rfl, rfl, rfl, rfl, rfl, rfl⟩
      · exact lane s l _ hs
  | arrivalCleared l =>
    unfold State.arrivalCleared
    dsimp only
    split
    · exact hs
    · split
      · exact B.count _ _ (lane _ l _ (lane s l _ hs))
      · exact lane _ l _ (lane s l _ hs)
      · exact lane s l _ hs
      · exact lane s l _ hs
  | passOccupied l =>
    unfold State.passOccupied
    dsimp only
    split
    · exact hs
    · split
      · exact lane _ l _ (lane s l _ hs)
      · exact B.frame (B.count (.lane l .tailgates) 1 (lane s l _ hs)) ⟨rfl, rfl, rfl, rfl, rfl, rfl, rfl, rfl, rfl⟩
  | passCleared l =>
    unfold State.passCleared
    dsimp only
    split
    · exact hs
    · split
      · exact B.closeLane l (B.passCompleted l (lane s l _ hs))
      · exact lane s l _ hs
  | entryExpiry l =>
    unfold State.entryExpiry
    split
    · split
      · exact lane s l _ hs
      · refine B.closeLane l (B.count _ _ ?_)
        split
        · exact hs
        · split
          · exact hs
          · exact B.count _ _ (B.retireCar _ _ (lane s l _ hs))
    · exact hs
  | exitExpiry l =>
    unfold State.exitExpiry
    split
    · split
      · exact lane s l _ hs
      · refine B.closeLane l (B.count _ _ ?_)
        split
        · exact hs
        · split
          · exact hs
          · rename_i c hc
            refine B.stands (bookStands_touch _ _) (B.stands (bookStands_setCar s ?_) hs)
            rw [State.listOf, hc]
            rfl
    · exact hs
  | issueExpiry n =>
    unfold State.issueExpiry
    dsimp only
    split
    · exact B.frame (B.stands (((bookStands_cancelIssue s n).trans (bookStands_touchCar _ _)).trans
        (bookStands_count _ (.sets .issueTimeouts) 1)) hs) ⟨rfl, rfl, rfl, rfl, rfl, rfl, rfl, rfl, rfl⟩
    · exact hs
  | prepExpiry o =>
    unfold State.prepExpiry
    split
    · exact hs
    · rename_i ord ho
      split
      · exact B.stands ((bookStands_count _ _ _).trans (bookStands_raiseOrder _ _ _)) (B.late s o ord ho hs)
      · exact hs
  | gatherExpiry k =>
    unfold State.gatherExpiry
    split
    · rename_i hk
      simp only [Bool.and_eq_true, beq_iff_eq] at hk
      exact B.closed s k hk.1 hs
    · exact hs
  | cycleTimebases =>
    rw [State.cycleTimebases_eq]
    exact B.frame hs (by simp)
  | countMillisecond => exact B.millisecond s hs

/-- A law that every operation of the book keeps is kept by every change and event. -/
theorem kept : Kept P where
  outside _ _ _ _ _ hs := B.frame hs (by simp)
  flagged _ _ hs := B.frame hs ⟨rfl, rfl, rfl, rfl, rfl, rfl, rfl, rfl, rfl⟩
  change := B.change
  event := B.event

end BookLaw
end Sys2Proof.Machine
end

section
/-! PROOF. The bounds of the order book's lists, the trips, the notes and the tallies: every operation of the book stays
within them, whatever state it starts from; O18 and O56. -/

namespace Sys2Proof.Machine

/-! ### Staying within the bounds -/

/-- The change from `s` to `t` takes no backlog past 255, no order list past 4, no trip past 6, no notes past 8 and no xon
up to its xoff, and no tally falls or passes 65,535 (R61, R133, R143, R147, R155, R181). -/
structure Within (s t : State) : Prop where
  thresholds : (∀ n, (s.station n).xon < (s.station n).xoff) → ∀ n, (t.station n).xon < (t.station n).xoff
  backlogs : ∀ n, s.backlog n ≤ 255 → t.backlog n ≤ 255
  lists : ∀ h, (s.listOf h).length ≤ 4 → (t.listOf h).length ≤ 4
  trips : ∀ k, (s.trip k).orders.length ≤ 6 → (t.trip k).orders.length ≤ 6
  notes : s.attention.notes.length ≤ 8 → t.attention.notes.length ≤ 8
  tallies : ∀ k, s.tally k ≤ 65535 → s.tally k ≤ t.tally k ∧ t.tally k ≤ 65535

theorem Within.refl (s : State) : Within s s := ⟨id, fun _ => id, fun _ => id, fun _ => id, id, fun _ h => ⟨le_rfl, h⟩⟩

theorem Within.trans {s t u : State} (h : Within s t) (h' : Within t u) : Within s u where
  thresholds hn := h'.thresholds (h.thresholds hn)
  backlogs n hn := h'.backlogs n (h.backlogs n hn)
  lists x hx := h'.lists x (h.lists x hx)
  trips k hk := h'.trips k (h.trips k hk)
  notes hn := h'.notes (h.notes hn)
  tallies k hk := ⟨(h.tallies k hk).1.trans (h'.tallies k (h.tallies k hk).2).1, (h'.tallies k (h.tallies k hk).2).2⟩

theorem BookStands.within {s t : State} (h : BookStands s t) : Within s t where
  thresholds hn n := by
    rw [State.station, h.stations]
    exact hn n
  backlogs n hn := by rwa [State.backlog, State.station, h.stations]
  lists x hx := by rwa [h.lists]
  trips k hk := by rwa [State.trip, h.trips]
  notes := h.notes
  tallies := h.tallies

section
variable (s : State)

/-- A change of orders, parked list, ready list and HOLD alone stays within the bounds. -/
theorem within_of_frame {t : State}
    (h : t.stations = s.stations ∧ t.entries = s.entries ∧ t.trips = s.trips ∧ t.tallies = s.tallies ∧
      t.attention.notes = s.attention.notes) : Within s t := by
  obtain ⟨hstations, hentries, htrips, htallies, hnotes⟩ := h
  refine ⟨?_, fun n => ?_, fun x => ?_, fun k => ?_, ?_, fun k hk => ?_⟩
  · simp only [State.station, hstations]
    exact id
  · simp only [State.backlog, State.station, hstations]
    exact id
  · simp only [State.listOf, State.car, State.entry, hentries]
    exact id
  · simp only [State.trip, htrips]
    exact id
  · rw [hnotes]
    exact id
  · simp only [State.tally, htallies] at hk ⊢
    exact ⟨le_rfl, hk⟩

/-- A trip written with at most six orders, whatever other changes of orders and lists come with it. -/
theorem within_setTrip {k : TripHandle} {x : Trip} (hx : (s.trip k).orders.length ≤ 6 → x.orders.length ≤ 6) :
    Within s (s.setTrip k x) := by
  refine { Within.refl s with trips := fun j hj => ?_ }
  by_cases e : k = j
  · subst e
    rw [State.trip_setTrip_self]
    exact hx hj
  · rwa [State.trip_setTrip_ne _ _ e]

theorem within_evaluateHold : Within s s.evaluateHold := by
  refine within_of_frame s (by simp [State.evaluateHold_eq]; split <;> rfl)

theorem Order.length_linesFor (ord : Order) (o : OrderHandle) (n : StationNo) :
    (ord.linesFor o n).length = ord.linesAt n := by
  rw [Order.linesFor, List.length_map, ← List.countP_eq_length_filter, Order.linesAt]
  conv_rhs => rw [← List.zipIdx_map_fst 0 ord.lines, List.countP_map]
  rfl

/-- The fit test in the manual's terms: the order's lines find room at every station they name (R141). -/
theorem State.fitsQueues_iff (ord : Order) :
    s.fitsQueues ord = true ↔ ∀ n, ord.linesAt n = 0 ∨ s.backlog n + ord.linesAt n ≤ 255 := by
  simp [State.fitsQueues]

/-- The release of an order (R142): its lines join their queues, it is QUEUED with its prep timer, and it leaves the
parked list. -/
theorem State.release_eq (o : OrderHandle) (ord : Order) :
    s.release o ord =
      { s with
        stations := Vector.ofFn fun n => { s.station n with queue := (s.station n).queue ++ ord.linesFor o n }
        orders := put s.orders o
          (some { ord with stage := .queued, due := false, timer := some (s.prepLimit * 60000) })
        parked := s.parked.erase o } := by
  have h := s.forEach_stations fun n x => { x with queue := x.queue ++ ord.linesFor o n }
  simp only [State.release]
  rw [h]
  rfl

theorem within_release {o : OrderHandle} {ord : Order} (hfits : s.fitsQueues ord = true) : Within s (s.release o ord) := by
  rw [State.release_eq]
  refine { Within.refl s with
    thresholds := fun hn n => by simpa [State.station, look] using hn n, backlogs := fun n hn => ?_ }
  have hroom := (s.fitsQueues_iff ord).mp hfits n
  simp only [State.backlog, State.station, look, Vector.getElem_ofFn, List.length_append, Order.length_linesFor, Fin.eta] at hn hroom ⊢
  omega

theorem within_dispatch (k : TripHandle) : Within s (s.dispatch k) := by
  rw [(s.dispatch_spec k).2]
  exact (within_setTrip s (k := k) (x := { s.trip k with state := .out, timer := none }) id).trans
    (within_of_frame _ ⟨rfl, rfl, rfl, rfl, rfl⟩)

/-- Staying within the bounds of a state is a law that reports to the book keep. -/
theorem reportable_within (b : State) : Reportable (Within b) where
  stands h hb := hb.trans h.within
  marked _ _ hb := hb.trans (within_of_frame _ (by simp))
  released _ _ _ _ _ hfits hb := (hb.trans (within_release _ hfits)).trans (within_evaluateHold _)
  dispatched _ _ _ hb := hb.trans (within_dispatch _ _)

theorem within_releasePass : Within s s.releasePass := (reportable_within s).releasePass (Within.refl s)

theorem within_evaluateHoldAndDue : Within s s.evaluateHoldAndDue := by
  unfold State.evaluateHoldAndDue
  dsimp only
  split
  · exact (within_evaluateHold s).trans (within_of_frame _ (by simp))
  · exact within_evaluateHold s

theorem within_afterFall : Within s s.afterFall := (within_evaluateHoldAndDue s).trans (within_releasePass _)

theorem within_afterThresholds : Within s s.afterThresholds := by
  unfold State.afterThresholds
  dsimp only
  split
  · exact within_afterFall s
  · exact within_evaluateHoldAndDue s

theorem within_setOrder (o : OrderHandle) (x : Option Order) : Within s (s.setOrder o x) := within_of_frame s (by simp)

/-- A queue that loses lines is no longer than it was (R143). -/
theorem within_withdrawLines (gone : OrderHandle × Nat → Bool) : Within s (s.withdrawLines gone) := by
  rw [State.withdrawLines_eq]
  refine { Within.refl s with
    thresholds := fun hn n => by simpa [State.station, look] using hn n, backlogs := fun n hn => ?_ }
  simp only [State.backlog, State.station, look, Vector.getElem_ofFn] at hn ⊢
  exact (List.length_filter_le _ _).trans hn

/-! ### Trips -/

theorem within_closeTrip (k : TripHandle) : Within s (s.closeTrip k) := by
  unfold State.closeTrip
  split
  · exact Within.refl s
  · split
    · exact within_dispatch s k
    · exact within_setTrip s id

theorem State.forEach_modOrder_frame (os : List OrderHandle) (g : Order → Order) :
    ∃ orders, (s.forEach os fun o acc => acc.modOrder o g) = { s with orders := orders } := by
  induction os generalizing s with
  | nil => exact ⟨s.orders, rfl⟩
  | cons o rest ih =>
    obtain ⟨orders, h⟩ := ih (s.modOrder o g)
    exact ⟨orders, h⟩

/-- Orders join a trip that has room for them. -/
theorem within_joinTrip {k : TripHandle} {os : List OrderHandle}
    (hroom : (s.trip k).orders.length ≤ 6 → (s.trip k).orders.length + os.length ≤ 6) : Within s (s.joinTrip k os) := by
  unfold State.joinTrip
  dsimp only
  obtain ⟨orders, h⟩ := (s.setTrip k
    { s.trip k with
      orders := (s.trip k).orders ++ os
      timer := if (s.trip k).state == .gathering && !os.isEmpty then some (s.window * 1000) else (s.trip k).timer }).forEach_modOrder_frame
    os fun ord => { ord with trip := some k }
  rw [h]
  have hmarked := (within_setTrip s (k := k)
    (x := { s.trip k with
      orders := (s.trip k).orders ++ os
      timer := if (s.trip k).state == .gathering && !os.isEmpty then some (s.window * 1000) else (s.trip k).timer })
    (by rwa [List.length_append])).trans (within_of_frame _ (t := { (s.setTrip k
    { s.trip k with
      orders := (s.trip k).orders ++ os
      timer := if (s.trip k).state == .gathering && !os.isEmpty then some (s.window * 1000) else (s.trip k).timer }) with
      orders := orders }) ⟨rfl, rfl, rfl, rfl, rfl⟩)
  split
  · exact hmarked.trans (within_closeTrip _ k)
  · exact hmarked

theorem within_formTrip {k : TripHandle} {f : FieldNo} {os : List OrderHandle} (hroom : os.length ≤ 6) :
    Within s (s.formTrip k f os) := by
  refine (within_setTrip s (k := k) (x := { state := .gathering, field := some f, orders := [], timer := none })
    fun _ => Nat.zero_le 6).trans (within_joinTrip _ fun _ => ?_)
  rw [State.trip_setTrip_self]
  simpa using hroom

theorem State.length_readyOf_le (f : FieldNo) (n : Nat) : (s.readyOf f n).length ≤ n := List.length_take_le _ _

theorem within_placeReady (o : OrderHandle) (f : FieldNo) : Within s (s.placeReady o f) := by
  unfold State.placeReady
  split
  · rename_i k hk
    have htakes := (lowest_spec hk).1
    simp only [Bool.and_eq_true, Trip.takesJoins, decide_eq_true_eq] at htakes
    exact within_joinTrip s fun _ => htakes.1.2
  · split
    · exact within_formTrip s (by simp)
    · exact within_of_frame s ⟨rfl, rfl, rfl, rfl, rfl⟩

theorem within_withoutReady (os : List OrderHandle) : Within s (s.withoutReady os) := within_of_frame s (by simp)

theorem within_reformTrip (k : TripHandle) : Within s (s.reformTrip k) := by
  unfold State.reformTrip
  split
  · exact Within.refl s
  · split
    · exact Within.refl s
    · exact (within_withoutReady s _).trans (within_formTrip _ (s.length_readyOf_le _ 6))

theorem within_refillTrip (k : TripHandle) : Within s (s.refillTrip k) := by
  unfold State.refillTrip
  split
  · exact Within.refl s
  · rename_i f _
    refine (within_withoutReady s _).trans (within_joinTrip _ fun h => ?_)
    have hmore := s.length_readyOf_le f (6 - (s.trip k).orders.length)
    simp only [State.withoutReady, State.trip] at h hmore ⊢
    omega

theorem within_leaveTrip (k : TripHandle) (o : OrderHandle) : Within s (s.leaveTrip k o) := by
  have hleft := within_setTrip s (k := k) (x := { s.trip k with orders := (s.trip k).orders.erase o })
    List.length_erase_le.trans
  unfold State.leaveTrip
  dsimp only
  split
  · exact (within_setTrip s (k := k) (x := {}) fun _ => Nat.zero_le 6).trans (within_reformTrip _ k)
  · split
    · exact hleft.trans (within_refillTrip _ k)
    · exact hleft

/-! ### Orders -/

theorem within_unlistOrder (o : OrderHandle) (car : Option CarHandle) : Within s (s.unlistOrder o car) := by
  cases car with
  | none => exact Within.refl s
  | some h =>
    refine { Within.refl s with lists := fun k hk => ?_ }
    simp only [State.listOf, State.unlistOrder, State.car_modCar] at hk ⊢
    split
    · rename_i e
      subst e
      cases hc : s.car h with
      | none => exact Nat.zero_le 4
      | some c =>
        rw [hc] at hk
        exact List.length_erase_le.trans hk
    · exact hk

theorem within_retireOrder (o : OrderHandle) : Within s (s.retireOrder o) := by
  unfold State.retireOrder
  split
  · exact Within.refl s
  · rename_i ord _
    have hunlisted : Within s { s with parked := s.parked.erase o, readyList := s.readyList.erase o } :=
      within_of_frame s ⟨rfl, rfl, rfl, rfl, rfl⟩
    have hwithdrawn := hunlisted.trans (within_withdrawLines _ fun l => l.1 == o)
    have hfreed (t : State) (ht : Within s t) : Within s ((t.unlistOrder o ord.car).setOrder o none) :=
      (ht.trans (within_unlistOrder t o ord.car)).trans (within_setOrder _ o none)
    have hoffTrip (k : TripHandle) := hwithdrawn.trans (within_leaveTrip _ k o)
    dsimp only
    cases ord.trip with
    | none =>
      split
      · exact (hfreed _ hwithdrawn).trans (within_afterFall _)
      · exact hfreed _ hwithdrawn
    | some k =>
      split
      · exact (hfreed _ (hoffTrip k)).trans (within_afterFall _)
      · exact hfreed _ (hoffTrip k)

theorem within_settleCancel (o : OrderHandle) (ord : Order) : Within s (s.settleCancel o ord) :=
  ((((bookStands_count s (.kitchen .cancelled) 1).trans (bookStands_count _ (.kitchen .wasteLines) ord.waste)).trans
    (bookStands_raiseOrder _ o .cancelSettled)).trans (bookStands_touchCar _ ord.car)).within.trans (within_retireOrder _ o)

theorem within_finishOrder (o : OrderHandle) : Within s (s.finishOrder o) := by
  unfold State.finishOrder
  split
  · exact Within.refl s
  · split
    · exact within_settleCancel s o _
    · exact (within_setOrder s o _).trans (within_placeReady _ o _)

theorem within_cancelPreparing (o : OrderHandle) (ord : Order) : Within s (s.cancelPreparing o ord) := by
  have hsettled (t : State) (ht : Within s t) : Within s (if t.inQueues o then t else t.finishOrder o) := by
    split
    · exact ht
    · exact ht.trans (within_finishOrder t o)
  unfold State.cancelPreparing
  dsimp only
  split
  · exact (hsettled _ ((within_withdrawLines s _).trans (within_setOrder _ o _))).trans (within_afterFall _)
  · exact hsettled _ ((within_withdrawLines s _).trans (within_setOrder _ o _))

theorem within_cancelAtStage (o : OrderHandle) (ord : Order) : Within s (s.cancelAtStage o ord) := by
  have hcounted := (bookStands_count s (.kitchen .cancelled) 1)
  unfold State.cancelAtStage
  split
  · exact (hcounted.trans (bookStands_touchCar _ ord.car)).within.trans (within_retireOrder _ o)
  · exact (hcounted.trans (bookStands_touchCar _ ord.car)).within.trans (within_retireOrder _ o)
  · exact within_cancelPreparing s o ord
  · exact ((hcounted.trans (bookStands_count _ _ _)).trans (bookStands_touchCar _ ord.car)).within.trans
      (within_retireOrder _ o)
  · exact within_setOrder s o _

theorem within_orderLosesCar (o : OrderHandle) : Within s (s.orderLosesCar o) := by
  unfold State.orderLosesCar
  split
  · exact Within.refl s
  · dsimp only
    split
    · exact within_setOrder s o _
    · exact (within_setOrder s o _).trans (within_cancelAtStage _ o _)

theorem within_ordersAtRetirement (h : CarHandle) (c : Car) : Within s (s.ordersAtRetirement h c) := by
  refine State.forEach_induct (Within s) _ _ _ (fun o t _ ht => ht.trans (within_orderLosesCar t o)) ?_
  refine { Within.refl s with lists := fun k hk => ?_ }
  simp only [State.listOf, State.car_modCar] at hk ⊢
  split
  · cases s.car h <;> exact Nat.zero_le 4
  · exact hk

/-- Placing an order lengthens its car's list by one (R133, R135). -/
theorem within_parkOrder {h : CarHandle} {c : Car} (hcar : s.car h = some c) (hroom : c.orders.length < 4)
    (o : OrderHandle) (f : FieldNo) (mode : ReleaseMode) (lines : List OrderLine) :
    Within s (s.parkOrder o h f mode lines) := by
  refine Within.trans (t := (s.setOrder o (some (newOrder h f mode s.nextPlacement lines))).modCar h
    fun c => { c with orders := c.orders ++ [o] }) ?_
    ((within_of_frame _ (t := State.modCar { s.setOrder o (some (newOrder h f mode s.nextPlacement lines)) with
      placement := s.nextPlacement, parked := s.parked ++ [o] } h fun c => { c with orders := c.orders ++ [o] })
      (by simp [State.modCar, State.setCar, State.setEntry, State.entry, State.car])).trans
      (bookStands_count _ _ _).within)
  refine { Within.refl s with lists := fun k hk => ?_ }
  simp only [State.listOf, State.car_modCar, State.car_of_setOrder] at hk ⊢
  split
  · rw [hcar]
    simpa using hroom
  · exact hk

theorem within_placeDueCheck (o : OrderHandle) (f : FieldNo) (mode : ReleaseMode) :
    Within s (s.placeDueCheck o f mode) := by
  unfold State.placeDueCheck
  split
  · exact (within_setOrder s o _).trans (within_releasePass _)
  · exact Within.refl s

theorem within_finishLine (o : OrderHandle) (ord : Order) (k : Nat) : Within s (s.finishLine o ord k) := by
  have hfinished := (within_setOrder s o (some (ord.withLine k .finished))).trans
    (within_withdrawLines _ fun l => l == (o, k))
  unfold State.finishLine
  dsimp only
  split
  · exact hfinished.trans (within_afterFall _)
  · exact (hfinished.trans (within_finishOrder _ o)).trans (within_afterFall _)

/-- The thresholds of the flagged stations are written, and nothing else (R147). -/
theorem State.setThresholds_eq (mask xoff xon : Nat) :
    s.setThresholds mask xoff xon =
      { s with stations := Vector.ofFn fun n =>
        if maskBit mask n.val then { s.station n with xoff := xoff, xon := xon } else s.station n } := by
  refine State.forEach_table (fun v => { s with stations := v })
    (fun n x => if maskBit mask n.val then { x with xoff := xoff, xon := xon } else x) _ (fun n v => ?_) s.stations
  split
  · rfl
  · exact congrArg (fun w => { s with stations := w }) (put_look v n).symm

theorem within_thresholds (mask prepLimit : Nat) {xoff xon : Nat} (hbelow : xon < xoff) :
    Within s { s.setThresholds mask xoff xon with prepLimit := prepLimit }.afterThresholds := by
  refine Within.trans ?_ (within_afterThresholds _)
  rw [State.setThresholds_eq]
  refine { Within.refl s with thresholds := fun hn n => ?_, backlogs := fun n hn => ?_ }
  · have hstation := hn n
    simp only [State.station, look, Vector.getElem_ofFn] at hstation ⊢
    split
    exacts [hbelow, hstation]
  · simp only [State.backlog, State.station, look, Vector.getElem_ofFn] at hn ⊢
    split <;> exact hn

theorem within_recallTrip (k : TripHandle) : Within s (s.recallTrip k) := by
  unfold State.recallTrip
  dsimp only
  obtain ⟨orders, h⟩ := s.forEach_modOrder_frame (s.routeOrder k) fun ord => { ord with stage := .ready, trip := none }
  rw [h]
  have hback : Within s { s with orders := orders } := within_of_frame s ⟨rfl, rfl, rfl, rfl, rfl⟩
  refine Within.trans ?_ (within_reformTrip _ k)
  exact (hback.trans (within_setTrip _ (k := k) (x := {}) fun _ => Nat.zero_le 6)).trans
    (within_of_frame _ ⟨rfl, rfl, rfl, rfl, rfl⟩)

theorem within_countMillisecond : Within s s.countMillisecond := by
  rw [State.countMillisecond_eq]
  refine { Within.refl s with trips := fun k hk => ?_ }
  simpa [State.trip, look] using hk

end

/-- A law that stands within the bounds is a law of the book. -/
theorem bookLaw_of_within {P : State → Prop} (hP : ∀ s t, Within s t → P s → P t) : BookLaw P where
  stands h := hP _ _ h.within
  marked s _ := hP _ _ (within_of_frame s (by simp))
  released _ _ _ _ _ hfits := hP _ _ ((within_release _ hfits).trans (within_evaluateHold _))
  dispatched _ _ _ := hP _ _ (within_dispatch _ _)
  told s h c _ := hP _ _ (within_ordersAtRetirement s h c)
  placed s h c o mode lines hcar hroom _ _ _ :=
    hP _ _ ((within_parkOrder s hcar hroom o c.field mode lines).trans (within_placeDueCheck _ o c.field mode))
  cancelled s o ord _ _ := hP _ _ (within_cancelAtStage s o ord)
  handedOut s _ o _ _ _ _ _ _ := hP _ _ (within_setOrder s o _)
  finished s o k ord _ _ := hP _ _ (within_finishLine s o ord k)
  thresholds s mask _ _ prepLimit hbelow := hP _ _ (within_thresholds s mask prepLimit hbelow)
  settled s o _ _ _ := hP _ _ (within_retireOrder s o)
  recalled s k _ := hP _ _ (within_recallTrip s k)
  late s o _ _ := hP _ _ (within_setOrder s o _)
  closed s k _ := hP _ _ (within_closeTrip s k)
  millisecond s := hP _ _ (within_countMillisecond s)

/-! ### Tallies -/

/-- Settles O18: every operation stays within the bounds of the state it starts from, and those hold the tallies from
below. -/
theorem talliesOnlyGrow : Obligations.TalliesOnlyGrow := by
  have kept (s : State) : Kept (Within s) := (bookLaw_of_within fun _ _ h hs => hs.trans h).kept
  refine ⟨fun i s t hs hday hreset he k => ?_, fun s t hs he hday hreset htaken k => ?_⟩
  · exact ((kept s).exec (.inr hday) (.inr hreset) he (Within.refl s)).tallies k (hs k)
  · exact ((kept s).step (.inr ⟨hday, htaken⟩) (.inr hreset) he (Within.refl s)).tallies k (hs k)

/-! ### Capacities -/

/-- The bounds that the operations of the book stay within. -/
structure BookCapacity (s : State) : Prop where
  backlogs : ∀ n, s.backlog n ≤ 255
  lists : ∀ h, (s.listOf h).length ≤ 4
  trips : ∀ k, (s.trip k).orders.length ≤ 6
  notes : s.attention.notes.length ≤ 8
  tallies : ∀ k, s.tally k ≤ 65535

theorem bookLaw_bookCapacity : BookLaw BookCapacity :=
  bookLaw_of_within fun _ _ h hs => ⟨fun n => h.backlogs n (hs.backlogs n), fun x => h.lists x (hs.lists x),
    fun k => h.trips k (hs.trips k), h.notes hs.notes, fun k => (h.tallies k (hs.tallies k)).2⟩

/-- The bounds of the counters and of the programs, which no operation of the book writes. -/
structure OutsideCapacity (s : State) : Prop where
  segments : ∀ f, (s.program f).record.segments.length ≤ 24
  serial : s.serialCounter ≤ 65535
  placement : s.placement ≤ 4294967295

theorem capacityLaw_iff (s : State) : CapacityLaw s ↔ BookCapacity s ∧ OutsideCapacity s := by
  have hlists : (∀ h c, s.car h = some c → c.orders.length ≤ 4) ↔ ∀ h, (s.listOf h).length ≤ 4 := by
    refine forall_congr' fun h => ?_
    cases hc : s.car h <;> simp [State.listOf, hc]
  constructor
  · intro h
    exact ⟨⟨h.backlogs, hlists.mp h.orderLists, h.trips, h.notes, h.tallies⟩, h.segments, h.serial, h.placement⟩
  · rintro ⟨h, h'⟩
    exact ⟨h.backlogs, hlists.mpr h.lists, h.trips, h.notes, h'.segments, h.tallies, h'.serial, h'.placement⟩

end Sys2Proof.Machine
end

section
/-! PROOF. The changes of commands and events, record by record: what each leaves alone, and what they make of the
programs and timebases of the fields. -/

namespace Sys2Proof.Machine

section
variable (s : State)

/-! ### What each change of a command leaves as it is -/

@[simp] theorem State.evaluateSignIfLit_frame (f : FieldNo) :
    (s.evaluateSignIfLit f).entries = s.entries ∧ (s.evaluateSignIfLit f).serialCounter = s.serialCounter ∧
      (s.evaluateSignIfLit f).lanes = s.lanes ∧ (s.evaluateSignIfLit f).tallies = s.tallies ∧
      (s.evaluateSignIfLit f).programs = s.programs ∧ (s.evaluateSignIfLit f).timebases = s.timebases ∧
      (s.evaluateSignIfLit f).sets = s.sets ∧ (s.evaluateSignIfLit f).bays = s.bays ∧
      (s.evaluateSignIfLit f).readyLevel = s.readyLevel ∧ (s.evaluateSignIfLit f).issueTime = s.issueTime ∧
      (s.evaluateSignIfLit f).orders = s.orders ∧ (s.evaluateSignIfLit f).parked = s.parked ∧
      (s.evaluateSignIfLit f).placement = s.placement ∧ (s.evaluateSignIfLit f).stations = s.stations ∧
      (s.evaluateSignIfLit f).prepLimit = s.prepLimit ∧ (s.evaluateSignIfLit f).hold = s.hold ∧
      (s.evaluateSignIfLit f).trips = s.trips ∧ (s.evaluateSignIfLit f).readyList = s.readyList ∧
      (s.evaluateSignIfLit f).window = s.window ∧ (s.evaluateSignIfLit f).attention = s.attention ∧
      (s.evaluateSignIfLit f).port = s.port ∧ (s.evaluateSignIfLit f).phase = s.phase ∧
      (s.evaluateSignIfLit f).freeCount = s.freeCount ∧ (s.evaluateSignIfLit f).pending = s.pending := by
  unfold State.evaluateSignIfLit
  split <;> simp

@[simp] theorem State.skipSegment_frame (f : FieldNo) :
    (s.skipSegment f).fieldUnits = s.fieldUnits ∧ (s.skipSegment f).entries = s.entries ∧
      (s.skipSegment f).serialCounter = s.serialCounter ∧ (s.skipSegment f).lanes = s.lanes ∧
      (s.skipSegment f).sets = s.sets ∧ (s.skipSegment f).bays = s.bays ∧
      (s.skipSegment f).readyLevel = s.readyLevel ∧ (s.skipSegment f).issueTime = s.issueTime ∧
      (s.skipSegment f).placement = s.placement ∧ (s.skipSegment f).prepLimit = s.prepLimit ∧
      (s.skipSegment f).readyList = s.readyList ∧ (s.skipSegment f).window = s.window ∧
      (s.skipSegment f).port = s.port ∧ (s.skipSegment f).phase = s.phase ∧
      (s.skipSegment f).freeCount = s.freeCount ∧ (s.skipSegment f).pending = s.pending := by
  unfold State.skipSegment
  dsimp only
  split <;> simp

@[simp] theorem State.goDark_frame (f : FieldNo) :
    (s.goDark f).entries = s.entries ∧ (s.goDark f).serialCounter = s.serialCounter ∧ (s.goDark f).lanes = s.lanes ∧
      (s.goDark f).sets = s.sets ∧ (s.goDark f).bays = s.bays ∧ (s.goDark f).readyLevel = s.readyLevel ∧
      (s.goDark f).issueTime = s.issueTime ∧ (s.goDark f).placement = s.placement ∧
      (s.goDark f).prepLimit = s.prepLimit ∧ (s.goDark f).readyList = s.readyList ∧ (s.goDark f).window = s.window ∧
      (s.goDark f).port = s.port ∧ (s.goDark f).phase = s.phase ∧ (s.goDark f).freeCount = s.freeCount ∧
      (s.goDark f).pending = s.pending := by
  simp [State.goDark]

@[simp] theorem State.openFieldWith_frame (f : FieldNo) (header : Header) (segs : List Segment) :
    (s.openFieldWith f header segs).entries = s.entries ∧
      (s.openFieldWith f header segs).serialCounter = s.serialCounter ∧
      (s.openFieldWith f header segs).lanes = s.lanes ∧ (s.openFieldWith f header segs).sets = s.sets ∧
      (s.openFieldWith f header segs).bays = s.bays ∧ (s.openFieldWith f header segs).readyLevel = s.readyLevel ∧
      (s.openFieldWith f header segs).issueTime = s.issueTime ∧
      (s.openFieldWith f header segs).placement = s.placement ∧
      (s.openFieldWith f header segs).prepLimit = s.prepLimit ∧
      (s.openFieldWith f header segs).readyList = s.readyList ∧ (s.openFieldWith f header segs).window = s.window ∧
      (s.openFieldWith f header segs).port = s.port ∧ (s.openFieldWith f header segs).phase = s.phase ∧
      (s.openFieldWith f header segs).freeCount = s.freeCount ∧
      (s.openFieldWith f header segs).pending = s.pending := by
  simp [State.openFieldWith]

@[simp] theorem State.admitInto_frame (q : AdmitRequest) (h : CarHandle) (st : Stall) :
    (s.admitInto q h st).tallies = s.tallies ∧ (s.admitInto q h st).programs = s.programs ∧
      (s.admitInto q h st).timebases = s.timebases ∧ (s.admitInto q h st).sets = s.sets ∧
      (s.admitInto q h st).bays = s.bays ∧ (s.admitInto q h st).readyLevel = s.readyLevel ∧
      (s.admitInto q h st).issueTime = s.issueTime ∧ (s.admitInto q h st).orders = s.orders ∧
      (s.admitInto q h st).parked = s.parked ∧ (s.admitInto q h st).placement = s.placement ∧
      (s.admitInto q h st).stations = s.stations ∧ (s.admitInto q h st).prepLimit = s.prepLimit ∧
      (s.admitInto q h st).hold = s.hold ∧ (s.admitInto q h st).trips = s.trips ∧
      (s.admitInto q h st).readyList = s.readyList ∧ (s.admitInto q h st).window = s.window ∧
      (s.admitInto q h st).attention = s.attention ∧ (s.admitInto q h st).port = s.port ∧
      (s.admitInto q h st).phase = s.phase ∧ (s.admitInto q h st).freeCount = s.freeCount ∧
      (s.admitInto q h st).pending = s.pending := by
  simp [State.admitInto]

@[simp] theorem State.departCar_frame (l : LaneNo) (h : CarHandle) (c : Car) :
    (s.departCar l h c).fieldUnits = s.fieldUnits ∧ (s.departCar l h c).serialCounter = s.serialCounter ∧
      (s.departCar l h c).tallies = s.tallies ∧ (s.departCar l h c).programs = s.programs ∧
      (s.departCar l h c).timebases = s.timebases ∧ (s.departCar l h c).bays = s.bays ∧
      (s.departCar l h c).readyLevel = s.readyLevel ∧ (s.departCar l h c).issueTime = s.issueTime ∧
      (s.departCar l h c).orders = s.orders ∧ (s.departCar l h c).parked = s.parked ∧
      (s.departCar l h c).placement = s.placement ∧ (s.departCar l h c).stations = s.stations ∧
      (s.departCar l h c).prepLimit = s.prepLimit ∧ (s.departCar l h c).hold = s.hold ∧
      (s.departCar l h c).trips = s.trips ∧ (s.departCar l h c).readyList = s.readyList ∧
      (s.departCar l h c).window = s.window ∧ (s.departCar l h c).attention = s.attention ∧
      (s.departCar l h c).port = s.port ∧ (s.departCar l h c).phase = s.phase ∧
      (s.departCar l h c).freeCount = s.freeCount ∧ (s.departCar l h c).pending = s.pending := by
  unfold State.departCar
  dsimp only
  split <;> simp

@[simp] theorem State.setPassTimes_frame (mask passTime : Nat) :
    (s.setPassTimes mask passTime).fieldUnits = s.fieldUnits ∧ (s.setPassTimes mask passTime).entries = s.entries ∧
      (s.setPassTimes mask passTime).serialCounter = s.serialCounter ∧
      (s.setPassTimes mask passTime).tallies = s.tallies ∧ (s.setPassTimes mask passTime).programs = s.programs ∧
      (s.setPassTimes mask passTime).timebases = s.timebases ∧ (s.setPassTimes mask passTime).sets = s.sets ∧
      (s.setPassTimes mask passTime).bays = s.bays ∧ (s.setPassTimes mask passTime).readyLevel = s.readyLevel ∧
      (s.setPassTimes mask passTime).issueTime = s.issueTime ∧ (s.setPassTimes mask passTime).orders = s.orders ∧
      (s.setPassTimes mask passTime).parked = s.parked ∧ (s.setPassTimes mask passTime).placement = s.placement ∧
      (s.setPassTimes mask passTime).stations = s.stations ∧ (s.setPassTimes mask passTime).prepLimit = s.prepLimit ∧
      (s.setPassTimes mask passTime).hold = s.hold ∧ (s.setPassTimes mask passTime).trips = s.trips ∧
      (s.setPassTimes mask passTime).readyList = s.readyList ∧ (s.setPassTimes mask passTime).window = s.window ∧
      (s.setPassTimes mask passTime).attention = s.attention ∧ (s.setPassTimes mask passTime).port = s.port ∧
      (s.setPassTimes mask passTime).phase = s.phase ∧ (s.setPassTimes mask passTime).freeCount = s.freeCount ∧
      (s.setPassTimes mask passTime).pending = s.pending := by
  refine ⟨?_, ?_, ?_, ?_, ?_, ?_, ?_, ?_, ?_, ?_, ?_, ?_, ?_, ?_, ?_, ?_, ?_, ?_, ?_, ?_, ?_, ?_, ?_, ?_⟩ <;>
    exact State.forEach_keeps _ _ _ _ fun x t => by split <;> simp

@[simp] theorem State.moveCar_frame (h : CarHandle) (c : Car) (f : FieldNo) (st : Stall) :
    (s.moveCar h c f st).serialCounter = s.serialCounter ∧ (s.moveCar h c f st).lanes = s.lanes ∧
      (s.moveCar h c f st).tallies = s.tallies ∧ (s.moveCar h c f st).programs = s.programs ∧
      (s.moveCar h c f st).timebases = s.timebases ∧ (s.moveCar h c f st).sets = s.sets ∧
      (s.moveCar h c f st).bays = s.bays ∧ (s.moveCar h c f st).readyLevel = s.readyLevel ∧
      (s.moveCar h c f st).issueTime = s.issueTime ∧ (s.moveCar h c f st).orders = s.orders ∧
      (s.moveCar h c f st).parked = s.parked ∧ (s.moveCar h c f st).placement = s.placement ∧
      (s.moveCar h c f st).stations = s.stations ∧ (s.moveCar h c f st).prepLimit = s.prepLimit ∧
      (s.moveCar h c f st).hold = s.hold ∧ (s.moveCar h c f st).trips = s.trips ∧
      (s.moveCar h c f st).readyList = s.readyList ∧ (s.moveCar h c f st).window = s.window ∧
      (s.moveCar h c f st).attention = s.attention ∧ (s.moveCar h c f st).port = s.port ∧
      (s.moveCar h c f st).phase = s.phase ∧ (s.moveCar h c f st).freeCount = s.freeCount ∧
      (s.moveCar h c f st).pending = s.pending := by
  unfold State.moveCar
  dsimp only
  split <;> simp

@[simp] theorem State.clearTouched_frame (hs : List CarHandle) :
    (s.clearTouched hs).fieldUnits = s.fieldUnits ∧ (s.clearTouched hs).serialCounter = s.serialCounter ∧
      (s.clearTouched hs).lanes = s.lanes ∧ (s.clearTouched hs).tallies = s.tallies ∧
      (s.clearTouched hs).programs = s.programs ∧ (s.clearTouched hs).timebases = s.timebases ∧
      (s.clearTouched hs).sets = s.sets ∧ (s.clearTouched hs).bays = s.bays ∧
      (s.clearTouched hs).readyLevel = s.readyLevel ∧ (s.clearTouched hs).issueTime = s.issueTime ∧
      (s.clearTouched hs).orders = s.orders ∧ (s.clearTouched hs).parked = s.parked ∧
      (s.clearTouched hs).placement = s.placement ∧ (s.clearTouched hs).stations = s.stations ∧
      (s.clearTouched hs).prepLimit = s.prepLimit ∧ (s.clearTouched hs).hold = s.hold ∧
      (s.clearTouched hs).trips = s.trips ∧ (s.clearTouched hs).readyList = s.readyList ∧
      (s.clearTouched hs).window = s.window ∧ (s.clearTouched hs).attention = s.attention ∧
      (s.clearTouched hs).port = s.port ∧ (s.clearTouched hs).phase = s.phase ∧
      (s.clearTouched hs).freeCount = s.freeCount ∧ (s.clearTouched hs).pending = s.pending := by
  refine ⟨?_, ?_, ?_, ?_, ?_, ?_, ?_, ?_, ?_, ?_, ?_, ?_, ?_, ?_, ?_, ?_, ?_, ?_, ?_, ?_, ?_, ?_, ?_, ?_⟩ <;>
    exact State.forEach_keeps _ _ _ _ fun x t => by simp

@[simp] theorem State.issueSet_frame (n : SetHandle) (h : CarHandle) (c : Car) :
    (s.issueSet n h c).fieldUnits = s.fieldUnits ∧ (s.issueSet n h c).serialCounter = s.serialCounter ∧
      (s.issueSet n h c).lanes = s.lanes ∧ (s.issueSet n h c).tallies = s.tallies ∧
      (s.issueSet n h c).programs = s.programs ∧ (s.issueSet n h c).timebases = s.timebases ∧
      (s.issueSet n h c).bays = s.bays ∧ (s.issueSet n h c).readyLevel = s.readyLevel ∧
      (s.issueSet n h c).issueTime = s.issueTime ∧ (s.issueSet n h c).orders = s.orders ∧
      (s.issueSet n h c).parked = s.parked ∧ (s.issueSet n h c).placement = s.placement ∧
      (s.issueSet n h c).stations = s.stations ∧ (s.issueSet n h c).prepLimit = s.prepLimit ∧
      (s.issueSet n h c).hold = s.hold ∧ (s.issueSet n h c).trips = s.trips ∧
      (s.issueSet n h c).readyList = s.readyList ∧ (s.issueSet n h c).window = s.window ∧
      (s.issueSet n h c).attention = s.attention ∧ (s.issueSet n h c).port = s.port ∧
      (s.issueSet n h c).phase = s.phase ∧ (s.issueSet n h c).freeCount = s.freeCount ∧
      (s.issueSet n h c).pending = s.pending := by
  simp [State.issueSet]

@[simp] theorem State.dockByCharge_frame (n : SetHandle) (b : BayNo) (level : Nat) :
    (s.dockByCharge n b level).fieldUnits = s.fieldUnits ∧ (s.dockByCharge n b level).entries = s.entries ∧
      (s.dockByCharge n b level).serialCounter = s.serialCounter ∧ (s.dockByCharge n b level).lanes = s.lanes ∧
      (s.dockByCharge n b level).tallies = s.tallies ∧ (s.dockByCharge n b level).programs = s.programs ∧
      (s.dockByCharge n b level).timebases = s.timebases ∧ (s.dockByCharge n b level).readyLevel = s.readyLevel ∧
      (s.dockByCharge n b level).issueTime = s.issueTime ∧ (s.dockByCharge n b level).orders = s.orders ∧
      (s.dockByCharge n b level).parked = s.parked ∧ (s.dockByCharge n b level).placement = s.placement ∧
      (s.dockByCharge n b level).stations = s.stations ∧ (s.dockByCharge n b level).prepLimit = s.prepLimit ∧
      (s.dockByCharge n b level).hold = s.hold ∧ (s.dockByCharge n b level).trips = s.trips ∧
      (s.dockByCharge n b level).readyList = s.readyList ∧ (s.dockByCharge n b level).window = s.window ∧
      (s.dockByCharge n b level).attention = s.attention ∧ (s.dockByCharge n b level).port = s.port ∧
      (s.dockByCharge n b level).phase = s.phase ∧ (s.dockByCharge n b level).freeCount = s.freeCount ∧
      (s.dockByCharge n b level).pending = s.pending := by
  simp [State.dockByCharge, State.dockAt]

@[simp] theorem State.arrive_frame (n : SetHandle) (b : BayNo) (level : Nat) :
    (s.arrive n b level).fieldUnits = s.fieldUnits ∧ (s.arrive n b level).serialCounter = s.serialCounter ∧
      (s.arrive n b level).lanes = s.lanes ∧ (s.arrive n b level).programs = s.programs ∧
      (s.arrive n b level).timebases = s.timebases ∧ (s.arrive n b level).readyLevel = s.readyLevel ∧
      (s.arrive n b level).issueTime = s.issueTime ∧ (s.arrive n b level).orders = s.orders ∧
      (s.arrive n b level).parked = s.parked ∧ (s.arrive n b level).placement = s.placement ∧
      (s.arrive n b level).stations = s.stations ∧ (s.arrive n b level).prepLimit = s.prepLimit ∧
      (s.arrive n b level).hold = s.hold ∧ (s.arrive n b level).trips = s.trips ∧
      (s.arrive n b level).readyList = s.readyList ∧ (s.arrive n b level).window = s.window ∧
      (s.arrive n b level).port = s.port ∧ (s.arrive n b level).phase = s.phase ∧
      (s.arrive n b level).freeCount = s.freeCount ∧ (s.arrive n b level).pending = s.pending := by
  unfold State.arrive
  dsimp only
  split <;> simp [State.dockAt]

@[simp] theorem State.undockFrom_frame (other : Option SetHandle) :
    (s.undockFrom other).fieldUnits = s.fieldUnits ∧ (s.undockFrom other).serialCounter = s.serialCounter ∧
      (s.undockFrom other).lanes = s.lanes ∧ (s.undockFrom other).tallies = s.tallies ∧
      (s.undockFrom other).programs = s.programs ∧ (s.undockFrom other).timebases = s.timebases ∧
      (s.undockFrom other).readyLevel = s.readyLevel ∧ (s.undockFrom other).issueTime = s.issueTime ∧
      (s.undockFrom other).orders = s.orders ∧ (s.undockFrom other).parked = s.parked ∧
      (s.undockFrom other).placement = s.placement ∧ (s.undockFrom other).stations = s.stations ∧
      (s.undockFrom other).prepLimit = s.prepLimit ∧ (s.undockFrom other).hold = s.hold ∧
      (s.undockFrom other).trips = s.trips ∧ (s.undockFrom other).readyList = s.readyList ∧
      (s.undockFrom other).window = s.window ∧ (s.undockFrom other).port = s.port ∧
      (s.undockFrom other).phase = s.phase ∧ (s.undockFrom other).freeCount = s.freeCount ∧
      (s.undockFrom other).pending = s.pending := by
  unfold State.undockFrom
  split <;> simp

@[simp] theorem State.liftFrom_frame (b : BayNo) (n : SetHandle) :
    (s.liftFrom b n).fieldUnits = s.fieldUnits ∧ (s.liftFrom b n).entries = s.entries ∧
      (s.liftFrom b n).serialCounter = s.serialCounter ∧ (s.liftFrom b n).lanes = s.lanes ∧
      (s.liftFrom b n).tallies = s.tallies ∧ (s.liftFrom b n).programs = s.programs ∧
      (s.liftFrom b n).timebases = s.timebases ∧ (s.liftFrom b n).readyLevel = s.readyLevel ∧
      (s.liftFrom b n).issueTime = s.issueTime ∧ (s.liftFrom b n).orders = s.orders ∧
      (s.liftFrom b n).parked = s.parked ∧ (s.liftFrom b n).placement = s.placement ∧
      (s.liftFrom b n).stations = s.stations ∧ (s.liftFrom b n).prepLimit = s.prepLimit ∧
      (s.liftFrom b n).hold = s.hold ∧ (s.liftFrom b n).trips = s.trips ∧ (s.liftFrom b n).readyList = s.readyList ∧
      (s.liftFrom b n).window = s.window ∧ (s.liftFrom b n).attention = s.attention ∧ (s.liftFrom b n).port = s.port ∧
      (s.liftFrom b n).phase = s.phase ∧ (s.liftFrom b n).freeCount = s.freeCount ∧
      (s.liftFrom b n).pending = s.pending := by
  simp [State.liftFrom]

@[simp] theorem State.completeLend_frame (n : SetHandle) :
    (s.completeLend n).fieldUnits = s.fieldUnits ∧ (s.completeLend n).serialCounter = s.serialCounter ∧
      (s.completeLend n).lanes = s.lanes ∧ (s.completeLend n).programs = s.programs ∧
      (s.completeLend n).timebases = s.timebases ∧ (s.completeLend n).bays = s.bays ∧
      (s.completeLend n).readyLevel = s.readyLevel ∧ (s.completeLend n).issueTime = s.issueTime ∧
      (s.completeLend n).orders = s.orders ∧ (s.completeLend n).parked = s.parked ∧
      (s.completeLend n).placement = s.placement ∧ (s.completeLend n).stations = s.stations ∧
      (s.completeLend n).prepLimit = s.prepLimit ∧ (s.completeLend n).hold = s.hold ∧
      (s.completeLend n).trips = s.trips ∧ (s.completeLend n).readyList = s.readyList ∧
      (s.completeLend n).window = s.window ∧ (s.completeLend n).port = s.port ∧ (s.completeLend n).phase = s.phase ∧
      (s.completeLend n).freeCount = s.freeCount ∧ (s.completeLend n).pending = s.pending := by
  simp [State.completeLend]

@[simp] theorem State.removeUnlawfully_frame (n : SetHandle) :
    (s.removeUnlawfully n).fieldUnits = s.fieldUnits ∧ (s.removeUnlawfully n).entries = s.entries ∧
      (s.removeUnlawfully n).serialCounter = s.serialCounter ∧ (s.removeUnlawfully n).lanes = s.lanes ∧
      (s.removeUnlawfully n).programs = s.programs ∧ (s.removeUnlawfully n).timebases = s.timebases ∧
      (s.removeUnlawfully n).bays = s.bays ∧ (s.removeUnlawfully n).readyLevel = s.readyLevel ∧
      (s.removeUnlawfully n).issueTime = s.issueTime ∧ (s.removeUnlawfully n).orders = s.orders ∧
      (s.removeUnlawfully n).parked = s.parked ∧ (s.removeUnlawfully n).placement = s.placement ∧
      (s.removeUnlawfully n).stations = s.stations ∧ (s.removeUnlawfully n).prepLimit = s.prepLimit ∧
      (s.removeUnlawfully n).hold = s.hold ∧ (s.removeUnlawfully n).trips = s.trips ∧
      (s.removeUnlawfully n).readyList = s.readyList ∧ (s.removeUnlawfully n).window = s.window ∧
      (s.removeUnlawfully n).port = s.port ∧ (s.removeUnlawfully n).phase = s.phase ∧
      (s.removeUnlawfully n).freeCount = s.freeCount ∧ (s.removeUnlawfully n).pending = s.pending := by
  simp [State.removeUnlawfully]

@[simp] theorem State.failSet_frame (n : SetHandle) :
    (s.failSet n).fieldUnits = s.fieldUnits ∧ (s.failSet n).serialCounter = s.serialCounter ∧
      (s.failSet n).lanes = s.lanes ∧ (s.failSet n).tallies = s.tallies ∧ (s.failSet n).programs = s.programs ∧
      (s.failSet n).timebases = s.timebases ∧ (s.failSet n).bays = s.bays ∧ (s.failSet n).readyLevel = s.readyLevel ∧
      (s.failSet n).issueTime = s.issueTime ∧ (s.failSet n).orders = s.orders ∧ (s.failSet n).parked = s.parked ∧
      (s.failSet n).placement = s.placement ∧ (s.failSet n).stations = s.stations ∧
      (s.failSet n).prepLimit = s.prepLimit ∧ (s.failSet n).hold = s.hold ∧ (s.failSet n).trips = s.trips ∧
      (s.failSet n).readyList = s.readyList ∧ (s.failSet n).window = s.window ∧ (s.failSet n).port = s.port ∧
      (s.failSet n).phase = s.phase ∧ (s.failSet n).freeCount = s.freeCount ∧ (s.failSet n).pending = s.pending := by
  unfold State.failSet
  dsimp only
  split <;> simp

@[simp] theorem State.parkOrder_frame (o : OrderHandle) (h : CarHandle) (f : FieldNo) (mode : ReleaseMode) (lines : List OrderLine) :
    (s.parkOrder o h f mode lines).fieldUnits = s.fieldUnits ∧
      (s.parkOrder o h f mode lines).serialCounter = s.serialCounter ∧
      (s.parkOrder o h f mode lines).lanes = s.lanes ∧ (s.parkOrder o h f mode lines).programs = s.programs ∧
      (s.parkOrder o h f mode lines).timebases = s.timebases ∧ (s.parkOrder o h f mode lines).sets = s.sets ∧
      (s.parkOrder o h f mode lines).bays = s.bays ∧ (s.parkOrder o h f mode lines).readyLevel = s.readyLevel ∧
      (s.parkOrder o h f mode lines).issueTime = s.issueTime ∧ (s.parkOrder o h f mode lines).stations = s.stations ∧
      (s.parkOrder o h f mode lines).prepLimit = s.prepLimit ∧ (s.parkOrder o h f mode lines).hold = s.hold ∧
      (s.parkOrder o h f mode lines).trips = s.trips ∧ (s.parkOrder o h f mode lines).readyList = s.readyList ∧
      (s.parkOrder o h f mode lines).window = s.window ∧ (s.parkOrder o h f mode lines).attention = s.attention ∧
      (s.parkOrder o h f mode lines).port = s.port ∧ (s.parkOrder o h f mode lines).phase = s.phase ∧
      (s.parkOrder o h f mode lines).freeCount = s.freeCount ∧
      (s.parkOrder o h f mode lines).pending = s.pending := by
  simp [State.parkOrder]

@[simp] theorem State.placeDueCheck_frame (o : OrderHandle) (f : FieldNo) (mode : ReleaseMode) :
    (s.placeDueCheck o f mode).fieldUnits = s.fieldUnits ∧ (s.placeDueCheck o f mode).entries = s.entries ∧
      (s.placeDueCheck o f mode).serialCounter = s.serialCounter ∧ (s.placeDueCheck o f mode).lanes = s.lanes ∧
      (s.placeDueCheck o f mode).programs = s.programs ∧ (s.placeDueCheck o f mode).timebases = s.timebases ∧
      (s.placeDueCheck o f mode).sets = s.sets ∧ (s.placeDueCheck o f mode).bays = s.bays ∧
      (s.placeDueCheck o f mode).readyLevel = s.readyLevel ∧ (s.placeDueCheck o f mode).issueTime = s.issueTime ∧
      (s.placeDueCheck o f mode).placement = s.placement ∧ (s.placeDueCheck o f mode).prepLimit = s.prepLimit ∧
      (s.placeDueCheck o f mode).trips = s.trips ∧ (s.placeDueCheck o f mode).readyList = s.readyList ∧
      (s.placeDueCheck o f mode).window = s.window ∧ (s.placeDueCheck o f mode).port = s.port ∧
      (s.placeDueCheck o f mode).phase = s.phase ∧ (s.placeDueCheck o f mode).freeCount = s.freeCount ∧
      (s.placeDueCheck o f mode).pending = s.pending := by
  unfold State.placeDueCheck
  split <;> simp

@[simp] theorem State.finishLine_frame (o : OrderHandle) (ord : Order) (k : Nat) :
    (s.finishLine o ord k).fieldUnits = s.fieldUnits ∧ (s.finishLine o ord k).serialCounter = s.serialCounter ∧
      (s.finishLine o ord k).lanes = s.lanes ∧ (s.finishLine o ord k).programs = s.programs ∧
      (s.finishLine o ord k).timebases = s.timebases ∧ (s.finishLine o ord k).sets = s.sets ∧
      (s.finishLine o ord k).bays = s.bays ∧ (s.finishLine o ord k).readyLevel = s.readyLevel ∧
      (s.finishLine o ord k).issueTime = s.issueTime ∧ (s.finishLine o ord k).placement = s.placement ∧
      (s.finishLine o ord k).prepLimit = s.prepLimit ∧ (s.finishLine o ord k).window = s.window ∧
      (s.finishLine o ord k).port = s.port ∧ (s.finishLine o ord k).phase = s.phase ∧
      (s.finishLine o ord k).freeCount = s.freeCount ∧ (s.finishLine o ord k).pending = s.pending := by
  unfold State.finishLine
  dsimp only
  split <;> simp

@[simp] theorem State.setThresholds_frame (mask xoff xon : Nat) :
    (s.setThresholds mask xoff xon).fieldUnits = s.fieldUnits ∧ (s.setThresholds mask xoff xon).entries = s.entries ∧
      (s.setThresholds mask xoff xon).serialCounter = s.serialCounter ∧
      (s.setThresholds mask xoff xon).lanes = s.lanes ∧ (s.setThresholds mask xoff xon).tallies = s.tallies ∧
      (s.setThresholds mask xoff xon).programs = s.programs ∧
      (s.setThresholds mask xoff xon).timebases = s.timebases ∧ (s.setThresholds mask xoff xon).sets = s.sets ∧
      (s.setThresholds mask xoff xon).bays = s.bays ∧ (s.setThresholds mask xoff xon).readyLevel = s.readyLevel ∧
      (s.setThresholds mask xoff xon).issueTime = s.issueTime ∧ (s.setThresholds mask xoff xon).orders = s.orders ∧
      (s.setThresholds mask xoff xon).parked = s.parked ∧ (s.setThresholds mask xoff xon).placement = s.placement ∧
      (s.setThresholds mask xoff xon).prepLimit = s.prepLimit ∧ (s.setThresholds mask xoff xon).hold = s.hold ∧
      (s.setThresholds mask xoff xon).trips = s.trips ∧ (s.setThresholds mask xoff xon).readyList = s.readyList ∧
      (s.setThresholds mask xoff xon).window = s.window ∧ (s.setThresholds mask xoff xon).attention = s.attention ∧
      (s.setThresholds mask xoff xon).port = s.port ∧ (s.setThresholds mask xoff xon).phase = s.phase ∧
      (s.setThresholds mask xoff xon).freeCount = s.freeCount ∧
      (s.setThresholds mask xoff xon).pending = s.pending := by
  simp [State.setThresholds_eq]

@[simp] theorem State.reportOrder_frame (o : OrderHandle) (ord : Order) (delivered : Bool) :
    (s.reportOrder o ord delivered).fieldUnits = s.fieldUnits ∧
      (s.reportOrder o ord delivered).serialCounter = s.serialCounter ∧
      (s.reportOrder o ord delivered).lanes = s.lanes ∧ (s.reportOrder o ord delivered).programs = s.programs ∧
      (s.reportOrder o ord delivered).timebases = s.timebases ∧ (s.reportOrder o ord delivered).sets = s.sets ∧
      (s.reportOrder o ord delivered).bays = s.bays ∧ (s.reportOrder o ord delivered).readyLevel = s.readyLevel ∧
      (s.reportOrder o ord delivered).issueTime = s.issueTime ∧
      (s.reportOrder o ord delivered).placement = s.placement ∧
      (s.reportOrder o ord delivered).prepLimit = s.prepLimit ∧ (s.reportOrder o ord delivered).window = s.window ∧
      (s.reportOrder o ord delivered).port = s.port ∧ (s.reportOrder o ord delivered).phase = s.phase ∧
      (s.reportOrder o ord delivered).freeCount = s.freeCount ∧
      (s.reportOrder o ord delivered).pending = s.pending := by
  unfold State.reportOrder State.countReport
  split <;> simp

@[simp] theorem State.recallTrip_frame (k : TripHandle) :
    (s.recallTrip k).fieldUnits = s.fieldUnits ∧ (s.recallTrip k).entries = s.entries ∧
      (s.recallTrip k).serialCounter = s.serialCounter ∧ (s.recallTrip k).lanes = s.lanes ∧
      (s.recallTrip k).tallies = s.tallies ∧ (s.recallTrip k).programs = s.programs ∧
      (s.recallTrip k).timebases = s.timebases ∧ (s.recallTrip k).sets = s.sets ∧ (s.recallTrip k).bays = s.bays ∧
      (s.recallTrip k).readyLevel = s.readyLevel ∧ (s.recallTrip k).issueTime = s.issueTime ∧
      (s.recallTrip k).parked = s.parked ∧ (s.recallTrip k).placement = s.placement ∧
      (s.recallTrip k).stations = s.stations ∧ (s.recallTrip k).prepLimit = s.prepLimit ∧
      (s.recallTrip k).hold = s.hold ∧ (s.recallTrip k).window = s.window ∧ (s.recallTrip k).port = s.port ∧
      (s.recallTrip k).phase = s.phase ∧ (s.recallTrip k).freeCount = s.freeCount ∧
      (s.recallTrip k).pending = s.pending := by
  unfold State.recallTrip
  dsimp only
  obtain ⟨orders, h⟩ := s.forEach_modOrder_frame (s.routeOrder k) fun ord => { ord with stage := .ready, trip := none }
  rw [h]
  simp

@[simp] theorem State.cycleTimebases_frame :
    s.cycleTimebases.fieldUnits = s.fieldUnits ∧ s.cycleTimebases.entries = s.entries ∧
      s.cycleTimebases.serialCounter = s.serialCounter ∧ s.cycleTimebases.lanes = s.lanes ∧
      s.cycleTimebases.tallies = s.tallies ∧ s.cycleTimebases.programs = s.programs ∧ s.cycleTimebases.sets = s.sets ∧
      s.cycleTimebases.bays = s.bays ∧ s.cycleTimebases.readyLevel = s.readyLevel ∧
      s.cycleTimebases.issueTime = s.issueTime ∧ s.cycleTimebases.orders = s.orders ∧
      s.cycleTimebases.parked = s.parked ∧ s.cycleTimebases.placement = s.placement ∧
      s.cycleTimebases.stations = s.stations ∧ s.cycleTimebases.prepLimit = s.prepLimit ∧
      s.cycleTimebases.hold = s.hold ∧ s.cycleTimebases.trips = s.trips ∧ s.cycleTimebases.readyList = s.readyList ∧
      s.cycleTimebases.window = s.window ∧ s.cycleTimebases.attention = s.attention ∧ s.cycleTimebases.port = s.port ∧
      s.cycleTimebases.phase = s.phase ∧ s.cycleTimebases.freeCount = s.freeCount ∧
      s.cycleTimebases.pending = s.pending := by
  simp [State.cycleTimebases_eq]

@[simp] theorem State.countMillisecond_frame :
    s.countMillisecond.fieldUnits = s.fieldUnits ∧ s.countMillisecond.entries = s.entries ∧
      s.countMillisecond.serialCounter = s.serialCounter ∧ s.countMillisecond.tallies = s.tallies ∧
      s.countMillisecond.programs = s.programs ∧ s.countMillisecond.timebases = s.timebases ∧
      s.countMillisecond.bays = s.bays ∧ s.countMillisecond.readyLevel = s.readyLevel ∧
      s.countMillisecond.issueTime = s.issueTime ∧ s.countMillisecond.parked = s.parked ∧
      s.countMillisecond.placement = s.placement ∧ s.countMillisecond.stations = s.stations ∧
      s.countMillisecond.prepLimit = s.prepLimit ∧ s.countMillisecond.hold = s.hold ∧
      s.countMillisecond.readyList = s.readyList ∧ s.countMillisecond.window = s.window ∧
      s.countMillisecond.attention = s.attention ∧ s.countMillisecond.port = s.port ∧
      s.countMillisecond.phase = s.phase ∧ s.countMillisecond.freeCount = s.freeCount ∧
      s.countMillisecond.pending = s.pending := by
  simp [State.countMillisecond_eq]

end

end Sys2Proof.Machine
end

section
/-! PROOF. What the changes and events make of a field's program and timebase, field by field; and the records after part
reset. -/

namespace Sys2Proof.Machine

/-! ### The moves of a field's show -/

/-- The program unit that a frame advance of `k` frames leaves (R73, R74). -/
def ProgramUnit.advanced (p : ProgramUnit) (k : Nat) : ProgramUnit :=
  if p.state = .running then
    let moved := { p with segment := (p.advance k).segment, frame := (p.advance k).frame }.withCues
    if (p.advance k).ranOut then moved.ended else moved
  else p

/-- The timebase that a frame advance of `k` frames of its field's program leaves (R74). -/
def Timebase.advanced (x : Timebase) (p : ProgramUnit) (k : Nat) : Timebase :=
  if p.state = .running ∧ (p.advance k).ranOut then x.freed else x

/-- The program unit that the pulse which leaves LOST leaves (R77). -/
def ProgramUnit.restarted (p : ProgramUnit) : ProgramUnit :=
  if p.state = .paused .stall then { p with state := .running } else p

/-- The program unit whose timebase has entered LOST (R77). -/
def ProgramUnit.stalled (p : ProgramUnit) : ProgramUnit :=
  if p.state = .running then { p with state := .paused .stall } else p

/-- What one change or event can make of a field's program unit and timebase where the field is neither opened nor closed,
with what its rule has checked. -/
inductive PlayMove (p : ProgramUnit) (x : Timebase) : ProgramUnit → Timebase → Prop
  | stands : PlayMove p x p x
  | settings (y : LockSettings) (state : p.state = .dark ∨ p.state = .opened) (window : 1 ≤ y.window ∧ y.window ≤ 64)
      (gain : y.gain ≤ 64) (jump : 1 ≤ y.jump ∧ y.jump ≤ 4096) (holdover : 1 ≤ y.holdover ∧ y.holdover ≤ 48)
      (reacquire : 24 ≤ y.reacquire ∧ y.reacquire ≤ 480) : PlayMove p x p { x with settings := y }
  | drafted (header : Header) (dark : p.state = .dark) (cutoffSegment : ∀ c, header.cutoffSegment = some c → c ≤ 23)
      (cutoffFrames : header.cutoffFrames ≤ 1048575) (lead : header.lead ≤ 65535) :
      PlayMove p x { p with record := .draft header [] } x
  | appended (header : Header) (segs : List Segment) (seg : Segment) (dark : p.state = .dark)
      (draft : p.record = .draft header segs) (room : segs.length < 24) (length : 1 ≤ seg.length ∧ seg.length ≤ 1048575)
      (title : seg.title ≤ 255) : PlayMove p x { p with record := .draft header (segs ++ [seg]) } x
  | started (opened : p.state = .opened) :
      PlayMove p x { p with state := .running, segment := 0, frame := 0 }.withCues x.sought
  | paused (state : p.state = .running ∨ p.state = .paused .stall) :
      PlayMove p x { p with state := .paused .host } x.freed
  | resumed (paused : p.state = .paused .host) : PlayMove p x { p with state := .running } x.sought
  | skipped (inShow : p.state.inShow = true) (more : p.segment + 1 < p.record.segments.length) :
      PlayMove p x { p with segment := p.segment + 1, frame := 0 }.withCues x
  | skippedOut (inShow : p.state.inShow = true) :
      PlayMove p x { p with segment := p.record.segments.length, frame := 0 }.ended x.freed
  | ended (inShow : p.state.inShow = true) : PlayMove p x p.ended x.freed
  | referred (seek : x.state = .seek) : PlayMove p x (p.advanced 1) ((x.refer.reacquired 1).advanced p 1)
  | measured (seek : x.state = .seek) (reference : x.reference = true) :
      PlayMove p x (p.advanced 1) (((x.measure p.ns).reacquired 1).advanced p 1)
  | updated (k : Nat) (tracks : x.state = .track ∨ x.state = .locked ∨ x.state = .holdover) :
      PlayMove p x (p.advanced k) (((x.update p.ns k).reacquired k).advanced p k)
  | recovered (lost : x.state = .lost) : PlayMove p x (p.restarted.advanced 1) (x.recover.advanced p.restarted 1)
  | overdue (tracks : x.state = .track ∨ x.state = .locked) :
      PlayMove p x p { x.gapAtLeast x.overdueAt with state := .holdover, missed := 1 }
  | missed (holdover : x.state = .holdover) (room : x.missed < x.settings.holdover) :
      PlayMove p x p { x.gapAtLeast x.nextExpiryAt with missed := x.missed + 1 }
  | lost (holdover : x.state = .holdover) (full : ¬ x.missed < x.settings.holdover) :
      PlayMove p x p.stalled { x.gapAtLeast x.nextExpiryAt with state := .lost, marked := false }
  | dropped (seek : x.state = .seek) : PlayMove p x p { x with reference := false, gap := 0, strobes := 0 }
  | strobed : PlayMove p x p (x.runToStrobe p.ns)
  | fell : PlayMove p x p x.runToFall
  | carried (level : Bool) : PlayMove p x { p with carrier := level } x
  | cycled : PlayMove p x p (x.cycle p.ns)

/-- What one change or event can make of a field's program unit and timebase. -/
inductive ShowMove (p : ProgramUnit) (x : Timebase) : ProgramUnit → Timebase → Prop
  | plays {p' : ProgramUnit} {x' : Timebase} (move : PlayMove p x p' x') : ShowMove p x p' x'
  | opened (header : Header) (segs : List Segment) (dark : p.state = .dark) (draft : p.record = .draft header segs)
      (valid : validDraft header segs = true) :
      ShowMove p x { p with record := .loaded header segs, state := .opened, segment := 0, frame := 0, txen := true }.withCues
        (x.opened header.ns)
  | darkened (state : p.state = .opened ∨ p.state = .ended) :
      ShowMove p x { p with record := .empty, state := .dark, segment := 0, frame := 0, txen := false }.withCues x.stopped

/-- The programs and timebases after a change that moves the show of one field. -/
structure ShowAfter (s t : State) (f : FieldNo) (p : ProgramUnit) (x : Timebase) : Prop where
  programs : t.programs = put s.programs f p
  timebases : t.timebases = put s.timebases f x

section
variable (s : State)

theorem frameAdvance_show (f : FieldNo) (k : Nat) :
    ShowAfter s (s.frameAdvance f k) f ((s.program f).advanced k) ((s.timebase f).advanced (s.program f) k) := by
  unfold State.frameAdvance ProgramUnit.advanced Timebase.advanced
  by_cases hr : (s.program f).state = .running
  · by_cases ho : ((s.program f).advance k).ranOut = true
    · simp only [hr, ho, beq_self_eq_true, if_true, and_self, Bool.or_true]
      constructor <;> simp [State.endField, State.setProgram, State.setTimebase, put_put, State.program]
      rfl
    · simp only [hr, ho, beq_self_eq_true, if_true]
      constructor <;> split <;> simp [State.setProgram, State.timebase, put_look]
  · simp only [hr, beq_iff_eq, if_false, false_and]
    exact ⟨by simp [State.program, put_look], by simp [State.timebase, put_look]⟩

theorem countReacquire_show (f : FieldNo) (k : Nat) :
    (s.countReacquire f k).programs = s.programs ∧
      (s.countReacquire f k).timebases = put s.timebases f ((s.timebase f).reacquired k) := by
  have h := (countReacquire_spec s f k _ rfl).frame
  rw [h]
  exact ⟨rfl, rfl⟩

/-- An accepted pulse leaves the frame advance of the timebase that it has handled and counted (R107, R108). -/
theorem pulse_show {t : State} {f : FieldNo} {p : ProgramUnit} {x : Timebase} (ht : ShowAfter s t f p x) (k : Nat) :
    ShowAfter s (t.frameAdvance f k) f (p.advanced k) (x.advanced p k) := by
  obtain ⟨hp, hx⟩ := ht
  have h := frameAdvance_show t f k
  have hprogram : t.program f = p := by rw [State.program, hp, look_put_self]
  have htimebase : t.timebase f = x := by rw [State.timebase, hx, look_put_self]
  rw [hprogram, htimebase] at h
  exact ⟨by rw [h.programs, hp, put_put], by rw [h.timebases, hx, put_put]⟩

/-- A timebase written, and counted in its reacquisition. -/
theorem counted_show {t : State} {f : FieldNo} {x : Timebase} (hp : t.programs = s.programs)
    (hx : t.timebases = put s.timebases f x) (k : Nat) :
    ShowAfter s (t.countReacquire f k) f (s.program f) (x.reacquired k) := by
  obtain ⟨h1, h2⟩ := countReacquire_show t f k
  have htimebase : t.timebase f = x := by rw [State.timebase, hx, look_put_self]
  refine ⟨by rw [h1, hp, State.program, put_look], ?_⟩
  rw [h2, hx, htimebase, put_put]

theorem handledPulse_show (f : FieldNo) (x : Timebase) (k : Nat) :
    ShowAfter s (((s.setTimebase f x).countReacquire f k).frameAdvance f k) f ((s.program f).advanced k)
      ((x.reacquired k).advanced (s.program f) k) :=
  pulse_show s (counted_show s (t := s.setTimebase f x) (x := x) rfl rfl k) k

theorem measuredPulse_show (f : FieldNo) (k : Nat) :
    ShowAfter s (s.measuredPulse f k) f ((s.program f).advanced k)
      ((((s.timebase f).update (s.program f).ns k).reacquired k).advanced (s.program f) k) := by
  unfold State.measuredPulse
  dsimp only
  refine pulse_show s (counted_show s ?_ ?_ k) k
  · split <;> simp
  · split <;> simp [State.setTimebase]

theorem endStall_programs (f : FieldNo) : (s.endStall f).programs = put s.programs f (s.program f).restarted := by
  unfold State.endStall ProgramUnit.restarted
  by_cases h : (s.program f).state = .paused .stall
  · simp [h, State.setProgram]
  · simp only [beq_iff_eq, h, if_false]
    exact (put_look _ _).symm

theorem stallField_programs (f : FieldNo) : (s.stallField f).programs = put s.programs f (s.program f).stalled := by
  unfold State.stallField ProgramUnit.stalled
  by_cases h : (s.program f).state = .running
  · simp [h, State.setProgram]
  · simp only [beq_iff_eq, h, if_false]
    exact (put_look _ _).symm

/-! ### Every change and event as a move of each field's show -/

/-- Each field's show stands or makes one of its moves. -/
def ShowMoves (s t : State) : Prop := ∀ f, ShowMove (s.program f) (s.timebase f) (t.program f) (t.timebase f)
/-- Each field's show stands or makes one of its moves, and no field is opened or closed. -/
def PlayMoves (s t : State) : Prop := ∀ f, PlayMove (s.program f) (s.timebase f) (t.program f) (t.timebase f)

variable {s}

theorem PlayMoves.showMoves {t : State} (h : PlayMoves s t) : ShowMoves s t := fun f => .plays (h f)

theorem moves_of_one {M : ProgramUnit → Timebase → ProgramUnit → Timebase → Prop} (hM : ∀ p x, M p x p x) {t : State}
    {f : FieldNo} {p : ProgramUnit} {x : Timebase} (ht : ShowAfter s t f p x) (h : M (s.program f) (s.timebase f) p x) :
    ∀ g, M (s.program g) (s.timebase g) (t.program g) (t.timebase g) := by
  intro g
  have hprogram : t.program g = if f = g then p else s.program g :=
    (congrArg (look · g) ht.programs).trans (look_put _ _ _ _)
  have htimebase : t.timebase g = if f = g then x else s.timebase g :=
    (congrArg (look · g) ht.timebases).trans (look_put _ _ _ _)
  rw [hprogram, htimebase]
  split
  · rename_i e
    subst e
    exact h
  · exact hM _ _

theorem playMoves_of_frame {t : State} (hp : t.programs = s.programs) (hx : t.timebases = s.timebases) :
    PlayMoves s t := by
  intro f
  have hprogram : t.program f = s.program f := congrArg (look · f) hp
  have htimebase : t.timebase f = s.timebase f := congrArg (look · f) hx
  rw [hprogram, htimebase]
  exact .stands

theorem playMoves_of_one {t : State} {f : FieldNo} {p : ProgramUnit} {x : Timebase} (ht : ShowAfter s t f p x)
    (h : PlayMove (s.program f) (s.timebase f) p x) : PlayMoves s t :=
  moves_of_one (fun _ _ => .stands) ht h

/-- A field's program unit written, and nothing else of the shows. -/
theorem playMoves_of_program {t : State} {f : FieldNo} {p : ProgramUnit} (hp : t.programs = put s.programs f p)
    (hx : t.timebases = s.timebases) (h : PlayMove (s.program f) (s.timebase f) p (s.timebase f)) : PlayMoves s t :=
  playMoves_of_one ⟨hp, by rw [hx, State.timebase, put_look]⟩ h

/-- A field's timebase written, and nothing else of the shows. -/
theorem playMoves_of_timebase {t : State} {f : FieldNo} {x : Timebase} (hp : t.programs = s.programs)
    (hx : t.timebases = put s.timebases f x) (h : PlayMove (s.program f) (s.timebase f) (s.program f) x) :
    PlayMoves s t :=
  playMoves_of_one ⟨by rw [hp, State.program, put_look], hx⟩ h

theorem Change.showMoves {t : State} (h : Change s t) : ShowMoves s t := by
  cases h with
  | configureTimebase f x state window gain jump holdover reacquire =>
    exact PlayMoves.showMoves <| playMoves_of_timebase rfl rfl (.settings x state window gain jump holdover reacquire)
  | beginProgram f header dark cutoffSegment cutoffFrames lead =>
    exact PlayMoves.showMoves <| playMoves_of_program rfl rfl (.drafted header dark cutoffSegment cutoffFrames lead)
  | addSegment f header segs seg dark draft room length title =>
    exact PlayMoves.showMoves <| playMoves_of_program rfl rfl (.appended header segs seg dark draft room length title)
  | openField f header segs dark configured draft valid =>
    refine moves_of_one (M := ShowMove) (fun _ _ => .plays .stands) (f := f) ⟨?_, ?_⟩
      (.opened header segs dark draft valid) <;>
      simp [State.openFieldWith, State.setProgram, State.setTimebase]
  | startShow f opened =>
    exact PlayMoves.showMoves <| playMoves_of_one (f := f) ⟨by simp [State.setProgram], by simp [State.setTimebase]⟩ (.started opened)
  | pauseShow f state =>
    exact PlayMoves.showMoves <| playMoves_of_one (f := f) ⟨by simp [State.setProgram], by simp [State.setTimebase]⟩ (.paused state)
  | resumeShow f paused =>
    exact PlayMoves.showMoves <| playMoves_of_one (f := f) ⟨by simp [State.setProgram], by simp [State.setTimebase]⟩ (.resumed paused)
  | skipSegment f inShow =>
    unfold State.skipSegment
    dsimp only
    split
    · rename_i more
      exact PlayMoves.showMoves <| playMoves_of_program (f := f) (by simp [State.setProgram]) (by simp) (.skipped inShow more)
    · refine PlayMoves.showMoves <| playMoves_of_one (f := f) ⟨?_, ?_⟩ (.skippedOut inShow) <;>
        simp [State.endField, State.setProgram, State.setTimebase, put_put, State.program, State.timebase]
  | endShow f inShow =>
    refine PlayMoves.showMoves <| playMoves_of_one (f := f) ⟨?_, ?_⟩ (.ended inShow) <;>
      simp [State.endField, State.setProgram, State.setTimebase]
  | closeForced f state =>
    refine moves_of_one (M := ShowMove) (fun _ _ => .plays .stands) (f := f) ⟨?_, ?_⟩ (.darkened state) <;>
      simp [State.goDark, State.setProgram, State.setTimebase, State.program, State.timebase]
  | closeEmpty f state =>
    refine moves_of_one (M := ShowMove) (fun _ _ => .plays .stands) (f := f) ⟨?_, ?_⟩ (.darkened state) <;>
      simp [State.goDark, State.setProgram, State.setTimebase]
  | writeClosedRows f closed =>
    unfold State.writeClosedRows
    exact PlayMoves.showMoves <| playMoves_of_frame (by simp [State.ok]) (by simp [State.ok])
  | _ => exact PlayMoves.showMoves <| playMoves_of_frame (by simp) (by simp)

theorem Event.playMoves {t : State} (h : Event s t) : PlayMoves s t := by
  cases h with
  | framePulse f =>
    unfold State.takePulse
    dsimp only
    cases hstate : (s.timebase f).state with
    | stopped => exact playMoves_of_frame rfl rfl
    | free => exact playMoves_of_frame rfl rfl
    | seek =>
      dsimp only
      split <;> rename_i hreference
      · exact playMoves_of_one (handledPulse_show s f _ 1) (.referred hstate)
      · split
        · exact playMoves_of_frame rfl rfl
        · exact playMoves_of_one (handledPulse_show s f _ 1) (.measured hstate (by simpa using hreference))
    | track =>
      dsimp only
      split
      exacts [playMoves_of_frame rfl rfl, playMoves_of_one (measuredPulse_show s f 1) (.updated 1 (.inl hstate))]
    | locked =>
      dsimp only
      split
      exacts [playMoves_of_frame rfl rfl,
        playMoves_of_one (measuredPulse_show s f 1) (.updated 1 (.inr (.inl hstate)))]
    | holdover => exact playMoves_of_one (measuredPulse_show s f _) (.updated _ (.inr (.inr hstate)))
    | lost =>
      refine playMoves_of_one (pulse_show s (t := (s.setTimebase f (s.timebase f).recover).endStall f) ⟨?_, ?_⟩ 1)
        (.recovered hstate)
      · rw [endStall_programs]
        rfl
      · simp [State.setTimebase]
  | overdue f =>
    unfold State.overduePulse
    dsimp only
    split
    · rename_i hstate
      refine playMoves_of_timebase rfl rfl (.overdue ?_)
      cases he : (s.timebase f).state <;> simp [TimebaseState.tracks, he] at hstate ⊢
    · exact playMoves_of_frame rfl rfl
  | holdover f =>
    unfold State.expireHoldover
    dsimp only
    split
    · rename_i hstate
      rw [beq_iff_eq] at hstate
      split
      · exact playMoves_of_timebase rfl rfl (.missed hstate ‹_›)
      · refine playMoves_of_one (f := f) ⟨?_, ?_⟩ (.lost hstate ‹_›)
        · rw [stallField_programs]
          rfl
        · simp [State.setTimebase]
    · exact playMoves_of_frame rfl rfl
  | reference f =>
    unfold State.dropReference
    dsimp only
    split
    · rename_i hstate
      rw [Bool.and_eq_true, beq_iff_eq] at hstate
      exact playMoves_of_timebase rfl rfl (.dropped hstate.1)
    · exact playMoves_of_frame rfl rfl
  | strobe f => exact playMoves_of_timebase rfl rfl .strobed
  | fall f => exact playMoves_of_timebase rfl rfl .fell
  | carrierLoss f =>
    unfold State.loseCarrier
    dsimp only
    split
    · split <;> exact playMoves_of_program (f := f) rfl rfl (.carried false)
    · exact playMoves_of_frame rfl rfl
  | carrierRise f => exact playMoves_of_program rfl rfl (.carried true)
  | cycleTimebases =>
    intro f
    have hx : s.cycleTimebases.timebase f = (s.timebase f).cycle (s.program f).ns := by
      rw [State.cycleTimebases_eq]
      simp [State.timebase, look]
    have hp : s.cycleTimebases.program f = s.program f := by simp [State.program]
    rw [hx, hp]
    exact .cycled
  | _ => exact playMoves_of_frame (by simp) (by simp)

end
end Sys2Proof.Machine
end

section
/-! PROOF. Laws of the shows: part reset, and the laws that a field's program and timebase keep at each of their moves;
O34, O27, and what O56 says of the programs. -/

namespace Sys2Proof.Machine

/-! ### Part reset -/

/-- Part reset: the records of `State.reset`, but for the pins, the select line and the model's own counter and queue
(R186). -/
theorem State.partReset_eq (s : State) (select : SelectLine) :
    s.partReset select =
      { State.reset with
        lanes := Vector.ofFn fun l => (s.lane l).afterReset
        programs := Vector.ofFn fun f => (s.program f).afterReset
        port := { select := select }, freeCount := s.freeCount, pending := s.pending } := by
  have hlanes := State.forEach_table (fun v => { State.reset with lanes := v }) (fun l _ => (s.lane l).afterReset)
    (fun l acc => acc.setLane l (s.lane l).afterReset) (fun _ _ => rfl) State.reset.lanes
  have hprograms (lanes : Vector Lane 6) := State.forEach_table
    (fun v => { State.reset with lanes := lanes, programs := v }) (fun f _ => (s.program f).afterReset)
    (fun f acc => acc.setProgram f (s.program f).afterReset) (fun _ _ => rfl) State.reset.programs
  unfold State.partReset
  dsimp only at hlanes hprograms ⊢
  rw [hlanes, hprograms]

@[simp] theorem look_ofFn {α : Type} {n : Nat} (g : Fin n → α) (i : Fin n) : look (Vector.ofFn g) i = g i := by
  simp [look]

@[simp] theorem look_replicate {α : Type} {n : Nat} (x : α) (i : Fin n) : look (Vector.replicate n x) i = x := by
  simp [look]

/-! ### A law of each field's show through every step -/

/-- A law of a field's program and timebase that each move keeps, and that stands at the reset records, is kept by every
step. -/
theorem kept_of_showMove {Q : ProgramUnit → Timebase → Prop}
    (hmove : ∀ {p x p' x'}, ShowMove p x p' x' → Q p x → Q p' x') : Kept fun s => ∀ f, Q (s.program f) (s.timebase f) where
  outside _ _ _ _ _ h := h
  flagged _ _ h := h
  change hc h f := hmove (hc.showMoves f) (h f)
  event he h f := hmove (.plays (he.playMoves f)) (h f)

theorem everyStep_of_showMove {Q : ProgramUnit → Timebase → Prop}
    (hmove : ∀ {p x p' x'}, ShowMove p x p' x' → Q p x → Q p' x')
    (hreset : ∀ carrier, Q { carrier := carrier } {}) {s t : State} (he : step s = .next t)
    (h : ∀ f, Q (s.program f) (s.timebase f)) : ∀ f, Q (t.program f) (t.timebase f) := by
  refine (kept_of_showMove hmove).everyStep (fun _ h => h) (fun s select _ f => ?_) he h
  have hprogram : (s.partReset select).program f = (s.program f).afterReset := by
    rw [State.partReset_eq]
    simp [State.program]
  have htimebase : (s.partReset select).timebase f = {} := by
    rw [State.partReset_eq]
    simp [State.timebase, State.reset]
  rw [hprogram, htimebase]
  exact hreset _

/-! ### What the moves leave of a record -/

@[simp] theorem ProgramUnit.withCues_state (p : ProgramUnit) : p.withCues.state = p.state := rfl
@[simp] theorem ProgramUnit.withCues_record (p : ProgramUnit) : p.withCues.record = p.record := rfl
@[simp] theorem ProgramUnit.withCues_segment (p : ProgramUnit) : p.withCues.segment = p.segment := rfl
@[simp] theorem ProgramUnit.withCues_frame (p : ProgramUnit) : p.withCues.frame = p.frame := rfl
@[simp] theorem ProgramUnit.withCues_txen (p : ProgramUnit) : p.withCues.txen = p.txen := rfl
@[simp] theorem ProgramUnit.withCues_cues (p : ProgramUnit) : p.withCues.cues = p.withCues.cueLevels := rfl
@[simp] theorem ProgramUnit.ended_state (p : ProgramUnit) : p.ended.state = .ended := rfl
@[simp] theorem ProgramUnit.ended_record (p : ProgramUnit) : p.ended.record = p.record := rfl
@[simp] theorem ProgramUnit.ended_segment (p : ProgramUnit) : p.ended.segment = p.segment := rfl
@[simp] theorem ProgramUnit.ended_frame (p : ProgramUnit) : p.ended.frame = p.frame := rfl
@[simp] theorem ProgramUnit.ended_txen (p : ProgramUnit) : p.ended.txen = p.txen := rfl
@[simp] theorem ProgramUnit.ended_cues (p : ProgramUnit) : p.ended.cues = p.ended.cueLevels := rfl

/-- The cue levels depend on state, record and segment alone (R80). -/
theorem ProgramUnit.cueLevels_congr {p q : ProgramUnit} (hstate : q.state = p.state) (hrecord : q.record = p.record)
    (hsegment : q.segment = p.segment) : q.cueLevels = p.cueLevels := by
  simp [ProgramUnit.cueLevels, ProgramUnit.program?, ProgramUnit.current?, hstate, hrecord, hsegment]

/-- A show that is PAUSED drives the cue lines of its segment on (R80). -/
theorem ProgramUnit.cueLevels_of_inShow {p q : ProgramUnit} (hp : p.state.inShow = true) (hq : q.state.inShow = true)
    (hrecord : q.record = p.record) (hsegment : q.segment = p.segment) : q.cueLevels = p.cueLevels := by
  have levels (r : ProgramUnit) (hr : r.state.inShow = true) :
      r.cueLevels = ((r.record.segments[r.segment]?).map Segment.cues).getD 0 := by
    unfold ProgramUnit.cueLevels ProgramUnit.current?
    cases hs : r.state <;> simp [FieldState.inShow, hs] at hr ⊢
  rw [levels p hp, levels q hq, hrecord, hsegment]

theorem ProgramUnit.advanced_record (p : ProgramUnit) (k : Nat) : (p.advanced k).record = p.record := by
  unfold ProgramUnit.advanced
  dsimp only
  (repeat' split) <;> rfl

theorem ProgramUnit.advanced_of_not_running {p : ProgramUnit} (h : p.state ≠ .running) (k : Nat) : p.advanced k = p :=
  if_neg h

theorem Timebase.advanced_of_not_running {p : ProgramUnit} (h : p.state ≠ .running) (x : Timebase) (k : Nat) :
    x.advanced p k = x := if_neg fun hr => h hr.1

/-- Counting a reacquisition writes the reacquire count alone, within its range (R108). -/
theorem Timebase.reacquired_eq (x : Timebase) (k : Nat) :
    ∃ r, x.reacquired k = { x with reacquire := r } ∧ ∀ n, r = some n → n ≤ 65535 := by
  unfold Timebase.reacquired
  split
  · rename_i h
    exact ⟨none, by rw [← h], fun n hn => nomatch hn⟩
  · split
    · exact ⟨none, rfl, fun n hn => nomatch hn⟩
    · refine ⟨_, rfl, fun n hn => ?_⟩
      cases hn
      omega

/-- A pulse that a timebase takes leaves it in TRACK or LOCKED (R106). -/
theorem Timebase.update_state (x : Timebase) (ns k : Nat) :
    (x.update ns k).state = .track ∨ (x.update ns k).state = .locked := by
  unfold Timebase.update Timebase.judge
  dsimp only
  (repeat' split) <;> simp

/-! ### The show law (R67, R70, R80, R81) -/

namespace ShowOf
variable {p : ProgramUnit} {x : Timebase}

/-- A timebase that counts strobes belongs to a RUNNING field (R93). -/
theorem running (h : ShowOf p x) (hx : x.state.counts = true) : p.state = .running := by
  have ht := h.timebase
  unfold goesWith at ht
  split at ht <;> first | assumption | (rw [beq_iff_eq] at ht; rw [ht] at hx; cases hx)

/-- A timebase in LOST belongs to a field that its loss has paused (R77). -/
theorem stalled (h : ShowOf p x) (hx : x.state = .lost) : p.state = .paused .stall := by
  have ht := h.timebase
  unfold goesWith at ht
  split at ht <;> first | assumption | (rw [hx] at ht; cases ht)

/-- A program that is not DARK is LOADED and valid (R67, R71). -/
theorem loaded (h : ShowOf p x) (hlit : p.state ≠ .dark) :
    ∃ header segs, p.record = .loaded header segs ∧ validDraft header segs = true := by
  have hr := h.record
  unfold recordGoesWith at hr
  split at hr
  · rename_i header segs hrecord
    rw [Bool.and_eq_true] at hr
    exact ⟨header, segs, hrecord, hr.2⟩
  · exact absurd (beq_iff_eq.mp hr) hlit
  · exact absurd (beq_iff_eq.mp hr) hlit

end ShowOf

/-- Between two states that are not DARK the record goes on with the state (R67). -/
theorem recordGoesWith_of_lit {st st' : FieldState} {r : ProgramRecord} (h : recordGoesWith st r = true)
    (hst : st ≠ .dark) (hst' : st' ≠ .dark) : recordGoesWith st' r = true := by
  cases r <;> simp_all [recordGoesWith]

/-- The frame advance of a RUNNING field leaves it RUNNING with its timebase, or ENDED with the timebase FREE (R73, R74). -/
theorem showOf_advanced {p : ProgramUnit} {x : Timebase} (hp : p.state = .running)
    (hrecord : recordGoesWith p.state p.record = true) (htxen : p.txen = true) (hx : x.state.counts = true) (k : Nat) :
    ShowOf (p.advanced k) (x.advanced p k) := by
  unfold ProgramUnit.advanced Timebase.advanced
  by_cases ho : (p.advance k).ranOut = true
  · simp only [hp, ho, if_true, and_self]
    exact ⟨recordGoesWith_of_lit hrecord (by simp [hp]) (by simp), rfl, rfl, htxen⟩
  · simp only [hp, ho, if_true, Bool.false_eq_true, if_false]
    refine ⟨hp ▸ hrecord, ?_, rfl, htxen⟩
    cases hs : x.state <;> simp [TimebaseState.counts, hs, goesWith] at hx ⊢

theorem showOf_move {p p' : ProgramUnit} {x x' : Timebase} (hm : ShowMove p x p' x') (h : ShowOf p x) : ShowOf p' x' := by
  have txen_of_lit (hlit : p.state ≠ .dark) : p.txen = true := h.txen.trans (bne_iff_ne.mpr hlit)
  have timebase_stands (y : Timebase) (hy : y.state = x.state) : ShowOf p y :=
    ⟨h.record, hy ▸ h.timebase, h.cues, h.txen⟩
  have pulse (y : Timebase) (k : Nat) (hx : x.state.counts = true) (hy : y.state.counts = true) :
      ShowOf (p.advanced k) ((y.reacquired k).advanced p k) := by
    have hrun := h.running hx
    obtain ⟨r, e, -⟩ := y.reacquired_eq k
    exact showOf_advanced hrun h.record (txen_of_lit (by simp [hrun])) (by rw [e]; exact hy) k
  cases hm with
  | opened header segs dark draft valid => exact ⟨by simp [recordGoesWith, valid], rfl, rfl, rfl⟩
  | darkened => exact ⟨rfl, rfl, rfl, rfl⟩
  | plays hm =>
    cases hm with
    | stands => exact h
    | settings y => exact timebase_stands _ rfl
    | drafted header dark =>
      refine ⟨by simp [recordGoesWith, dark], h.timebase, ?_, h.txen⟩
      rw [h.cues]
      simp [ProgramUnit.cueLevels, dark]
    | appended header segs seg dark =>
      refine ⟨by simp [recordGoesWith, dark], h.timebase, ?_, h.txen⟩
      rw [h.cues]
      simp [ProgramUnit.cueLevels, dark]
    | started opened =>
      have hlit : p.state ≠ .dark := by simp [opened]
      exact ⟨recordGoesWith_of_lit h.record hlit (by simp), rfl, rfl, txen_of_lit hlit⟩
    | paused state =>
      have hlit : p.state ≠ .dark := by rcases state with hs | hs <;> simp [hs]
      refine ⟨recordGoesWith_of_lit h.record hlit (by simp), rfl, ?_, txen_of_lit hlit⟩
      refine h.cues.trans (ProgramUnit.cueLevels_of_inShow rfl ?_ rfl rfl)
      rcases state with hs | hs <;> simp [hs, FieldState.inShow]
    | resumed paused =>
      have hlit : p.state ≠ .dark := by simp [paused]
      refine ⟨recordGoesWith_of_lit h.record hlit (by simp), rfl, ?_, txen_of_lit hlit⟩
      exact h.cues.trans (ProgramUnit.cueLevels_of_inShow rfl (by simp [paused, FieldState.inShow]) rfl rfl)
    | skipped => exact ⟨h.record, h.timebase, rfl, h.txen⟩
    | skippedOut inShow =>
      have hlit : p.state ≠ .dark := by rintro e; simp [e, FieldState.inShow] at inShow
      exact ⟨recordGoesWith_of_lit h.record hlit (by simp), rfl, rfl, txen_of_lit hlit⟩
    | ended inShow =>
      have hlit : p.state ≠ .dark := by rintro e; simp [e, FieldState.inShow] at inShow
      exact ⟨recordGoesWith_of_lit h.record hlit (by simp), rfl, rfl, txen_of_lit hlit⟩
    | referred seek => exact pulse _ 1 (by rw [seek]; rfl) (by simp [Timebase.refer, seek, TimebaseState.counts])
    | measured seek => exact pulse _ 1 (by rw [seek]; rfl) rfl
    | updated k tracks =>
      refine pulse _ k ?_ ?_
      · rcases tracks with hs | hs | hs <;> rw [hs] <;> rfl
      · rcases x.update_state p.ns k with hs | hs <;> rw [hs] <;> rfl
    | recovered lost =>
      have hstall := h.stalled lost
      have e : p.restarted = { p with state := .running } := if_pos hstall
      rw [e]
      have hlit : p.state ≠ .dark := by simp [hstall]
      exact showOf_advanced (p := { p with state := .running }) (x := x.recover) rfl
        (recordGoesWith_of_lit (st' := .running) h.record hlit (by simp)) (txen_of_lit hlit) rfl 1
    | overdue tracks =>
      have hrun := h.running (by rcases tracks with hs | hs <;> rw [hs] <;> rfl)
      exact ⟨h.record, by simp [goesWith, hrun], h.cues, h.txen⟩
    | missed => exact timebase_stands _ rfl
    | lost holdover =>
      have hrun := h.running (by rw [holdover]; rfl)
      have e : p.stalled = { p with state := .paused .stall } := if_pos hrun
      rw [e]
      refine ⟨recordGoesWith_of_lit h.record (by simp [hrun]) (by simp), rfl, ?_, ?_⟩
      · exact h.cues.trans (ProgramUnit.cueLevels_of_inShow rfl (by simp [hrun, FieldState.inShow]) rfl rfl)
      · exact txen_of_lit (by simp [hrun])
    | dropped => exact timebase_stands _ rfl
    | strobed =>
      refine timebase_stands _ ?_
      unfold Timebase.runToStrobe Timebase.strobe Timebase.elapse
      dsimp only
      (repeat' split) <;> rfl
    | fell =>
      refine timebase_stands _ ?_
      unfold Timebase.runToFall
      split <;> rfl
    | carried level => exact ⟨h.record, h.timebase, h.cues, h.txen⟩
    | cycled =>
      refine timebase_stands _ ?_
      unfold Timebase.cycle Timebase.strobe Timebase.elapse Timebase.fall
      dsimp only
      (repeat' split) <;> rfl

theorem showOf_reset (carrier : Bool) : ShowOf { carrier := carrier } {} := ⟨rfl, rfl, rfl, rfl⟩

/-! ### Positions (R66, R70) -/

/-- Where an advance over the rest of a program comes to stand: inside one of its segments, or past the last of them
(R73). -/
theorem advanceFrom_position (segs : List Segment) (ix frame k : Nat) (entered : Bool) :
    let a := advanceFrom segs ix frame k entered
    (a.ranOut = true ∧ a.segment = ix + segs.length ∧ a.frame = 0) ∨
      (a.ranOut = false ∧ ∃ j seg, segs[j]? = some seg ∧ a.segment = ix + j ∧ a.frame < seg.length) := by
  induction segs generalizing ix frame k entered with
  | nil => exact .inl ⟨rfl, rfl, rfl⟩
  | cons seg rest ih =>
    unfold advanceFrom
    by_cases hk : k < seg.length - frame
    · rw [if_pos hk]
      exact .inr ⟨rfl, 0, seg, rfl, rfl, by dsimp only; omega⟩
    · rw [if_neg hk]
      obtain ⟨hout, hsegment, hframe⟩ | ⟨hout, j, seg', hseg, hsegment, hframe⟩ :=
        ih (ix + 1) 0 (k - (seg.length - frame)) (entered || !rest.isEmpty)
      · exact .inl ⟨hout, by rw [hsegment, List.length_cons]; omega, hframe⟩
      · exact .inr ⟨hout, j + 1, seg', hseg, by rw [hsegment]; omega, hframe⟩

/-- An advance of a program whose position lies within it stays within it, or runs it out (R73). -/
theorem ProgramUnit.advance_position (p : ProgramUnit) (k : Nat) (hp : p.segment ≤ p.record.segments.length) :
    ((p.advance k).ranOut = true ∧ (p.advance k).segment = p.record.segments.length ∧ (p.advance k).frame = 0) ∨
      ((p.advance k).ranOut = false ∧ ∃ seg, p.record.segments[(p.advance k).segment]? = some seg ∧
        (p.advance k).frame < seg.length) := by
  obtain ⟨hout, hsegment, hframe⟩ | ⟨hout, j, seg, hseg, hsegment, hframe⟩ :=
    advanceFrom_position (p.record.segments.drop p.segment) p.segment p.frame k false
  · refine .inl ⟨hout, ?_, hframe⟩
    rw [ProgramUnit.advance, hsegment, List.length_drop]
    omega
  · refine .inr ⟨hout, seg, ?_, hframe⟩
    rw [ProgramUnit.advance, hsegment, ← List.getElem?_drop]
    exact hseg

theorem ProgramUnit.Inside.segment_lt {p : ProgramUnit} (h : p.Inside) : p.segment < p.record.segments.length := by
  obtain ⟨seg, hseg, -⟩ := h
  exact (List.getElem?_eq_some_iff.mp hseg).1

/-- A segment that the program has can be entered at its frame 0, since no segment is empty (R66). -/
theorem ProgramRecord.Ranges.inside {p : ProgramUnit} (h : p.record.Ranges) (hlt : p.segment < p.record.segments.length)
    (hframe : p.frame = 0) : p.Inside := by
  refine ⟨_, List.getElem?_eq_getElem hlt, ?_⟩
  rw [hframe]
  exact (h.lengths _ (List.getElem_mem hlt)).1

/-- A valid draft has a segment (R71). -/
theorem length_pos_of_validDraft {header : Header} {segs : List Segment} (h : validDraft header segs = true) :
    0 < segs.length := by
  simp only [validDraft, Bool.and_eq_true, Bool.not_eq_true', List.isEmpty_eq_false_iff] at h
  exact List.length_pos_iff.mpr h.1.1

theorem position_advanced {p : ProgramUnit} (hrun : p.state = .running) (hranges : p.record.Ranges) (hin : p.Inside)
    (k : Nat) : (p.advanced k).Position := by
  have hranges' : (p.advanced k).record.Ranges := by rwa [p.advanced_record]
  have hwhere := p.advance_position k (Nat.le_of_lt hin.segment_lt)
  unfold ProgramUnit.advanced at hranges' ⊢
  rw [if_pos hrun] at hranges' ⊢
  dsimp only at hranges' ⊢
  obtain ⟨hout, hsegment, hframe⟩ | ⟨hout, seg, hseg, hframe⟩ := hwhere
  · rw [if_pos hout] at hranges' ⊢
    exact ⟨hranges', by simp, by simp, fun _ => .inr ⟨hsegment, hframe⟩⟩
  · rw [if_neg (by simp [hout])] at hranges' ⊢
    exact ⟨hranges', by simp [hrun], fun _ => ⟨seg, hseg, hframe⟩, by simp [hrun]⟩

/-- The position stands where it stood, in a state that calls for no other place. -/
theorem position_of_show {p q : ProgramUnit} (h : p.Position) (hp : p.state.inShow = true) (hrecord : q.record = p.record)
    (hsegment : q.segment = p.segment) (hframe : q.frame = p.frame) (hq : q.state.inShow = true ∨ q.state = .ended) :
    q.Position := by
  have hin : q.Inside := by
    have hp' : p.Inside := by
      refine h.inShow ?_
      cases hs : p.state <;> simp [FieldState.inShow, hs] at hp ⊢
    unfold ProgramUnit.Inside at hp' ⊢
    rwa [hrecord, hsegment, hframe]
  refine ⟨hrecord ▸ h.record, fun hs => ?_, fun _ => hin, fun _ => .inl hin⟩
  rcases hs with hs | hs <;> simp [hs, FieldState.inShow] at hq

theorem position_move {p p' : ProgramUnit} {x x' : Timebase} (hm : ShowMove p x p' x') (hshow : ShowOf p x)
    (h : p.Position) : p'.Position := by
  have pulse (k : Nat) (hx : x.state.counts = true) : (p.advanced k).Position :=
    have hrun := hshow.running hx
    position_advanced hrun h.record (h.inShow (.inl hrun)) k
  cases hm with
  | opened header segs dark draft valid =>
    have hr := h.record
    rw [draft] at hr
    exact ⟨⟨hr.cutoffSegment, hr.cutoffFrames, hr.lead, hr.lengths, hr.titles⟩, fun _ => ⟨rfl, rfl⟩, by simp, by simp⟩
  | darkened =>
    exact ⟨⟨by simp [ProgramRecord.header?], by simp [ProgramRecord.header?], by simp [ProgramRecord.header?],
      by simp [ProgramRecord.segments], by simp [ProgramRecord.segments]⟩, fun _ => ⟨rfl, rfl⟩, by simp, by simp⟩
  | plays hm =>
    cases hm with
    | drafted header dark cutoffSegment cutoffFrames lead =>
      refine ⟨⟨?_, ?_, ?_, by simp [ProgramRecord.segments], by simp [ProgramRecord.segments]⟩, fun _ => h.start (.inl dark),
        by simp [dark], by simp [dark]⟩ <;> rintro header' ⟨⟩
      exacts [cutoffSegment, cutoffFrames, lead]
    | appended header segs seg dark draft room length title =>
      have hr := h.record
      rw [draft] at hr
      refine ⟨⟨hr.cutoffSegment, hr.cutoffFrames, hr.lead, fun y hy => ?_, fun y hy => ?_⟩, fun _ => h.start (.inl dark),
        by simp [dark], by simp [dark]⟩ <;> obtain hy | hy := List.mem_append.mp hy
      · exact hr.lengths y hy
      · exact List.mem_singleton.mp hy ▸ length
      · exact hr.titles y hy
      · exact List.mem_singleton.mp hy ▸ title
    | started opened =>
      obtain ⟨header, segs, hrecord, valid⟩ := hshow.loaded (by simp [opened])
      refine ⟨h.record, by simp, fun _ => ?_, by simp⟩
      refine ProgramRecord.Ranges.inside h.record ?_ rfl
      simpa [hrecord, ProgramRecord.segments] using length_pos_of_validDraft valid
    | paused state =>
      refine position_of_show h ?_ rfl rfl rfl (.inl rfl)
      rcases state with hs | hs <;> rw [hs] <;> rfl
    | resumed paused => exact position_of_show h (by rw [paused]; rfl) rfl rfl rfl (.inl rfl)
    | skipped inShow more =>
      have hin : ProgramUnit.Inside { p with segment := p.segment + 1, frame := 0 }.withCues :=
        ProgramRecord.Ranges.inside h.record more rfl
      refine ⟨h.record, fun hs => ?_, fun _ => hin, fun _ => .inl hin⟩
      rcases hs with hs | hs <;> simp only [ProgramUnit.withCues_state] at hs <;> simp [hs, FieldState.inShow] at inShow
    | skippedOut => exact ⟨h.record, by simp, by simp, fun _ => .inr ⟨rfl, rfl⟩⟩
    | ended inShow => exact position_of_show h inShow rfl rfl rfl (.inr rfl)
    | referred seek => exact pulse 1 (by rw [seek]; rfl)
    | measured seek => exact pulse 1 (by rw [seek]; rfl)
    | updated k tracks => exact pulse k (by rcases tracks with hs | hs | hs <;> rw [hs] <;> rfl)
    | recovered lost =>
      have hstall := hshow.stalled lost
      have e : p.restarted = { p with state := .running } := if_pos hstall
      rw [e]
      exact position_advanced (p := { p with state := .running }) rfl h.record (h.inShow (.inr ⟨_, hstall⟩)) 1
    | lost holdover =>
      have hrun := hshow.running (by rw [holdover]; rfl)
      have e : p.stalled = { p with state := .paused .stall } := if_pos hrun
      rw [e]
      exact position_of_show h (by rw [hrun]; rfl) rfl rfl rfl (.inl rfl)
    | carried level => exact ⟨h.record, h.start, h.inShow, h.ended⟩
    | _ => exact h

theorem position_reset (carrier : Bool) : ProgramUnit.Position { carrier := carrier } :=
  ⟨⟨by simp [ProgramRecord.header?], by simp [ProgramRecord.header?], by simp [ProgramRecord.header?],
    by simp [ProgramRecord.segments], by simp [ProgramRecord.segments]⟩, fun _ => ⟨rfl, rfl⟩, by simp, by simp⟩

/-- Settles O34: every move of a field's show keeps its show law, and under it the place of its position. -/
theorem showStatesAreKept : Obligations.ShowStatesAreKept := by
  intro s t hshow he
  refine ⟨everyStep_of_showMove showOf_move showOf_reset he hshow, fun hposition => ?_⟩
  have both := everyStep_of_showMove (Q := fun p x => ShowOf p x ∧ p.Position)
    (fun hm h => ⟨showOf_move hm h.1, position_move hm h.1 h.2⟩)
    (fun carrier => ⟨showOf_reset carrier, position_reset carrier⟩) he fun f => ⟨hshow f, hposition f⟩
  exact fun f => (both f).2

end Sys2Proof.Machine
end

section
/-! PROOF. The ranges of the timebases, O27, and the capacities, O56. -/

namespace Sys2Proof.Machine

/-! ### Ranges of every timebase (R90) -/

theorem clampInt_bounds {lo hi : Int} (h : lo ≤ hi) (x : Int) : lo ≤ clampInt lo hi x ∧ clampInt lo hi x ≤ hi := by
  unfold clampInt
  omega

theorem boundDivisor_bounds (d : Int) : 127744 ≤ boundDivisor d ∧ boundDivisor d ≤ 134400 := by
  have h := clampInt_bounds (lo := 127744) (hi := 134400) (by omega) d
  unfold boundDivisor
  omega

/-- The lock state and run that a pulse leaves are in their ranges (R106). -/
theorem Timebase.judge_bounds {x : Timebase} (h : x.Bounds) (slip : Int) :
    (x.judge slip).2 ≤ 8 ∧ ((x.judge slip).1 = .track → (x.judge slip).2 ≤ 7) := by
  have hrun := h.run
  have htrack := h.track
  unfold Timebase.judge
  split
  · split
    · split
      · exact ⟨by have := htrack ‹_›; dsimp only; omega, fun e => nomatch e⟩
      · exact ⟨by dsimp only; omega, fun _ => by dsimp only; omega⟩
    · exact ⟨Nat.zero_le 8, fun _ => Nat.zero_le 7⟩
  · split
    · exact ⟨hrun, fun e => nomatch e⟩
    · exact ⟨Nat.zero_le 8, fun _ => Nat.zero_le 7⟩
  · exact ⟨Nat.zero_le 8, fun _ => Nat.zero_le 7⟩

/-- A gap counter that has got to a limit of its timebase is within its own range (R90, R97). -/
theorem Timebase.expiry_bounds {x : Timebase} (h : x.Bounds) :
    x.overdueAt ≤ 4294967295 ∧ x.nextExpiryAt ≤ 4294967295 := by
  have hnominal := h.nominal
  have hproduct : x.missed * x.nominal ≤ 48 * 1280000 := Nat.mul_le_mul h.missed hnominal
  unfold Timebase.nextExpiryAt Timebase.overdueAt
  omega

theorem bounds_reacquired {x : Timebase} (h : x.Bounds) (k : Nat) : (x.reacquired k).Bounds := by
  obtain ⟨r, e, hr⟩ := x.reacquired_eq k
  rw [e]
  exact { h with reacquire := hr }

theorem bounds_freed {x : Timebase} (h : x.Bounds) : x.freed.Bounds :=
  { h with track := fun e => (nomatch e), reacquire := fun _ e => (nomatch e), missed := Nat.zero_le 48 }

theorem bounds_advanced {x : Timebase} (h : x.Bounds) (p : ProgramUnit) (k : Nat) : (x.advanced p k).Bounds := by
  unfold Timebase.advanced
  split
  exacts [bounds_freed h, h]

theorem bounds_elapse {x : Timebase} (h : x.Bounds) (cycles : Nat) : (x.elapse cycles).Bounds := by
  refine { h with gap := ?_ }
  have hgap := h.gap
  unfold Timebase.elapse
  dsimp only
  split <;> omega

theorem bounds_strobe {x : Timebase} (h : x.Bounds) (ns : Nat) : (x.strobe ns).Bounds := by
  unfold Timebase.strobe
  dsimp only
  split
  · split
    · exact { h with strobes := Nat.min_le_left _ _ }
    · exact { h with strobes := Nat.min_le_left _ _ }
  · exact { h with }

theorem bounds_fall {x : Timebase} (h : x.Bounds) : x.fall.Bounds := { h with }

theorem bounds_move {p p' : ProgramUnit} {x x' : Timebase} (hm : ShowMove p x p' x') (h : x.Bounds) : x'.Bounds := by
  have pulse (y : Timebase) (p : ProgramUnit) (k : Nat) (hy : y.Bounds) : ((y.reacquired k).advanced p k).Bounds :=
    bounds_advanced (bounds_reacquired hy k) p k
  have slip_zero : -32767 ≤ (0 : Int) ∧ (0 : Int) ≤ 32767 := by omega
  cases hm with
  | opened header segs dark draft valid =>
    simp only [validDraft, Bool.and_eq_true, decide_eq_true_eq] at valid
    refine { h with
      divisor := by simp [Timebase.opened], slip := slip_zero, run := Nat.zero_le 8, track := fun e => (nomatch e)
      reacquire := fun n e => (nomatch e), missed := Nat.zero_le 48, nominal := ?_ }
    simp only [Timebase.opened]
    omega
  | darkened =>
    exact { h with
      divisor := by simp [Timebase.stopped], slip := slip_zero, gap := Nat.zero_le _, strobes := Nat.zero_le _
      run := Nat.zero_le 8, track := fun e => (nomatch e), reacquire := fun n e => (nomatch e)
      missed := Nat.zero_le 48, nominal := Nat.zero_le _ }
  | plays hm =>
    cases hm with
    | settings y state window gain jump holdover reacquire =>
      exact { h with
        window := window, gain := gain, jump := jump, holdover := holdover, reacquireLimit := reacquire }
    | started =>
      exact { h with
        gap := Nat.zero_le _, strobes := Nat.zero_le _, run := Nat.zero_le 8, track := fun e => (nomatch e)
        missed := Nat.zero_le 48 }
    | resumed =>
      exact { h with
        gap := Nat.zero_le _, strobes := Nat.zero_le _, run := Nat.zero_le 8, track := fun e => (nomatch e)
        missed := Nat.zero_le 48 }
    | paused => exact bounds_freed h
    | skippedOut => exact bounds_freed h
    | ended => exact bounds_freed h
    | referred =>
      exact pulse _ p 1 { h with
        slip := slip_zero, gap := Nat.zero_le _, strobes := Nat.zero_le _, missed := Nat.zero_le 48 }
    | measured =>
      exact pulse _ p 1 { h with
        divisor := boundDivisor_bounds _, slip := slip_zero, gap := Nat.zero_le _, strobes := Nat.zero_le _
        run := Nat.zero_le 8, track := fun _ => Nat.zero_le 7, missed := Nat.zero_le 48 }
    | updated k =>
      have hjudge := Timebase.judge_bounds h (x.newSlip p.ns k)
      exact pulse _ p k { h with
        divisor := boundDivisor_bounds _, slip := clampInt_bounds (by omega) _, gap := Nat.zero_le _
        strobes := Nat.zero_le _, run := hjudge.1, track := hjudge.2, missed := Nat.zero_le 48 }
    | recovered =>
      refine bounds_advanced (x := x.recover) { h with
        slip := slip_zero, gap := Nat.zero_le _, strobes := Nat.zero_le _, run := Nat.zero_le 8
        track := fun e => (nomatch e), missed := Nat.zero_le 48, reacquire := fun n e => ?_ } _ 1
      cases e
      omega
    | overdue =>
      exact { h with
        gap := Nat.max_le.mpr ⟨h.gap, (Timebase.expiry_bounds h).1⟩, track := fun e => (nomatch e), missed := by simp }
    | missed holdover room =>
      have hlimit := h.holdover
      exact { h with
        gap := Nat.max_le.mpr ⟨h.gap, (Timebase.expiry_bounds h).2⟩
        missed := by simp only; omega }
    | lost =>
      exact { h with
        gap := Nat.max_le.mpr ⟨h.gap, (Timebase.expiry_bounds h).2⟩, track := fun e => (nomatch e) }
    | dropped => exact { h with gap := Nat.zero_le _, strobes := Nat.zero_le _ }
    | strobed =>
      unfold Timebase.runToStrobe
      split
      exacts [h, bounds_strobe (bounds_elapse h _) _]
    | fell =>
      unfold Timebase.runToFall
      split
      exacts [bounds_fall (bounds_elapse h _), h]
    | cycled =>
      unfold Timebase.cycle
      dsimp only
      split
      · exact h
      · split
        · exact bounds_strobe (bounds_elapse h 1) _
        · split
          · exact bounds_fall (bounds_elapse h 1)
          · exact bounds_elapse h 1
    | _ => exact h

theorem bounds_reset : Timebase.Bounds {} := by
  constructor <;> simp

/-! ### Ranges by state and program (R90, R91, R94) -/

theorem ProgramUnit.ns_congr {p q : ProgramUnit} (h : q.record = p.record) : q.ns = p.ns := by
  simp [ProgramUnit.ns, ProgramUnit.program?, h]

/-- A field that is DARK holds no program, and so no samples per frame (R67, R110). -/
theorem ShowOf.ns_dark {p : ProgramUnit} {x : Timebase} (h : ShowOf p x) (hdark : p.state = .dark) : p.ns = 0 := by
  have hr := h.record
  cases hrecord : p.record <;> simp [recordGoesWith, hrecord, hdark, ProgramUnit.ns, ProgramUnit.program?] at hr ⊢

/-- A DARK field has its timebase STOPPED, an OPEN one FREE (R93). -/
theorem ShowOf.quiet {p : ProgramUnit} {x : Timebase} (h : ShowOf p x) (hp : p.state = .dark ∨ p.state = .opened) :
    x.state ≠ .holdover ∧ x.state ≠ .lost := by
  have ht := h.timebase
  rcases hp with hs | hs <;> simp only [hs, goesWith, beq_iff_eq] at ht <;> simp [ht]

theorem ranges_congr {p q : ProgramUnit} {x : Timebase} (h : x.Ranges p) (hns : q.ns = p.ns) : x.Ranges q :=
  { h with nominal := hns ▸ h.nominal, marker := hns ▸ h.marker }

/-- The parts of a record's ranges that its lock state has no say in. -/
structure Timebase.Steady (p : ProgramUnit) (x : Timebase) : Prop where
  nominal : x.nominal = p.ns * 512
  period : x.nominal = 0 ∨ (768000 ≤ x.nominal ∧ x.nominal ≤ 1280000)
  marker : x.marker = 0 ∨ x.marker < p.ns
  accumulator : x.accumulator ≤ 134400 + 255
  high : x.wordClock = true → x.accumulator < 134400

theorem Timebase.Ranges.steady {p : ProgramUnit} {x : Timebase} (h : x.Ranges p) : x.Steady p :=
  ⟨h.nominal, h.period, h.marker, h.accumulator, h.high⟩

/-- A timebase that runs, and has missed no pulse, is in the ranges of its state once its reference is. -/
theorem Timebase.Steady.ranges {p : ProgramUnit} {x : Timebase} (h : x.Steady p) (hmissed : x.missed = 0)
    (hholdover : x.state ≠ .holdover) (hlost : x.state ≠ .lost) (hstopped : x.state ≠ .stopped)
    (hreference : x.state = .track ∨ x.state = .locked → x.reference = true) : x.Ranges p where
  nominal := h.nominal
  period := h.period
  marker := h.marker
  missed := by omega
  bridged _ _ := hmissed
  holdover e := absurd e hholdover
  lost e := absurd e hlost
  reference e := by
    rcases e with e | e | e
    exacts [hreference (.inl e), hreference (.inr e), absurd e hholdover]
  stopped e := absurd e hstopped
  accumulator := h.accumulator
  high := h.high

theorem ranges_freed {p : ProgramUnit} {x : Timebase} (h : x.Steady p) : x.freed.Ranges p :=
  Timebase.Steady.ranges ⟨h.nominal, h.period, h.marker, h.accumulator, h.high⟩ rfl (fun e => nomatch e)
    (fun e => nomatch e) (fun e => nomatch e) (fun e => by rcases e with e | e <;> nomatch e)

theorem ranges_advanced {p : ProgramUnit} {x : Timebase} (h : x.Ranges p) (q : ProgramUnit) (k : Nat) :
    (x.advanced q k).Ranges p := by
  unfold Timebase.advanced
  split
  exacts [ranges_freed h.steady, h]

theorem ranges_reacquired {p : ProgramUnit} {x : Timebase} (h : x.Ranges p) (hstopped : x.state ≠ .stopped) (k : Nat) :
    (x.reacquired k).Ranges p := by
  obtain ⟨r, e, -⟩ := x.reacquired_eq k
  rw [e]
  exact { h with stopped := fun e => absurd e hstopped }

/-- The accumulator after so many cycles, none of which it need have run past its target by a cycle (R91). -/
theorem Timebase.accumulator_at (x : Timebase) (target : Nat) :
    x.accumulator + 256 * max 1 (x.cyclesTo target) < max (target + 256) (x.accumulator + 257) := by
  unfold Timebase.cyclesTo
  omega

/-- A word strobe at an accumulator that has just got to D or beyond it (R91). -/
theorem ranges_strobe {p : ProgramUnit} {x : Timebase} (h : x.Ranges p) (hbounds : x.Bounds)
    (hstopped : x.state ≠ .stopped) {cycles : Nat}
    (hrun : x.accumulator + 256 * cycles < max (x.divisor + 256) (x.accumulator + 257)) :
    ((x.elapse cycles).strobe p.ns).Ranges p := by
  have hdivisor := hbounds.divisor
  have haccumulator := h.accumulator
  have hsteady : x.accumulator + 256 * cycles - x.divisor < 134400 := by omega
  have steady : ((x.elapse cycles).strobe p.ns).Steady p := by
    have hmarker := h.marker
    unfold Timebase.strobe Timebase.elapse
    dsimp only
    split
    · split
      · exact ⟨h.nominal, h.period, .inl rfl, by dsimp only; omega, fun _ => hsteady⟩
      · exact ⟨h.nominal, h.period, .inr (by dsimp only; omega), by dsimp only; omega, fun _ => hsteady⟩
    · exact ⟨h.nominal, h.period, hmarker, by dsimp only; omega, fun _ => hsteady⟩
  have same : ((x.elapse cycles).strobe p.ns).state = x.state ∧ ((x.elapse cycles).strobe p.ns).missed = x.missed ∧
      ((x.elapse cycles).strobe p.ns).settings = x.settings ∧
      ((x.elapse cycles).strobe p.ns).reference = x.reference := by
    unfold Timebase.strobe Timebase.elapse
    dsimp only
    (repeat' split) <;> exact ⟨rfl, rfl, rfl, rfl⟩
  obtain ⟨hstate, hmissed, hsettings, hreference⟩ := same
  refine ⟨steady.nominal, steady.period, steady.marker, ?_, ?_, ?_, ?_, ?_, ?_, steady.accumulator, steady.high⟩ <;>
    simp only [hstate, hmissed, hsettings, hreference]
  exacts [h.missed, h.bridged, h.holdover, h.lost, h.reference, fun e => absurd e hstopped]

/-- So many cycles at an accumulator that stays short of a strobe, with or without a fall of the word clock (R91). -/
theorem ranges_elapse {p : ProgramUnit} {x : Timebase} (h : x.Ranges p) (hstopped : x.state ≠ .stopped) {cycles : Nat}
    (hrun : x.accumulator + 256 * cycles ≤ 134400 + 255) :
    ((x.elapse cycles).fall).Ranges p ∧ (x.accumulator + 256 * cycles < 134400 → (x.elapse cycles).Ranges p) :=
  ⟨{ h with
      accumulator := hrun, high := fun e => (nomatch e), stopped := fun e => absurd e hstopped },
   fun hlt => { h with accumulator := hrun, high := fun _ => hlt, stopped := fun e => absurd e hstopped }⟩

theorem ranges_cycle {p : ProgramUnit} {x : Timebase} (h : x.Ranges p) (hbounds : x.Bounds) : (x.cycle p.ns).Ranges p := by
  have hdivisor := hbounds.divisor
  unfold Timebase.cycle
  dsimp only
  split
  · exact h
  · rename_i hstate
    have hstopped : x.state ≠ .stopped := by simpa using hstate
    have haccumulator : (x.elapse 1).accumulator = x.accumulator + 256 := rfl
    have hd : (x.elapse 1).divisor = x.divisor := rfl
    split
    · exact ranges_strobe h hbounds hstopped (by omega)
    · have hstay := ranges_elapse h hstopped (cycles := 1) (by omega)
      split
      exacts [hstay.1, hstay.2 (by omega)]

/-- The STOPPED record, where the field holds no program (R94). -/
theorem ranges_stopped {p : ProgramUnit} (hns : p.ns = 0) (y : LockSettings) : Timebase.Ranges p { settings := y } where
  nominal := by rw [hns]
  period := .inl rfl
  marker := .inl rfl
  missed := Nat.zero_le _
  bridged _ _ := rfl
  holdover e := nomatch e
  lost e := nomatch e
  reference e := by rcases e with e | e | e <;> nomatch e
  stopped _ := rfl
  accumulator := Nat.zero_le _
  high e := nomatch e

theorem ranges_move {p p' : ProgramUnit} {x x' : Timebase} (hm : ShowMove p x p' x') (hshow : ShowOf p x)
    (hbounds : x.Bounds) (h : x.Ranges p) : x'.Ranges p' := by
  have steady := h.steady
  have pulse (y : Timebase) (q : ProgramUnit) (k : Nat) (hq : q.ns = p.ns) (hy : y.Ranges p) (hrun : y.state ≠ .stopped) :
      ((y.reacquired k).advanced q k).Ranges (q.advanced k) :=
    ranges_congr (ranges_advanced (ranges_reacquired hy hrun k) q k)
      ((ProgramUnit.ns_congr (q.advanced_record k)).trans hq)
  cases hm with
  | opened header segs dark draft valid =>
    have hstopped : x = { settings := x.settings } := h.stopped (by simpa [goesWith, dark] using hshow.timebase)
    simp only [validDraft, Bool.and_eq_true, decide_eq_true_eq] at valid
    refine Timebase.Steady.ranges ⟨rfl, .inr (by simp only [Timebase.opened]; omega), .inl ?_, Nat.zero_le _, fun _ => ?_⟩
      rfl (fun e => nomatch e) (fun e => nomatch e) (fun e => nomatch e) (fun e => by rcases e with e | e <;> nomatch e)
    · rw [Timebase.opened, hstopped]
    · simp [Timebase.opened]
  | darkened => exact ranges_stopped rfl _
  | plays hm =>
    cases hm with
    | stands => exact h
    | settings y state =>
      obtain ⟨hholdover, hlost⟩ := hshow.quiet state
      have hmissed := h.bridged hholdover hlost
      exact { h with
        missed := by dsimp only; omega, lost := fun e => absurd e hlost
        stopped := fun e => by rw [h.stopped e] }
    | drafted header dark =>
      refine ranges_congr h ?_
      rw [hshow.ns_dark dark]
      rfl
    | appended header segs seg dark =>
      refine ranges_congr h ?_
      rw [hshow.ns_dark dark]
      rfl
    | started =>
      exact Timebase.Steady.ranges ⟨steady.nominal, steady.period, .inl rfl, steady.accumulator, steady.high⟩ rfl
        (fun e => nomatch e) (fun e => nomatch e) (fun e => nomatch e) (fun e => by rcases e with e | e <;> nomatch e)
    | paused => exact ranges_congr (ranges_freed steady) rfl
    | resumed =>
      exact Timebase.Steady.ranges ⟨steady.nominal, steady.period, .inl rfl, steady.accumulator, steady.high⟩ rfl
        (fun e => nomatch e) (fun e => nomatch e) (fun e => nomatch e) (fun e => by rcases e with e | e <;> nomatch e)
    | skipped => exact ranges_congr h rfl
    | skippedOut => exact ranges_congr (ranges_freed steady) rfl
    | ended => exact ranges_congr (ranges_freed steady) rfl
    | referred seek =>
      refine pulse x.refer p 1 rfl ?_ (by simp [Timebase.refer, seek])
      exact Timebase.Steady.ranges ⟨steady.nominal, steady.period, steady.marker, steady.accumulator, steady.high⟩ rfl
        (by simp [Timebase.refer, seek]) (by simp [Timebase.refer, seek]) (by simp [Timebase.refer, seek]) (fun _ => rfl)
    | measured seek reference =>
      refine pulse (x.measure p.ns) p 1 rfl ?_ (fun e => nomatch e)
      exact Timebase.Steady.ranges ⟨steady.nominal, steady.period, steady.marker, steady.accumulator, steady.high⟩ rfl
        (fun e => nomatch e) (fun e => nomatch e) (fun e => nomatch e) (fun _ => reference)
    | updated k tracks =>
      have hstate := x.update_state p.ns k
      have others (st : TimebaseState) (h1 : st ≠ .track) (h2 : st ≠ .locked) : (x.update p.ns k).state ≠ st := by
        rintro rfl
        exact hstate.elim h1 h2
      refine pulse (x.update p.ns k) p k rfl ?_ (others _ (by simp) (by simp))
      exact Timebase.Steady.ranges ⟨steady.nominal, steady.period, steady.marker, steady.accumulator, steady.high⟩ rfl
        (others _ (by simp) (by simp)) (others _ (by simp) (by simp)) (others _ (by simp) (by simp))
        (fun _ => h.reference tracks)
    | recovered lost =>
      have hns : p.restarted.ns = p.ns := by
        unfold ProgramUnit.restarted
        split <;> rfl
      refine ranges_congr (ranges_advanced (x := x.recover) (p := p) ?_ _ 1)
        ((ProgramUnit.ns_congr (p.restarted.advanced_record 1)).trans hns)
      exact Timebase.Steady.ranges ⟨steady.nominal, steady.period, .inl rfl, steady.accumulator, steady.high⟩ rfl
        (fun e => nomatch e) (fun e => nomatch e) (fun e => nomatch e) (fun _ => rfl)
    | overdue tracks =>
      exact { h with
        missed := hbounds.holdover.1, bridged := fun e => absurd rfl e, holdover := fun _ => le_rfl
        lost := fun e => (nomatch e), stopped := fun e => (nomatch e)
        reference := fun _ => h.reference (tracks.imp_right .inl) }
    | missed holdover room =>
      exact { h with
        missed := room, bridged := fun e => absurd holdover e, holdover := fun _ => Nat.succ_pos _
        lost := fun e => by simp [Timebase.gapAtLeast, holdover] at e
        stopped := fun e => by simp [Timebase.gapAtLeast, holdover] at e }
    | lost holdover full =>
      have hns : p.stalled.ns = p.ns := by
        unfold ProgramUnit.stalled
        split <;> rfl
      refine ranges_congr ?_ hns
      have hlimit := h.missed
      exact { h with
        bridged := fun _ e => absurd rfl e, holdover := fun e => (nomatch e), stopped := fun e => (nomatch e)
        lost := fun _ => by simp only [Timebase.gapAtLeast]; omega
        reference := fun e => by rcases e with e | e | e <;> nomatch e }
    | dropped seek =>
      exact Timebase.Steady.ranges ⟨steady.nominal, steady.period, steady.marker, steady.accumulator, steady.high⟩
        (h.bridged (by simp [seek]) (by simp [seek])) (by simp [seek]) (by simp [seek]) (by simp [seek]) (by simp [seek])
    | strobed =>
      unfold Timebase.runToStrobe
      split
      · exact h
      · rename_i hstate
        exact ranges_strobe h hbounds (by simpa using hstate) (x.accumulator_at x.divisor)
    | fell =>
      unfold Timebase.runToFall
      split
      · rename_i hstate
        simp only [Bool.and_eq_true, bne_iff_ne] at hstate
        have hhigh := h.high hstate.2
        have hdivisor := hbounds.divisor
        have hrun := x.accumulator_at (x.divisor / 2)
        exact (ranges_elapse h hstate.1 (by omega)).1
      · exact h
    | carried => exact ranges_congr h rfl
    | cycled => exact ranges_cycle h hbounds

theorem ranges_reset (carrier : Bool) : Timebase.Ranges { carrier := carrier } {} := ranges_stopped rfl _

/-- Settles O27: every move of a field's show keeps the bounds of its timebase, and with the show law its ranges. -/
theorem timebaseRangesAreKept : Obligations.TimebaseRangesAreKept := by
  intro s t hbounds he
  refine ⟨everyStep_of_showMove bounds_move (fun _ => bounds_reset) he hbounds, fun hshow hranges => ?_⟩
  have all := everyStep_of_showMove (Q := fun p x => ShowOf p x ∧ x.Bounds ∧ x.Ranges p)
    (fun hm h => ⟨showOf_move hm h.1, bounds_move hm h.2.1, ranges_move hm h.1 h.2.1 h.2.2⟩)
    (fun carrier => ⟨showOf_reset carrier, bounds_reset, ranges_reset carrier⟩) he
    fun f => ⟨hshow f, hbounds f, hranges f⟩
  exact fun f => (all f).2.2

/-! ### Capacities (O56) -/

theorem segments_move {p p' : ProgramUnit} {x x' : Timebase} (hm : ShowMove p x p' x')
    (h : p.record.segments.length ≤ 24) : p'.record.segments.length ≤ 24 := by
  have advanced (q : ProgramUnit) (k : Nat) (hq : q.record = p.record) : (q.advanced k).record.segments.length ≤ 24 := by
    rwa [q.advanced_record, hq]
  cases hm with
  | opened header segs dark draft => rwa [draft] at h
  | darkened => exact Nat.zero_le 24
  | plays hm =>
    cases hm with
    | drafted => exact Nat.zero_le 24
    | appended header segs seg dark draft room =>
      rw [ProgramRecord.segments, List.length_append]
      exact room
    | referred => exact advanced p 1 rfl
    | measured => exact advanced p 1 rfl
    | updated k => exact advanced p k rfl
    | recovered => exact advanced _ 1 (by unfold ProgramUnit.restarted; split <;> rfl)
    | lost =>
      unfold ProgramUnit.stalled
      split <;> exact h
    | _ => exact h

/-- The admission serial counter and the placement counter each stand, or move on by one within their limit (R23, R135). -/
def Counted (s t : State) : Prop :=
  (t.serialCounter = s.serialCounter ∨ t.serialCounter = s.nextSerial) ∧
    (t.placement = s.placement ∨ t.placement = s.nextPlacement)

variable {s t : State}

theorem Change.counted (h : Change s t) : Counted s t := by
  cases h with
  | admission => exact ⟨.inr rfl, .inl rfl⟩
  | placeOrder => exact ⟨.inl (by simp), .inr (by simp [State.parkOrder])⟩
  | writeClosedRows f closed =>
    unfold State.writeClosedRows
    exact ⟨.inl (by simp [State.ok]), .inl (by simp [State.ok])⟩
  | _ => exact ⟨.inl (by simp), .inl (by simp)⟩

theorem Event.counted (h : Event s t) : Counted s t := by
  cases h <;> exact ⟨.inl (by simp), .inl (by simp)⟩

theorem Counted.capacity (h : Counted s t) (hs : s.serialCounter ≤ 65535 ∧ s.placement ≤ 4294967295) :
    t.serialCounter ≤ 65535 ∧ t.placement ≤ 4294967295 := by
  obtain ⟨hserial, hplacement⟩ := h
  unfold State.nextSerial at hserial
  unfold State.nextPlacement at hplacement
  omega

theorem kept_counters : Kept fun s => s.serialCounter ≤ 65535 ∧ s.placement ≤ 4294967295 where
  outside _ _ _ _ _ h := h
  flagged _ _ h := h
  change hc h := hc.counted.capacity h
  event he h := he.counted.capacity h

theorem bookCapacity_dayClosed (s : State) (h : BookCapacity s) : BookCapacity s.dayClosed :=
  { h with tallies := fun k => by simp [State.tally, State.dayClosed] }

theorem bookCapacity_partReset (s : State) (select : SelectLine) : BookCapacity (s.partReset select) := by
  rw [State.partReset_eq]
  constructor <;> intros <;>
    simp [State.reset, State.backlog, State.station, State.listOf, State.car, State.entry, State.trip, State.tally]

/-- Settles O56: the bounds of the order book, the programs and the counters, each kept by its own part of a step. -/
theorem capacitiesAreKept : Obligations.CapacitiesAreKept := by
  intro s t h he
  obtain ⟨hbook, hsegments, hserial, hplacement⟩ := (capacityLaw_iff s).mp h
  refine (capacityLaw_iff t).mpr
    ⟨bookLaw_bookCapacity.kept.everyStep bookCapacity_dayClosed (fun s select _ => bookCapacity_partReset s select) he hbook, ?_⟩
  obtain ⟨hserial', hplacement'⟩ := kept_counters.everyStep (fun s h => ⟨Nat.zero_le _, h.2⟩)
    (fun s select _ => by rw [State.partReset_eq]; exact ⟨Nat.zero_le _, Nat.zero_le _⟩) he ⟨hserial, hplacement⟩
  exact ⟨everyStep_of_showMove (Q := fun p _ => p.record.segments.length ≤ 24) segments_move
    (fun _ => Nat.zero_le 24) he hsegments, hserial', hplacement'⟩

end Sys2Proof.Machine
end

section
/-! PROOF. HOLD: an evaluation establishes what backlogs and thresholds call for, and every change of a backlog is followed
by one; O55. -/

namespace Sys2Proof.Machine

variable {s t : State}

/-- Every station's xon is below its xoff (R147). -/
def State.Graded (s : State) : Prop := ∀ n, (s.station n).xon < (s.station n).xoff

theorem holdLaw_congr (hstations : t.stations = s.stations) (hhold : t.hold = s.hold) (h : HoldLaw s) : HoldLaw t := by
  have hstation (n : StationNo) : t.station n = s.station n := congrArg (look · n) hstations
  obtain ⟨hthresholds, hon, hoff⟩ := h
  refine ⟨fun n => ?_, fun n => ?_, ?_⟩ <;> simp only [State.backlog, hstation, hhold]
  exacts [hthresholds n, hon n, hoff]

/-- An evaluation makes HOLD what backlogs and thresholds call for (R148). -/
theorem holdLaw_evaluateHold (h : s.Graded) : HoldLaw s.evaluateHold := by
  rw [State.evaluateHold_eq]
  refine ⟨h, fun n hn => ?_, fun hslack => ?_⟩
  · exact if_pos ⟨n, hn⟩
  · have hslack' : ∀ n, (s.station n).queue.length ≤ (s.station n).xon := hslack
    have hnot : ¬ ∃ n, (s.station n).xoff ≤ (s.station n).queue.length := by
      rintro ⟨n, hn⟩
      exact absurd (hn.trans (hslack' n)) (not_le.mpr (h n))
    show (if _ then true else if _ then false else s.hold) = false
    rw [if_neg hnot, if_pos hslack']

theorem Graded.of_within (h : s.Graded) (hw : Within s t) : t.Graded := hw.thresholds h

theorem reportable_holdLaw : Reportable HoldLaw where
  stands h := holdLaw_congr h.stations h.hold
  marked _ _ := holdLaw_congr (by simp) (by simp)
  released _ _ _ _ _ hfits h := holdLaw_evaluateHold (Graded.of_within h.thresholds (within_release _ hfits))
  dispatched _ _ _ := holdLaw_congr (by simp) (by simp)

theorem holdLaw_evaluateHoldAndDue (h : s.Graded) : HoldLaw s.evaluateHoldAndDue := by
  unfold State.evaluateHoldAndDue
  dsimp only
  split
  · exact holdLaw_congr (by simp) (by simp) (holdLaw_evaluateHold h)
  · exact holdLaw_evaluateHold h

/-- What follows a fall in a backlog leaves HOLD evaluated, whatever it was (R148, R149). -/
theorem holdLaw_afterFall (h : s.Graded) : HoldLaw s.afterFall :=
  reportable_holdLaw.releasePass (holdLaw_evaluateHoldAndDue h)

theorem holdLaw_afterThresholds (h : s.Graded) : HoldLaw s.afterThresholds := by
  unfold State.afterThresholds
  dsimp only
  split
  · exact holdLaw_afterFall h
  · exact holdLaw_evaluateHoldAndDue h

/-- A test that picks out no queued line withdraws none (R143). -/
theorem State.withdrawLines_stations_of_not_anyLine {gone : OrderHandle × Nat → Bool} (h : s.anyLine gone = false) :
    (s.withdrawLines gone).stations = s.stations := by
  rw [State.withdrawLines_eq]
  refine table_ext fun n => ?_
  have hkeep : (s.station n).queue.filter (fun l => !gone l) = (s.station n).queue := by
    refine List.filter_eq_self.mpr fun l hl => ?_
    have hl' := (s.anyLine_iff gone).not.mp (by simp [h])
    simpa using fun hg => hl' ⟨n, l.1, l.2, hl, hg⟩
  rw [look_ofFn, hkeep]
  rfl

theorem holdLaw_retireOrder (o : OrderHandle) (h : HoldLaw s) : HoldLaw (s.retireOrder o) := by
  unfold State.retireOrder
  split
  · exact h
  · rename_i ord _
    dsimp only
    generalize hb : ({ s with parked := s.parked.erase o, readyList := s.readyList.erase o } : State) = b
    have hstations : b.stations = s.stations := by rw [← hb]
    have hhold : b.hold = s.hold := by rw [← hb]
    have hlaw : HoldLaw b := holdLaw_congr hstations hhold h
    have hwithdrawn := within_withdrawLines b fun l => l.1 == o
    split
    · refine holdLaw_afterFall (Graded.of_within hlaw.thresholds (hwithdrawn.trans (Within.trans ?_
        ((within_unlistOrder _ o ord.car).trans (within_setOrder _ o none)))))
      split
      exacts [Within.refl _, within_leaveTrip _ _ o]
    · rename_i hfell
      have hstays : (b.withdrawLines fun l => l.1 == o).stations = b.stations :=
        State.withdrawLines_stations_of_not_anyLine (by
          rw [← hb]
          exact Bool.eq_false_iff.mpr hfell)
      refine holdLaw_congr ?_ ?_ hlaw
      all_goals split <;> simp [hstays]

theorem holdLaw_settleCancel (o : OrderHandle) (ord : Order) (h : HoldLaw s) : HoldLaw (s.settleCancel o ord) :=
  holdLaw_retireOrder o (holdLaw_congr (by simp) (by simp) h)

theorem holdLaw_finishOrder (o : OrderHandle) (h : HoldLaw s) : HoldLaw (s.finishOrder o) := by
  unfold State.finishOrder
  split
  · exact h
  · split
    · exact holdLaw_settleCancel o _ h
    · exact holdLaw_congr (by simp) (by simp) h

theorem holdLaw_cancelPreparing (o : OrderHandle) (ord : Order) (h : HoldLaw s) : HoldLaw (s.cancelPreparing o ord) := by
  unfold State.cancelPreparing
  dsimp only
  split
  · refine holdLaw_afterFall ?_
    split
    · exact Graded.of_within h.thresholds ((within_withdrawLines s _).trans (within_setOrder _ o _))
    · exact Graded.of_within h.thresholds
        (((within_withdrawLines s _).trans (within_setOrder _ o _)).trans (within_finishOrder _ o))
  · rename_i hfell
    have hmarked (x : Option Order) : HoldLaw ((s.withdrawLines fun l =>
        l.1 == o && ord.lineState l.2 == some .waiting).setOrder o x) :=
      holdLaw_congr (State.withdrawLines_stations_of_not_anyLine (Bool.eq_false_iff.mpr hfell)) (by simp) h
    split
    · exact hmarked _
    · exact holdLaw_finishOrder o (hmarked _)

theorem holdLaw_cancelAtStage (o : OrderHandle) (ord : Order) (h : HoldLaw s) : HoldLaw (s.cancelAtStage o ord) := by
  unfold State.cancelAtStage
  split
  · exact holdLaw_retireOrder o (holdLaw_congr (by simp) (by simp) h)
  · exact holdLaw_retireOrder o (holdLaw_congr (by simp) (by simp) h)
  · exact holdLaw_cancelPreparing o ord h
  · exact holdLaw_retireOrder o (holdLaw_congr (by simp) (by simp) h)
  · exact holdLaw_congr (by simp) (by simp) h

theorem holdLaw_orderLosesCar (o : OrderHandle) (h : HoldLaw s) : HoldLaw (s.orderLosesCar o) := by
  unfold State.orderLosesCar
  split
  · exact h
  · dsimp only
    split
    · exact holdLaw_congr (by simp) (by simp) h
    · exact holdLaw_cancelAtStage o _ (holdLaw_congr (by simp) (by simp) h)

theorem bookLaw_holdLaw : BookLaw HoldLaw where
  toReportable := reportable_holdLaw
  told s h c _ hs := State.forEach_induct HoldLaw _ _ _ (fun o _ _ ht => holdLaw_orderLosesCar o ht)
    (holdLaw_congr (by simp) (by simp) hs)
  placed s h c o mode lines _ _ _ _ _ hs := by
    have hparked : HoldLaw (s.parkOrder o h c.field mode lines) := holdLaw_congr (by simp) (by simp) hs
    unfold State.placeDueCheck
    split
    · exact reportable_holdLaw.releasePass (holdLaw_congr (by simp) (by simp) hparked)
    · exact hparked
  cancelled _ o ord _ _ := holdLaw_cancelAtStage o ord
  handedOut _ _ _ _ _ _ _ _ _ := holdLaw_congr (by simp) (by simp)
  finished s o k ord _ _ h := by
    have hfinished := (within_setOrder s o (some (ord.withLine k .finished))).trans
      (within_withdrawLines _ fun l => l == (o, k))
    refine holdLaw_afterFall (Graded.of_within h.thresholds (hfinished.trans ?_))
    split
    exacts [Within.refl _, within_finishOrder _ o]
  thresholds s mask xoff xon prepLimit hbelow h := by
    refine holdLaw_afterThresholds fun n => ?_
    have hstation := h.thresholds n
    rw [State.setThresholds_eq]
    simp only [State.station, look_ofFn]
    split
    exacts [hbelow, hstation]
  settled _ o _ _ _ := holdLaw_retireOrder o
  recalled _ _ _ := holdLaw_congr (by simp) (by simp)
  late _ _ _ _ := holdLaw_congr (by simp) (by simp)
  closed _ _ _ := holdLaw_congr (by simp) (by simp)
  millisecond _ := holdLaw_congr (by simp) (by simp)

theorem holdLaw_partReset (s : State) (select : SelectLine) : HoldLaw (s.partReset select) := by
  rw [State.partReset_eq]
  constructor <;> simp [State.reset, State.station, State.backlog]

/-- Settles O55: every fall and rise of a backlog, and every change of a threshold, is followed by an evaluation of HOLD. -/
theorem holdIsKeptByTheBacklogs : Obligations.HoldIsKeptByTheBacklogs := by
  intro s t h he
  exact bookLaw_holdLaw.kept.everyStep (fun s h => holdLaw_congr (s := s) (t := s.dayClosed) rfl rfl h) (fun s select _ => holdLaw_partReset s select)
    he h

end Sys2Proof.Machine
end

section
/-! PROOF. What the order book leaves of the car entries: all but their order lists and touched flags. -/

namespace Sys2Proof.Machine

/-- Every live entry agrees with what it was in what `π` reads of it, and every VACANT one is VACANT. -/
def CarsKeep {α : Type} (π : Car → α) (s t : State) : Prop := ∀ h, (t.car h).map π = (s.car h).map π

namespace CarsKeep
variable {α β : Type} {π : Car → α} {s t u : State}

theorem refl (s : State) : CarsKeep π s s := fun _ => rfl

theorem trans (h : CarsKeep π s t) (h' : CarsKeep π t u) : CarsKeep π s u := fun x => (h' x).trans (h x)

/-- What can be read of less agrees too. -/
theorem weaken (h : CarsKeep π s t) (ρ : Car → β) {r : α → β} (hr : ∀ c, r (π c) = ρ c) : CarsKeep ρ s t := by
  intro x
  have e := congrArg (Option.map r) (h x)
  simpa [Function.comp_def, hr] using e

/-- A live entry of the later state was live, and agrees with what it was. -/
theorem before (hc : CarsKeep π s t) {h : CarHandle} {c : Car} (hcar : t.car h = some c) :
    ∃ c', s.car h = some c' ∧ π c' = π c := by
  have e := hc h
  rw [hcar, Option.map_some] at e
  exact Option.map_eq_some_iff.mp e.symm

theorem after (hc : CarsKeep π s t) {h : CarHandle} {c : Car} (hcar : s.car h = some c) :
    ∃ c', t.car h = some c' ∧ π c' = π c := by
  have e := hc h
  rw [hcar, Option.map_some] at e
  exact Option.map_eq_some_iff.mp e

theorem of_entries (h : t.entries = s.entries) : CarsKeep π s t := by
  intro x
  rw [State.car, State.entry, h]
  rfl

theorem setCar {h : CarHandle} {c : Option Car} (hc : c.map π = (s.car h).map π) : CarsKeep π s (s.setCar h c) := by
  intro x
  by_cases e : h = x
  · subst e
    rw [State.car_setCar_self, hc]
  · rw [State.car_setCar_ne _ _ e]

theorem modCar (s : State) (h : CarHandle) {g : Car → Car} (hg : ∀ c, π (g c) = π c) : CarsKeep π s (s.modCar h g) :=
  setCar (by rw [Option.map_map]; exact congrArg (Option.map · (s.car h)) (funext hg))

theorem touch (s : State) (h : CarHandle) : CarsKeep π s (s.touch h) := by
  intro x
  by_cases e : h = x
  · subst e
    simp [State.car, State.entry, State.touch, State.raise, State.setEntry]
  · simp [State.car, State.entry, State.touch, State.raise, State.setEntry, e]

theorem touchCar (s : State) (c : Option CarHandle) : CarsKeep π s (s.touchCar c) := by
  cases c with
  | none => exact refl s
  | some h => exact touch s h

end CarsKeep

/-- What a live entry holds beside its order list. -/
def Car.unlisted (c : Car) : Car := { c with orders := [] }

/-- What a live entry holds beside its order list and its set. -/
def Car.bare (c : Car) : Car := { c with orders := [], lent := none }

/-- Every live entry holds what it held, its order list apart, and every VACANT one is VACANT. -/
abbrev CarsStand (s t : State) : Prop := CarsKeep Car.unlisted s t

section
variable (s : State)

theorem carsStand_of_entries {t : State} (h : t.entries = s.entries) : CarsStand s t := CarsKeep.of_entries h
theorem carsStand_afterFall : CarsStand s s.afterFall := carsStand_of_entries s (by simp)
theorem carsStand_setOrder (o : OrderHandle) (x : Option Order) : CarsStand s (s.setOrder o x) :=
  carsStand_of_entries s (by simp)
theorem carsStand_withdrawLines (gone : OrderHandle × Nat → Bool) : CarsStand s (s.withdrawLines gone) :=
  carsStand_of_entries s (by simp)

theorem carsStand_unlistOrder (o : OrderHandle) (car : Option CarHandle) : CarsStand s (s.unlistOrder o car) := by
  cases car with
  | none => exact CarsKeep.refl s
  | some h => exact CarsKeep.modCar s h (g := fun c => { c with orders := c.orders.erase o }) fun _ => rfl

theorem carsStand_retireOrder (o : OrderHandle) : CarsStand s (s.retireOrder o) := by
  unfold State.retireOrder
  split
  · exact CarsKeep.refl s
  · rename_i ord _
    dsimp only
    have freed (t : State) (ht : t.entries = s.entries) : CarsStand s ((t.unlistOrder o ord.car).setOrder o none) :=
      (carsStand_of_entries s ht).trans ((carsStand_unlistOrder t o ord.car).trans (carsStand_setOrder _ o none))
    split
    · refine CarsKeep.trans (freed _ ?_) (carsStand_afterFall _)
      split <;> simp
    · refine freed _ ?_
      split <;> simp

theorem carsStand_settleCancel (o : OrderHandle) (ord : Order) : CarsStand s (s.settleCancel o ord) :=
  CarsKeep.trans (t := (((s.count (.kitchen .cancelled)).count (.kitchen .wasteLines) ord.waste).raiseOrder o
    .cancelSettled).touchCar ord.car)
    ((carsStand_of_entries s (by simp)).trans (CarsKeep.touchCar _ ord.car)) (carsStand_retireOrder _ o)

theorem carsStand_finishOrder (o : OrderHandle) : CarsStand s (s.finishOrder o) := by
  unfold State.finishOrder
  split
  · exact CarsKeep.refl s
  · split
    · exact carsStand_settleCancel s o _
    · exact carsStand_of_entries s (by simp)

theorem carsStand_cancelPreparing (o : OrderHandle) (ord : Order) : CarsStand s (s.cancelPreparing o ord) := by
  unfold State.cancelPreparing
  dsimp only
  split
  · refine CarsKeep.trans ?_ (carsStand_afterFall _)
    split
    · exact carsStand_of_entries s (by simp)
    · exact ((carsStand_withdrawLines s _).trans (carsStand_setOrder _ o _)).trans (carsStand_finishOrder _ o)
  · split
    · exact carsStand_of_entries s (by simp)
    · exact ((carsStand_withdrawLines s _).trans (carsStand_setOrder _ o _)).trans (carsStand_finishOrder _ o)

theorem carsStand_cancelAtStage (o : OrderHandle) (ord : Order) : CarsStand s (s.cancelAtStage o ord) := by
  have retired (t : State) (ht : t.entries = s.entries) : CarsStand s ((t.touchCar ord.car).retireOrder o) :=
    ((carsStand_of_entries s ht).trans (CarsKeep.touchCar _ ord.car)).trans (carsStand_retireOrder _ o)
  unfold State.cancelAtStage
  split
  · exact retired _ (by simp)
  · exact retired _ (by simp)
  · exact carsStand_cancelPreparing s o ord
  · exact retired _ (by simp)
  · exact carsStand_of_entries s (by simp)

theorem carsStand_finishLine (o : OrderHandle) (ord : Order) (k : Nat) : CarsStand s (s.finishLine o ord k) := by
  unfold State.finishLine
  dsimp only
  split
  · exact carsStand_of_entries s (by simp)
  · exact (((carsStand_setOrder s o _).trans (carsStand_withdrawLines _ _)).trans (carsStand_finishOrder _ o)).trans
      (carsStand_afterFall _)

theorem carsStand_reportOrder (o : OrderHandle) (ord : Order) (delivered : Bool) :
    CarsStand s (s.reportOrder o ord delivered) := by
  have counted : (s.countReport o ord delivered).entries = s.entries := by
    unfold State.countReport
    split <;> simp
  exact ((carsStand_of_entries s counted).trans (CarsKeep.touchCar _ ord.car)).trans (carsStand_retireOrder _ o)

theorem carsStand_placeOrder (o : OrderHandle) (h : CarHandle) (f : FieldNo) (mode : ReleaseMode)
    (lines : List OrderLine) : CarsStand s ((s.parkOrder o h f mode lines).placeDueCheck o f mode) := by
  refine CarsKeep.trans (CarsKeep.modCar s h (g := fun c => { c with orders := c.orders ++ [o] }) fun _ => rfl)
    (carsStand_of_entries _ ?_)
  simp [State.parkOrder, State.modCar, State.setCar, State.setEntry, State.entry, State.car]

end
end Sys2Proof.Machine
end

section
/-! PROOF. The laws of the set pool, O49: one lemma for a set slot that is written, and what each operation of the pool
makes of the laws by it. -/

namespace Sys2Proof.Machine

/-! ### The laws, slot by slot -/

/-- The set that a car's entry names (R114). -/
def State.lentOf (s : State) (h : CarHandle) : Option (SetHandle × SetMark) := (s.car h).bind Car.lent

/-- What one slot holds in its state (R112, R113). -/
structure SlotLaw (x : SetSlot) : Prop where
  docked : x.state.docks = true → x.bay ≠ none
  undocked : x.state.docks = false → x.state ≠ .faulty → x.bay = none
  withCar : x.car ≠ none ↔ x.state = .issuing ∨ x.state = .lent
  timed : x.timer ≠ none ↔ x.state = .issuing

/-- Bay map and slots agree (R113). -/
def BaysAgree (s : State) : Prop := ∀ b n, s.bay b = some n ↔ (s.slot n).bay = some b

variable {s t : State}

theorem SetLaw.slot (h : SetLaw s) (n : SetHandle) : SlotLaw (s.slot n) :=
  ⟨h.docked n, h.undocked n, h.withCar n, h.timed n⟩

theorem SetLaw.agree (h : SetLaw s) : BaysAgree s := h.bays

/-- The set that a car is served with names the car (R114). -/
theorem SetLaw.lent_iff (h : SetLaw s) (k : CarHandle) (n : SetHandle) (m : SetMark) :
    s.lentOf k = some (n, m) ↔ (s.slot n).car = some k ∧ (s.slot n).state = m.state := h.cars k n m

theorem SetMark.state_injective : Function.Injective SetMark.state := by
  intro m m' h
  cases m <;> cases m' <;> first | rfl | cases h

theorem setLaw_congr (hsets : t.sets = s.sets) (hbays : t.bays = s.bays) (hlent : ∀ h, t.lentOf h = s.lentOf h)
    (h : SetLaw s) : SetLaw t := by
  have hslot (n : SetHandle) : t.slot n = s.slot n := congrArg (look · n) hsets
  have hbay (b : BayNo) : t.bay b = s.bay b := congrArg (look · b) hbays
  have hissuing : t.issuingCount = s.issuingCount := by
    unfold State.issuingCount State.isIssuing
    simp only [hslot]
  refine ⟨fun b n => ?_, fun n => ?_, fun n => ?_, fun n => ?_, fun n => ?_, fun k n m => ?_, ?_, fun n m => ?_⟩ <;>
    simp only [hslot, hbay, hissuing]
  exacts [h.bays b n, h.docked n, h.undocked n, h.withCar n, h.timed n,
    (show t.lentOf k = some (n, m) ↔ _ by rw [hlent]; exact h.cars k n m), h.limit, h.serials n m]

theorem CarsKeep.lentOf (h : CarsStand s t) (k : CarHandle) : t.lentOf k = s.lentOf k := by
  have e := h.weaken (ρ := Car.lent) (r := Car.lent) (fun _ => rfl) k
  unfold State.lentOf
  cases ht : t.car k <;> cases hs : s.car k <;> simp [ht, hs] at e ⊢
  exact e

theorem setLaw_of_carsStand (hsets : t.sets = s.sets) (hbays : t.bays = s.bays) (hcars : CarsStand s t) (h : SetLaw s) :
    SetLaw t := setLaw_congr hsets hbays hcars.lentOf h

/-! ### One slot written -/

/-- A count over a table grows by one at most where one record changes, and not at all where the new record is not
counted unless the old one was. -/
theorem countOf_le {k : Nat} {p q : Fin k → Bool} {n : Fin k} (hother : ∀ m, m ≠ n → q m = p m) :
    countOf q ≤ countOf p + 1 ∧ ((q n = true → p n = true) → countOf q ≤ countOf p) := by
  unfold countOf
  refine ⟨?_, fun hn => List.countP_mono_left fun m _ hm => ?_⟩
  · have hsplit : (List.finRange k).countP q ≤ (List.finRange k).countP fun m => p m || m == n := by
      refine List.countP_mono_left fun m _ hm => ?_
      by_cases e : m = n
      · simp [e]
      · simp [← hother m e, hm]
    refine hsplit.trans ?_
    have hone : (List.finRange k).countP (· == n) = 1 := by
      rw [← List.count, List.count_eq_one_of_mem (List.nodup_finRange k) (List.mem_finRange n)]
    rw [← hone]
    induction List.finRange k with
    | nil => simp
    | cons m rest ih =>
      simp only [List.countP_cons]
      cases p m <;> cases m == n <;> simp <;> omega
  · by_cases e : m = n
    · subst e
      exact hn hm
    · rw [← hother m e, hm]

/-- One slot written: what the new record has to say for the laws to stand. -/
theorem SetLaw.put {n : SetHandle} {y : SetSlot} (h : SetLaw s) (hsets : t.sets = put s.sets n y) (hslot : SlotLaw y)
    (hagree : BaysAgree t)
    (hown : ∀ k m, t.lentOf k = some (n, m) ↔ y.car = some k ∧ y.state = m.state)
    (hothers : ∀ k j m, j ≠ n → (t.lentOf k = some (j, m) ↔ s.lentOf k = some (j, m)))
    (hlimit : y.state = .issuing → (s.slot n).state = .issuing ∨ s.issuingCount < 4)
    (hserial : y.enrolled = true → ∀ m, m ≠ n → (s.slot m).enrolled = true → (s.slot m).serial ≠ y.serial) :
    SetLaw t := by
  have hlook (m : SetHandle) : t.slot m = if n = m then y else s.slot m :=
    (congrArg (look · m) hsets).trans (look_put _ _ _ _)
  have slotLaw (m : SetHandle) : SlotLaw (t.slot m) := by
    rw [hlook]
    split
    exacts [hslot, h.slot m]
  refine ⟨hagree, fun m => (slotLaw m).docked, fun m => (slotLaw m).undocked, fun m => (slotLaw m).withCar,
    fun m => (slotLaw m).timed, fun k j m => ?_, ?_, fun j m hj hm he => ?_⟩
  · rw [hlook]
    split
    · rename_i e
      subst e
      exact hown k m
    · rename_i e
      exact (hothers k j m (Ne.symm e)).trans (h.lent_iff k j m)
  · have hother (m : SetHandle) (e : m ≠ n) : t.isIssuing m = s.isIssuing m := by
      simp only [State.isIssuing, hlook, if_neg (Ne.symm e)]
    have hn : t.isIssuing n = (y.state == .issuing) := by simp only [State.isIssuing, hlook, if_true]
    obtain ⟨hsucc, hsame⟩ := countOf_le (p := s.isIssuing) (q := t.isIssuing) hother
    have hcount := h.limit
    unfold State.issuingCount at hcount hlimit ⊢
    by_cases hy : y.state = .issuing
    · obtain hx | hx := hlimit hy
      · exact (hsame fun _ => by simp [State.isIssuing, hx]).trans hcount
      · omega
    · exact (hsame fun e => by simp [hn, hy] at e).trans hcount
  · simp only [hlook] at hj hm he
    split at hj <;> split at hm
    · rename_i e e'
      exact e.symm.trans e'
    · rename_i e e'
      rw [if_pos e, if_neg e'] at he
      exact absurd he.symm (hserial hj m (Ne.symm e') hm)
    · rename_i e e'
      rw [if_neg e, if_pos e'] at he
      exact absurd he (hserial hm j (Ne.symm e) hj)
    · rename_i e e'
      rw [if_neg e, if_neg e'] at he
      exact h.serials j m hj hm he

/-- The serial that an enrolled slot keeps is no other enrolled slot's (R112). -/
theorem SetLaw.serial_ne (h : SetLaw s) {n : SetHandle} (hn : (s.slot n).enrolled = true) (m : SetHandle) (hm : m ≠ n)
    (hm' : (s.slot m).enrolled = true) : (s.slot m).serial ≠ (s.slot n).serial :=
  fun e => hm (h.serials m n hm' hn e)

theorem SetSlot.enrolled_iff (x : SetSlot) : x.enrolled = true ↔ x.state ≠ .unenrolled := by simp [SetSlot.enrolled]

/-- One slot written with the car it had and the standing of a car's set that it had. -/
theorem SetLaw.restate {n : SetHandle} {y : SetSlot} (h : SetLaw s) (hsets : t.sets = Sys2Proof.put s.sets n y)
    (hslot : SlotLaw y) (hagree : BaysAgree t) (hlent : ∀ k, t.lentOf k = s.lentOf k) (hcar : y.car = (s.slot n).car)
    (hmark : ∀ m : SetMark, y.state = m.state ↔ (s.slot n).state = m.state)
    (hserial : y.enrolled = true → y.serial = (s.slot n).serial ∧ (s.slot n).enrolled = true) : SetLaw t := by
  refine h.put hsets hslot hagree (fun k m => ?_) (fun k j m _ => by rw [hlent]) (fun e => ?_) fun e => ?_
  · rw [hlent, h.lent_iff, hcar, hmark]
  · exact .inl ((hmark .issuing).mp e)
  · rw [(hserial e).1]
    exact h.serial_ne (hserial e).2

/-- One slot written whose car is served with it no more. -/
theorem SetLaw.release {n : SetHandle} {y : SetSlot} {c : CarHandle} (h : SetLaw s) (hx : (s.slot n).car = some c)
    (hsets : t.sets = Sys2Proof.put s.sets n y) (hslot : SlotLaw y) (hagree : BaysAgree t)
    (hlent : ∀ k, t.lentOf k = if c = k then none else s.lentOf k) (hcar : y.car = none)
    (hserial : y.serial = (s.slot n).serial) (hn : (s.slot n).state ≠ .unenrolled) : SetLaw t := by
  have hstate := (h.withCar n).mp (by simp [hx])
  obtain ⟨m, hm⟩ : ∃ m : SetMark, (s.slot n).state = m.state := hstate.elim (⟨.issuing, ·⟩) (⟨.lent, ·⟩)
  have hlentc := (h.lent_iff c n m).mpr ⟨hx, hm⟩
  refine h.put hsets hslot hagree (fun k m' => ?_) (fun k j m' hj => ?_) (fun e => ?_) fun _ => ?_
  · rw [hlent, hcar]
    split
    · simp
    · rename_i e
      rw [h.lent_iff, hx]
      simp [e]
  · rw [hlent]
    split
    · rename_i e
      subst e
      simp [hlentc, Ne.symm hj]
    · rfl
  · exact absurd hcar ((hslot.withCar).mpr (.inl e))
  · rw [hserial]
    exact h.serial_ne ((SetSlot.enrolled_iff _).mpr hn)

/-- One slot written whose car is now served with it (R119, R125). -/
theorem SetLaw.give {n : SetHandle} {y : SetSlot} {c : CarHandle} {m : SetMark} (h : SetLaw s)
    (hsets : t.sets = Sys2Proof.put s.sets n y) (hslot : SlotLaw y) (hagree : BaysAgree t)
    (hlent : ∀ k, t.lentOf k = if c = k then some (n, m) else s.lentOf k) (hcar : y.car = some c) (hm : y.state = m.state)
    (hbefore : (s.slot n).car = some c ∨ (s.slot n).car = none ∧ s.lentOf c = none)
    (hlimit : y.state = .issuing → (s.slot n).state = .issuing ∨ s.issuingCount < 4)
    (hserial : y.serial = (s.slot n).serial) (hn : (s.slot n).state ≠ .unenrolled) : SetLaw t := by
  have honly (k : CarHandle) (m' : SetMark) (hk : s.lentOf k = some (n, m')) : c = k := by
    have hkn := ((h.lent_iff k n m').mp hk).1
    rcases hbefore with e | ⟨e, -⟩ <;> rw [e] at hkn
    · exact Option.some.inj hkn
    · cases hkn
  refine h.put hsets hslot hagree (fun k m' => ?_) (fun k j m' hj => ?_) hlimit fun _ => ?_
  · rw [hlent, hcar, hm]
    split
    · rename_i e
      subst e
      simp [SetMark.state_injective.eq_iff]
    · rename_i e
      simp only [Option.some.injEq, e, false_and, iff_false]
      exact fun hk => e (honly k m' hk)
  · rw [hlent]
    split
    · rename_i e
      subst e
      simp only [Option.some.injEq, Prod.mk.injEq, Ne.symm hj, false_and, false_iff]
      intro hk
      rcases hbefore with e | ⟨-, e⟩
      · obtain hst | hst := (h.withCar n).mp (by simp [e])
        · have := (h.lent_iff c n .issuing).mpr ⟨e, hst⟩
          rw [hk] at this
          exact hj (by simpa using congrArg (Option.map Prod.fst) this)
        · have := (h.lent_iff c n .lent).mpr ⟨e, hst⟩
          rw [hk] at this
          exact hj (by simpa using congrArg (Option.map Prod.fst) this)
      · rw [e] at hk
        cases hk
    · rfl
  · rw [hserial]
    exact h.serial_ne ((SetSlot.enrolled_iff _).mpr hn)

/-! ### Bays -/

theorem baysAgree_of_slot {n : SetHandle} {y : SetSlot} (h : BaysAgree s) (hsets : t.sets = put s.sets n y)
    (hbays : t.bays = s.bays) (hbay : y.bay = (s.slot n).bay) : BaysAgree t := by
  intro b m
  have hslot : t.slot m = if n = m then y else s.slot m := (congrArg (look · m) hsets).trans (look_put _ _ _ _)
  have hb : t.bay b = s.bay b := congrArg (look · b) hbays
  rw [hslot, hb, h]
  split
  · rename_i e
    subst e
    rw [hbay]
  · rfl

theorem clearBay_slot (s : State) (n m : SetHandle) :
    (s.clearBay n).slot m = if n = m then { s.slot n with bay := none } else s.slot m := by
  unfold State.clearBay
  split
  · rename_i hbay
    split
    · rename_i e
      subst e
      rw [← hbay]
    · rfl
  · exact State.slot_setSlot _ _ _ _

theorem clearBay_sets (s : State) (n : SetHandle) :
    (s.clearBay n).sets = put s.sets n { s.slot n with bay := none } :=
  table_ext fun m => (clearBay_slot s n m).trans (look_put _ _ _ _).symm

theorem clearBay_bay (s : State) (n : SetHandle) (b : BayNo) :
    (s.clearBay n).bay b = if (s.slot n).bay = some b then none else s.bay b := by
  unfold State.clearBay
  split
  · rename_i hbay
    rw [if_neg (by simp [hbay])]
  · rename_i b' hbay
    rw [hbay]
    simp [State.bay_setBay]

theorem baysAgree_clearBay (h : BaysAgree s) (n : SetHandle) : BaysAgree (s.clearBay n) := by
  intro b m
  rw [clearBay_bay, clearBay_slot]
  by_cases e : n = m
  · subst e
    rw [if_pos rfl]
    by_cases hb : (s.slot n).bay = some b
    · simp [hb]
    · simp [hb, h b n]
  · rw [if_neg e]
    by_cases hb : (s.slot n).bay = some b
    · rw [if_pos hb]
      have hn := (h b n).mpr hb
      simp only [reduceCtorEq, false_iff]
      intro hm
      rw [← h b m, hn] at hm
      exact e (Option.some.inj hm)
    · rw [if_neg hb, h]

/-- A set takes an empty bay (R113). -/
theorem baysAgree_takeBay (h : BaysAgree s) {n : SetHandle} {b : BayNo} (hbay : s.bay b = none)
    (hslot : (s.slot n).bay = none) : BaysAgree (s.takeBay n b) := by
  intro b' m
  have hm : (s.takeBay n b).slot m = if n = m then { s.slot n with bay := some b } else s.slot m :=
    State.slot_setSlot _ _ _ _
  have hb : (s.takeBay n b).bay b' = if b = b' then some n else s.bay b' := State.bay_setBay _ _ _ _
  rw [hm, hb]
  by_cases e : b = b' <;> by_cases e' : n = m
  · simp [e, e']
  · subst e
    rw [if_pos rfl, if_neg e', ← h, hbay]
    simp [e']
  · subst e'
    rw [if_neg e, if_pos rfl, h, hslot]
    simp [e]
  · rw [if_neg e, if_neg e', h]

/-- A set found in a bay is lifted out of it (R113, R125). -/
theorem liftFrom_eq_clearBay (h : BaysAgree s) {n : SetHandle} {b : BayNo} (hbay : s.bay b = some n) :
    s.liftFrom b n = s.clearBay n := by
  unfold State.liftFrom State.clearBay
  rw [(h b n).mp hbay]

end Sys2Proof.Machine
end

section
/-! PROOF. The laws of the set pool through every change and event, O49. -/

namespace Sys2Proof.Machine

variable {s t : State}

/-! ### The sets that entries name -/

theorem lentOf_congr (h : t.entries = s.entries) (k : CarHandle) : t.lentOf k = s.lentOf k := by
  unfold State.lentOf State.car State.entry
  rw [h]

theorem lentOf_setCar (s : State) (h k : CarHandle) (c : Option Car) :
    (s.setCar h c).lentOf k = if h = k then c.bind Car.lent else s.lentOf k := by
  unfold State.lentOf
  rw [State.car_setCar]
  split <;> rfl

/-- A live entry rewritten with the set that it names. -/
theorem lentOf_setCar_same {h : CarHandle} {c c' : Car} (hcar : s.car h = some c) (hc : c'.lent = c.lent)
    (k : CarHandle) : (s.setCar h (some c')).lentOf k = s.lentOf k := by
  rw [lentOf_setCar]
  split
  · rename_i e
    subst e
    rw [State.lentOf, hcar]
    exact hc
  · rfl

theorem lentOf_setCarSet {c : CarHandle} {x : Option (SetHandle × SetMark)} (hx : x = none ∨ ∃ y, s.car c = some y)
    (k : CarHandle) : (s.setCarSet (some c) x).lentOf k = if c = k then x else s.lentOf k := by
  refine (lentOf_setCar s c k _).trans ?_
  rcases hx with rfl | ⟨y, hy⟩
  · cases s.car c <;> rfl
  · rw [hy]
    rfl

theorem lentOf_touchCar (s : State) (c : Option CarHandle) (k : CarHandle) : (s.touchCar c).lentOf k = s.lentOf k :=
  CarsKeep.lentOf (CarsKeep.touchCar s c) k

/-! ### Issues -/

/-- The state of a set by its charge is that of a set that stands in a bay (R120, R123). -/
theorem byCharge_docks (s : State) (level : Nat) :
    (s.byCharge level).docks = true ∧ s.byCharge level ≠ .issuing ∧ s.byCharge level ≠ .lent ∧
      s.byCharge level ≠ .unenrolled := by
  unfold State.byCharge
  split <;> simp [SetState.docks]

theorem cancelIssue_sets (s : State) (n : SetHandle) :
    (s.cancelIssue n).sets =
      put s.sets n { s.slot n with state := s.byCharge (s.slot n).charge, car := none, timer := none } := by
  simp [State.cancelIssue, State.setSlot]

theorem setLaw_cancelIssue (h : SetLaw s) {n : SetHandle} (hn : (s.slot n).state = .issuing) :
    SetLaw (s.cancelIssue n) := by
  obtain ⟨c, hc⟩ := Option.ne_none_iff_exists'.mp ((h.withCar n).mpr (.inl hn))
  obtain ⟨hdocks, hissuing, hlent, -⟩ := byCharge_docks s (s.slot n).charge
  refine h.release hc (cancelIssue_sets s n) ⟨fun _ => ?_, fun e => ?_, ?_, ?_⟩ ?_ (fun k => ?_) rfl rfl (by simp [hn])
  · exact h.docked n (by rw [hn]; rfl)
  · exact absurd (hdocks.symm.trans e) (by simp)
  · simp [hissuing, hlent]
  · simp [hissuing]
  · exact baysAgree_of_slot h.agree (cancelIssue_sets s n) (by simp) rfl
  · unfold State.cancelIssue
    dsimp only
    rw [hc]
    exact lentOf_setCarSet (s := s.setSlot n _) (.inl rfl) k

/-- An issue ends and its car is touched (R120). -/
theorem setLaw_endIssue (h : SetLaw s) {n : SetHandle} (hn : (s.slot n).state = .issuing) (c : Option CarHandle) :
    SetLaw ((s.cancelIssue n).touchCar c) :=
  setLaw_congr (by simp) (by simp) (lentOf_touchCar _ c) (setLaw_cancelIssue h hn)

theorem cancelIssue_slot_state (s : State) (n : SetHandle) (c : Option CarHandle) :
    (((s.cancelIssue n).touchCar c).slot n) =
      { s.slot n with state := s.byCharge (s.slot n).charge, car := none, timer := none } := by
  have hsets : ((s.cancelIssue n).touchCar c).sets = (s.cancelIssue n).sets := by simp
  exact (congrArg (look · n) (hsets.trans (cancelIssue_sets s n))).trans (look_put_self _ _ _)

/-- The READY set that LEND SET chooses (R119). -/
theorem chooseSet_ready {n : SetHandle} (h : s.chooseSet = some n) : (s.slot n).state = .ready := by
  have walk (ns : List SetHandle) (best : Option SetHandle) (hbest : ∀ b, best = some b → (s.slot b).state = .ready) :
      ∀ b, ns.foldl (fuller s) best = some b → (s.slot b).state = .ready := by
    induction ns generalizing best with
    | nil => exact hbest
    | cons m rest ih =>
      refine ih _ fun b hb => ?_
      unfold fuller at hb
      split at hb
      · exact hbest b hb
      · rename_i hm
        have hm' : (s.slot m).state = .ready := by simpa using hm
        (repeat' split at hb) <;> cases hb
        exacts [hm', hm', hbest _ rfl]
  exact walk _ none (fun b e => nomatch e) n h

theorem setLaw_issueSet (h : SetLaw s) {n : SetHandle} {k : CarHandle} {c : Car} (hcar : s.car k = some c)
    (hnone : c.lent = none) (hroom : s.issuingCount < 4) (hn : (s.slot n).state = .ready) :
    SetLaw (s.issueSet n k c) := by
  have hsets : (s.issueSet n k c).sets = put s.sets n
      { s.slot n with
        state := .issuing, car := some k, channel := (s.unit c.field).channel, timer := some (s.issueTime * 1000) } := by
    simp [State.issueSet, State.setSlot]
  have hfree : (s.slot n).car = none := by
    by_contra hne
    rcases (h.withCar n).mp hne with e | e <;> simp [hn] at e
  refine h.give (m := .issuing) hsets ⟨fun _ => h.docked n (by rw [hn]; rfl), fun e => (nomatch e), by simp, by simp⟩ ?_
    (fun j => ?_) rfl rfl (.inr ⟨hfree, by rw [State.lentOf, hcar]; exact hnone⟩) (fun _ => .inr hroom) rfl (by simp [hn])
  · exact baysAgree_of_slot h.agree hsets (by simp) rfl
  · exact lentOf_setCarSet (s := s.setSlot n _) (.inr ⟨c, hcar⟩) j

/-! ### Sets that come and go -/

theorem setLaw_enrol (h : SetLaw s) {n : SetHandle} {serial : Nat} (hfresh : s.holderOf serial = none)
    (hfree : s.freeSlot = some n) : SetLaw (s.setSlot n { state := .absent, serial := serial }) := by
  have hn : (s.slot n).state = .unenrolled := ((s.freeSlot_eq_some_iff n).mp hfree).1
  have hcar : (s.slot n).car = none := by
    by_contra hne
    rcases (h.withCar n).mp hne with e | e <;> simp [hn] at e
  have hbay : (s.slot n).bay = none := h.undocked n (by rw [hn]; rfl) (by simp [hn])
  refine h.put rfl ⟨fun e => (nomatch e), fun _ _ => rfl, by simp, by simp⟩ ?_ (fun k m => ?_) (fun k j m _ => Iff.rfl)
    (fun e => (nomatch e)) fun _ m hm hm' e => ?_
  · exact baysAgree_of_slot h.agree rfl rfl (by rw [hbay])
  · refine (h.lent_iff k n m).trans ?_
    simp [hcar]
  · have hnone := (lowest_eq_none.mp hfresh) m
    simp only [Bool.and_eq_false_iff, beq_eq_false_iff_ne] at hnone
    rcases hnone with e' | e'
    · rw [hm'] at e'
      cases e'
    · exact e' e

/-- A set with no car leaves its bay, in a state in which it stands in none (R113). -/
theorem setLaw_undock (h : SetLaw s) {n : SetHandle} (y : SetSlot) (hissuing : (s.slot n).state ≠ .issuing)
    (hlent : (s.slot n).state ≠ .lent) (hbay : y.bay = none) (hcar : y.car = none) (htimer : y.timer = none)
    (hstate : y.state.docks = false ∧ y.state ≠ .lent)
    (hserial : y.enrolled = true → y.serial = (s.slot n).serial ∧ (s.slot n).enrolled = true) :
    SetLaw ((s.clearBay n).setSlot n y) := by
  have hsets : ((s.clearBay n).setSlot n y).sets = put s.sets n y := by
    rw [State.setSlot, clearBay_sets, put_put]
  have hy : y.state ≠ .issuing := fun e => by
    have := hstate.1
    rw [e] at this
    cases this
  refine h.restate hsets ⟨fun e => ?_, fun _ _ => hbay, ?_, ?_⟩ ?_ (fun k => ?_) ?_ (fun m => ?_) hserial
  · rw [hstate.1] at e
    cases e
  · simp [hcar, hy, hstate.2]
  · simp [htimer, hy]
  · refine baysAgree_of_slot (baysAgree_clearBay h.agree n) rfl rfl ?_
    rw [hbay, clearBay_slot, if_pos rfl]
  · exact lentOf_congr (by simp) k
  · have hx := (h.withCar n).not.mpr (by simp [hissuing, hlent])
    rw [hcar]
    exact (not_not.mp hx).symm
  · cases m <;> simp [SetMark.state, hy, hstate.2, hissuing, hlent]

theorem SetLaw.car_none (h : SetLaw s) {n : SetHandle} (hissuing : (s.slot n).state ≠ .issuing)
    (hlent : (s.slot n).state ≠ .lent) : (s.slot n).car = none :=
  not_not.mp ((h.withCar n).not.mpr (by simp [hissuing, hlent]))

theorem SetLaw.timer_none (h : SetLaw s) {n : SetHandle} (hissuing : (s.slot n).state ≠ .issuing) :
    (s.slot n).timer = none := not_not.mp ((h.timed n).not.mpr hissuing)

/-- A docked set without a car leaves its bay for ABSENT (R122, R125). -/
theorem setLaw_leave (h : SetLaw s) {n : SetHandle} (hstate : (s.slot n).state = .ready ∨ (s.slot n).state = .charging) :
    SetLaw ((s.clearBay n).setSlot n { (s.clearBay n).slot n with state := .absent }) := by
  have hissuing : (s.slot n).state ≠ .issuing := by rcases hstate with e | e <;> simp [e]
  have hlent : (s.slot n).state ≠ .lent := by rcases hstate with e | e <;> simp [e]
  have hslot := clearBay_slot s n n
  rw [if_pos rfl] at hslot
  rw [hslot]
  refine setLaw_undock h _ hissuing hlent rfl (h.car_none hissuing hlent) (h.timer_none hissuing) ⟨rfl, by simp⟩ fun _ => ?_
  exact ⟨rfl, (SetSlot.enrolled_iff _).mpr (by rcases hstate with e | e <;> simp [e])⟩

/-- A set that is FAULTY, or stands in no bay, is out of its bay (R113). -/
theorem setLaw_clearBay (h : SetLaw s) {n : SetHandle} (hstate : (s.slot n).state.docks = false) :
    SetLaw (s.clearBay n) := by
  have hissuing : (s.slot n).state ≠ .issuing := fun e => by rw [e] at hstate; cases hstate
  by_cases hlent : (s.slot n).state = .lent
  · have hbay : (s.slot n).bay = none := h.undocked n hstate (by simp [hlent])
    unfold State.clearBay
    rw [hbay]
    exact h
  · have hself : (s.clearBay n) = (s.clearBay n).setSlot n { s.slot n with bay := none } := by
      have hslot := clearBay_slot s n n
      rw [if_pos rfl] at hslot
      rw [← hslot]
      exact congrArg (fun v => { s.clearBay n with sets := v }) (put_look _ _).symm
    rw [hself]
    exact setLaw_undock h _ hissuing hlent rfl (h.car_none hissuing hlent) (h.timer_none hissuing) ⟨hstate, hlent⟩
      fun e => ⟨rfl, e⟩

theorem setLaw_displace (h : SetLaw s) (n : SetHandle) : SetLaw (s.displace n) := by
  unfold State.displace
  dsimp only
  split <;> rename_i hstate
  · refine setLaw_leave (setLaw_endIssue h hstate _) ?_
    rw [cancelIssue_slot_state]
    unfold State.byCharge
    split <;> simp
  · exact setLaw_leave h (.inl hstate)
  · exact setLaw_leave h (.inr hstate)
  all_goals exact setLaw_clearBay h (by rw [hstate]; rfl)

/-- A set that has left a bay without a report is out of it, and another set's slot stands (R122). -/
theorem displace_spec (s : State) {n m : SetHandle} (hm : n ≠ m) {b : BayNo} (hbay : (s.slot n).bay = some b) :
    (s.displace n).slot m = s.slot m ∧ (s.displace n).bay b = none := by
  have hcancel (c : Option CarHandle) : ((s.cancelIssue n).touchCar c).slot m = s.slot m := by
    have hsets : ((s.cancelIssue n).touchCar c).sets = (s.cancelIssue n).sets := by simp
    exact (congrArg (look · m) (hsets.trans (cancelIssue_sets s n))).trans (look_put_ne _ _ hm)
  have hbay' (c : Option CarHandle) : (((s.cancelIssue n).touchCar c).slot n).bay = some b := by
    rw [cancelIssue_slot_state]
    exact hbay
  unfold State.displace
  dsimp only
  split <;> refine ⟨?_, ?_⟩ <;>
    simp [State.slot_setSlot_ne, hm, clearBay_slot, clearBay_bay, hcancel, hbay, hbay']

/-! ### Docking -/

theorem dockAt_sets (s : State) (n : SetHandle) (b : BayNo) (level : Nat) :
    (s.dockAt n b level).sets = put s.sets n { s.slot n with charge := level, bay := some b } := by
  have hslot := clearBay_slot (s.setSlot n { s.slot n with charge := level }) n n
  simp only [if_true, State.slot_setSlot_self] at hslot
  simp only [State.dockAt, State.takeBay, State.setSlot, State.setBay] at hslot ⊢
  rw [show State.slot _ n = _ from hslot, clearBay_sets]
  simp [put_put]

theorem baysAgree_dockAt (h : BaysAgree s) {n : SetHandle} {b : BayNo} (hb : s.bay b = none ∨ s.bay b = some n)
    (level : Nat) : BaysAgree (s.dockAt n b level) := by
  have hcharged : BaysAgree (s.setSlot n { s.slot n with charge := level }) := baysAgree_of_slot h rfl rfl rfl
  refine baysAgree_takeBay (baysAgree_clearBay hcharged n) ?_ ?_
  · rw [clearBay_bay]
    rcases hb with hb | hb
    · rw [State.bay_of_setSlot, hb, ite_self]
    · rw [if_pos]
      rw [State.slot_setSlot_self]
      exact (h b n).mp hb
  · rw [clearBay_slot, if_pos rfl]

theorem dockByCharge_sets (s : State) (n : SetHandle) (b : BayNo) (level : Nat) :
    (s.dockByCharge n b level).sets =
      put s.sets n { s.slot n with charge := level, bay := some b, state := s.byCharge level } := by
  have hslot : (s.dockAt n b level).slot n = { s.slot n with charge := level, bay := some b } :=
    (congrArg (look · n) (dockAt_sets s n b level)).trans (look_put_self _ _ _)
  simp only [State.dockByCharge, State.setSlot, hslot]
  rw [dockAt_sets, put_put]

theorem baysAgree_dockByCharge (h : BaysAgree s) {n : SetHandle} {b : BayNo} (hb : s.bay b = none ∨ s.bay b = some n)
    (level : Nat) : BaysAgree (s.dockByCharge n b level) :=
  baysAgree_of_slot (s := s.dockAt n b level) (baysAgree_dockAt h hb level) rfl rfl rfl

/-- A set without a car is docked and takes its state by charge (R123). -/
theorem setLaw_dockByCharge (h : SetLaw s) {n : SetHandle} {b : BayNo} (hb : s.bay b = none ∨ s.bay b = some n)
    (level : Nat) (hissuing : (s.slot n).state ≠ .issuing) (hlent : (s.slot n).state ≠ .lent)
    (hn : (s.slot n).state ≠ .unenrolled) : SetLaw (s.dockByCharge n b level) := by
  obtain ⟨hdocks, hissuing', hlent', -⟩ := byCharge_docks s level
  refine h.restate (dockByCharge_sets s n b level) ⟨by simp, fun e => ?_, ?_, ?_⟩ (baysAgree_dockByCharge h.agree hb level)
    (fun k => lentOf_congr (by simp) k) rfl (fun m => ?_) fun _ => ⟨rfl, (SetSlot.enrolled_iff _).mpr hn⟩
  · exact absurd (hdocks.symm.trans e) (by simp)
  · simp [h.car_none hissuing hlent, hissuing', hlent']
  · simp [h.timer_none hissuing, hissuing']
  · cases m <;> simp [SetMark.state, hissuing', hlent', hissuing, hlent]

theorem setLaw_arrive (h : SetLaw s) {n : SetHandle} {b : BayNo} (hb : s.bay b = none ∨ s.bay b = some n) (level : Nat) :
    SetLaw (s.arrive n b level) := by
  unfold State.arrive
  dsimp only
  split <;> rename_i hstate
  · have hslot := cancelIssue_slot_state s n (s.slot n).car
    obtain ⟨-, hissuing, hlent, hn⟩ := byCharge_docks s (s.slot n).charge
    have hbay : ((s.cancelIssue n).touchCar (s.slot n).car).bay b = s.bay b :=
      congrArg (look · b) (by simp : ((s.cancelIssue n).touchCar (s.slot n).car).bays = s.bays)
    refine setLaw_dockByCharge (setLaw_endIssue h hstate _) (by rwa [hbay]) level ?_ ?_ ?_ <;> rw [hslot] <;> assumption
  · obtain ⟨c, hc⟩ := Option.ne_none_iff_exists'.mp ((h.withCar n).mpr (.inr hstate))
    obtain ⟨hdocks, hissuing, hlent, -⟩ := byCharge_docks s level
    generalize hr : ((s.setSlot n { s.slot n with car := none }).setCarSet (s.slot n).car none).touchCar (s.slot n).car = r
    have hsets : r.sets = put s.sets n { s.slot n with car := none } := by rw [← hr]; simp [State.setSlot]
    have hbays : r.bays = s.bays := by rw [← hr]; simp
    have hslot : r.slot n = { s.slot n with car := none } := (congrArg (look · n) hsets).trans (look_put_self _ _ _)
    have hready : r.readyLevel = s.readyLevel := by rw [← hr]; simp
    have hagree : BaysAgree r := baysAgree_of_slot h.agree hsets hbays rfl
    have hb' : r.bay b = none ∨ r.bay b = some n := by rwa [State.bay, hbays]
    have hcharge : r.byCharge level = s.byCharge level := by rw [State.byCharge, hready, State.byCharge]
    have htimer : (s.slot n).timer = none := h.timer_none (by simp [hstate])
    refine setLaw_congr (s := r.dockByCharge n b level) (by simp) (by simp) (fun k => lentOf_congr (by simp) k) ?_
    refine h.release hc (y := { s.slot n with charge := level, bay := some b, state := s.byCharge level, car := none })
      ?_ ⟨by simp, fun e => ?_, ?_, ?_⟩ (baysAgree_dockByCharge hagree hb' level) (fun k => ?_) rfl rfl (by simp [hstate])
    · rw [dockByCharge_sets, hsets, hslot, hcharge, put_put]
    · exact absurd (hdocks.symm.trans e) (by simp)
    · simp [hissuing, hlent]
    · simp [htimer, hissuing]
    · rw [lentOf_congr (t := r.dockByCharge n b level) (s := r) (by simp), ← hr, lentOf_touchCar, hc]
      exact lentOf_setCarSet (s := s.setSlot n _) (.inl rfl) k
  · refine h.restate (dockAt_sets s n b level) ⟨by simp, fun _ e => absurd hstate e, ?_, ?_⟩
      (baysAgree_dockAt h.agree hb level) (fun k => lentOf_congr (by simp [State.dockAt]) k) rfl (fun _ => Iff.rfl)
      fun e => ⟨rfl, e⟩
    · exact h.withCar n
    · exact h.timed n
  · exact setLaw_dockByCharge h hb level (by simp [hstate]) (by simp [hstate]) (by simp [hstate])
  · exact setLaw_dockByCharge h hb level (by simp [hstate]) (by simp [hstate]) (by simp [hstate])
  · exact setLaw_dockByCharge h hb level (by simp [hstate]) (by simp [hstate]) (by simp [hstate])
  · exact setLaw_dockByCharge h hb level (by simp [hstate]) (by simp [hstate]) (by simp [hstate])
  · exact h

theorem setLaw_dockIn (h : SetLaw s) (n : SetHandle) (b : BayNo) (level : Nat) :
    SetLaw ((s.undockFrom (s.displacedBy n b)).arrive n b level) := by
  unfold State.displacedBy
  cases hb : s.bay b with
  | none => exact setLaw_arrive h (.inl hb) level
  | some other =>
    dsimp only
    split
    · rename_i e
      rw [beq_iff_eq] at e
      exact setLaw_arrive h (.inr (e ▸ hb)) level
    · rename_i e
      have hne : other ≠ n := by simpa using e
      obtain ⟨-, hbay⟩ := displace_spec s hne ((h.bays b other).mp hb)
      exact setLaw_arrive (setLaw_displace h other) (.inl hbay) level

theorem setLaw_completeLend (h : SetLaw s) {b : BayNo} {n : SetHandle} (hbay : s.bay b = some n)
    (hstate : (s.slot n).state = .issuing) : SetLaw ((s.liftFrom b n).completeLend n) := by
  rw [liftFrom_eq_clearBay h.agree hbay]
  obtain ⟨c, hc⟩ := Option.ne_none_iff_exists'.mp ((h.withCar n).mpr (.inl hstate))
  have hslot := clearBay_slot s n n
  rw [if_pos rfl] at hslot
  have hsets : ((s.clearBay n).completeLend n).sets =
      put s.sets n { s.slot n with bay := none, state := .lent, timer := none } := by
    simp only [State.completeLend, hslot]
    simp [State.setSlot, clearBay_sets, put_put]
  obtain ⟨x, hx⟩ : ∃ x, s.car c = some x := by
    have := (h.lent_iff c n .issuing).mpr ⟨hc, hstate⟩
    cases hcar : s.car c with
    | none => simp [State.lentOf, hcar] at this
    | some x => exact ⟨x, rfl⟩
  refine h.give (c := c) (m := .lent) hsets ⟨fun e => (nomatch e), fun _ _ => rfl, by simp [hc], by simp⟩ ?_ (fun k => ?_)
    hc rfl (.inl hc) (fun e => (nomatch e)) rfl (by simp [hstate])
  · refine baysAgree_of_slot (baysAgree_clearBay h.agree n) (y := { s.slot n with
      bay := none, state := .lent, timer := none }) ?_ (by simp) (by rw [hslot])
    rw [hsets, clearBay_sets, put_put]
  · have htouched : ((s.clearBay n).completeLend n).lentOf k =
        (((s.clearBay n).setSlot n { (s.clearBay n).slot n with state := .lent, timer := none }).setCarSet
          ((s.clearBay n).slot n).car (some (n, .lent))).lentOf k :=
      (lentOf_congr rfl k).trans (lentOf_touchCar _ _ k)
    rw [htouched, hslot]
    simp only [hc]
    have hentries (y : SetSlot) : ((s.clearBay n).setSlot n y).entries = s.entries := by simp
    rw [lentOf_setCarSet (.inr ⟨x, by rw [State.car, State.entry, hentries]; exact hx⟩), lentOf_congr (hentries _)]

/-! ### Retirement -/

theorem loseSet_sets (s : State) (n : SetHandle) :
    (s.loseSet n).sets = put s.sets n { s.slot n with state := .lost, car := none } := by
  simp [State.loseSet, State.setSlot]

theorem setLaw_loseSet (h : SetLaw s) {n : SetHandle} (hn : (s.slot n).state = .lent) : SetLaw (s.loseSet n) := by
  obtain ⟨c, hc⟩ := Option.ne_none_iff_exists'.mp ((h.withCar n).mpr (.inr hn))
  refine h.release hc (loseSet_sets s n) ⟨fun e => (nomatch e), fun _ _ => ?_, by simp, ?_⟩ ?_ (fun k => ?_) rfl rfl
    (by simp [hn])
  · exact h.undocked n (by rw [hn]; rfl) (by simp [hn])
  · simp [h.timer_none (n := n) (by simp [hn])]
  · exact baysAgree_of_slot h.agree (loseSet_sets s n) (by simp) rfl
  · unfold State.loseSet
    dsimp only
    rw [hc]
    exact (lentOf_congr rfl k).trans (lentOf_setCarSet (s := s.setSlot n _) (.inl rfl) k)

/-- The set pool is told of the car's set, and the car names none (R128). -/
theorem setLaw_setAtRetirement (h : SetLaw s) {k : CarHandle} {c : Car} (hcar : s.car k = some c) :
    SetLaw (s.setAtRetirement c) ∧ (s.setAtRetirement c).lentOf k = none := by
  unfold State.setAtRetirement
  split <;> rename_i hlent
  · exact ⟨h, by rw [State.lentOf, hcar]; exact hlent⟩
  all_goals
    rename_i n
    have hown := h.lent_iff k n
  · obtain ⟨hc, hn⟩ := (hown .lent).mp (by rw [State.lentOf, hcar]; exact hlent)
    refine ⟨setLaw_loseSet h hn, ?_⟩
    unfold State.loseSet
    dsimp only
    rw [hc]
    refine (lentOf_congr rfl k).trans ((lentOf_setCarSet (s := s.setSlot n _) (.inl rfl) k).trans (if_pos rfl))
  · obtain ⟨hc, hn⟩ := (hown .issuing).mp (by rw [State.lentOf, hcar]; exact hlent)
    refine ⟨setLaw_cancelIssue h hn, ?_⟩
    unfold State.cancelIssue
    dsimp only
    rw [hc]
    exact (lentOf_setCarSet (s := s.setSlot n _) (.inl rfl) k).trans (if_pos rfl)

/-- A retired entry is VACANT, and the other entries are as the set pool leaves them (R38). -/
theorem retireCar_car {h : CarHandle} {c : Car} (hcar : s.car h = some c) (cause : RetireCause) (k : CarHandle) :
    (s.retireCar h cause).car k = if h = k then none else (s.setAtRetirement c).car k := by
  have touched (t : State) : (t.touch h).car k = t.car k := by
    have e := CarsKeep.touch (π := id) t h k
    simpa using e
  have hkeep (f : FieldNo) (t : State) : (t.evaluateSign f).car k = t.car k := rfl
  have hentries : ((((s.setAtRetirement c).ordersAtRetirement h c).setStall c.field c.stall none).lanesLoseCar h).car k =
      ((s.setAtRetirement c).modCar h fun x => { x with lent := none, orders := [] }).car k := by
    have e : ((((s.setAtRetirement c).ordersAtRetirement h c).setStall c.field c.stall none).lanesLoseCar h).entries =
        ((s.setAtRetirement c).modCar h fun x => { x with lent := none, orders := [] }).entries := by
      simp [State.ordersAtRetirement, State.ordersLoseCar_entries]
    rw [State.car, State.entry, e]
    rfl
  have hvacant : (((((s.setAtRetirement c).ordersAtRetirement h c).setStall c.field c.stall none).lanesLoseCar h).setCar
      h none).car k = if h = k then none else (s.setAtRetirement c).car k := by
    rw [State.car_setCar, hentries, State.car_modCar]
    split <;> rfl
  unfold State.retireCar
  rw [hcar]
  dsimp only
  split <;> split <;> simp only [touched, hkeep, hvacant]

theorem retireCar_sets {h : CarHandle} {c : Car} (hcar : s.car h = some c) (cause : RetireCause) :
    (s.retireCar h cause).sets = (s.setAtRetirement c).sets := by
  unfold State.retireCar
  rw [hcar]
  dsimp only
  split <;> split <;> simp

theorem setLaw_retireCar (h : SetLaw s) (k : CarHandle) (cause : RetireCause) : SetLaw (s.retireCar k cause) := by
  cases hcar : s.car k with
  | none =>
    unfold State.retireCar
    rw [hcar]
    exact h
  | some c =>
    obtain ⟨hlaw, hnone⟩ := setLaw_setAtRetirement h hcar
    refine setLaw_congr (retireCar_sets hcar cause) (by simp) (fun j => ?_) hlaw
    unfold State.lentOf
    rw [retireCar_car hcar]
    split
    · rename_i e
      subst e
      exact hnone.symm
    · rfl

end Sys2Proof.Machine
end

section
/-! PROOF. The laws of the set pool at every step, O49. -/

namespace Sys2Proof.Machine

variable {s t : State}

/-- What stands when the set pool has not been at work: slots, bays, and the set that each live entry names. -/
structure PoolStands (s t : State) : Prop where
  sets : t.sets = s.sets
  bays : t.bays = s.bays
  lent : CarsKeep Car.lent s t

namespace PoolStands
variable {u : State}

theorem refl (s : State) : PoolStands s s := ⟨rfl, rfl, CarsKeep.refl s⟩

theorem trans (h : PoolStands s t) (h' : PoolStands t u) : PoolStands s u :=
  ⟨h'.sets.trans h.sets, h'.bays.trans h.bays, h.lent.trans h'.lent⟩

theorem of_frame (h : t.sets = s.sets ∧ t.bays = s.bays ∧ t.entries = s.entries) : PoolStands s t :=
  ⟨h.1, h.2.1, CarsKeep.of_entries h.2.2⟩

theorem of_carsStand (h : t.sets = s.sets ∧ t.bays = s.bays) (hcars : CarsStand s t) : PoolStands s t :=
  ⟨h.1, h.2, hcars.weaken Car.lent (r := Car.lent) fun _ => rfl⟩

theorem setCar {h : CarHandle} {c : Option Car} (hc : c.map Car.lent = (s.car h).map Car.lent) :
    PoolStands s (s.setCar h c) := ⟨by simp, by simp, CarsKeep.setCar hc⟩

theorem touch (s : State) (h : CarHandle) : PoolStands s (s.touch h) := ⟨by simp, by simp, CarsKeep.touch s h⟩

theorem count (s : State) (k : Tally) (n : Nat) : PoolStands s (s.count k n) := of_frame (by simp)
theorem setLane (s : State) (l : LaneNo) (x : Lane) : PoolStands s (s.setLane l x) := of_frame (by simp)
theorem closeLane (s : State) (l : LaneNo) : PoolStands s (s.closeLane l) := of_frame (by simp)

theorem setLaw (h : PoolStands s t) (hlaw : SetLaw s) : SetLaw t := by
  refine setLaw_congr h.sets h.bays (fun k => ?_) hlaw
  have e := h.lent k
  unfold State.lentOf
  cases ht : t.car k <;> cases hs : s.car k <;> simp [ht, hs] at e ⊢
  exact e

end PoolStands

/-! ### The changes that commands make -/

theorem setLaw_departCar (h : SetLaw s) {l : LaneNo} {k : CarHandle} {c : Car} (hcar : s.car k = some c)
    (hnot : ∀ n, c.lent ≠ some (n, .lent)) : SetLaw (s.departCar l k c) := by
  have hsettled : SetLaw (s.setAtRetirement c) ∧ (s.setAtRetirement c).lentOf k = none := setLaw_setAtRetirement h hcar
  have heq : s.departCar l k c =
      ((s.setAtRetirement c).modCar k fun x => { x with state := .leaving, lent := none }).setLane l
        ((((s.setAtRetirement c).modCar k fun x => { x with state := .leaving, lent := none }).lane l).openFor
          (some k)) := by
    rcases hlent : c.lent with _ | ⟨n, _ | _⟩
    · simp only [State.departCar, State.setAtRetirement, hlent]
    · simp only [State.departCar, State.setAtRetirement, hlent]
    · exact absurd hlent (hnot n)
  rw [heq]
  refine setLaw_congr (s := s.setAtRetirement c) (by simp) (by simp) (fun j => ?_) hsettled.1
  refine (lentOf_congr (s := (s.setAtRetirement c).modCar k fun x => { x with state := .leaving, lent := none })
    (by simp) j).trans ((lentOf_setCar _ k j _).trans ?_)
  split
  · rename_i e
    subst e
    rw [hsettled.2]
    cases (s.setAtRetirement c).car k <;> rfl
  · rfl

theorem setLaw_admission (h : SetLaw s) (q : AdmitRequest) {k : CarHandle} (hvacant : s.vacantEntry = some k) (st : Stall) :
    SetLaw (s.admitInto q k st) := by
  have hempty : s.car k = none := by simpa using (lowest_spec hvacant).1
  refine setLaw_congr (s := s) (by simp) (by simp) (fun j => ?_) h
  have hentries : (s.admitInto q k st).entries = (s.setCar k (some (q.car st s.nextSerial))).entries := by
    simp [State.admitInto]
  refine (lentOf_congr hentries j).trans ((lentOf_setCar s k j _).trans ?_)
  split
  · rename_i e
    subst e
    rw [State.lentOf, hempty]
    rfl
  · rfl

theorem poolStands_moveCar {k : CarHandle} {c : Car} (hcar : s.car k = some c) (f : FieldNo) (st : Stall) :
    PoolStands s (s.moveCar k c f st) := by
  have hentries : (s.moveCar k c f st).entries = (s.setCar k (some { c with field := f, stall := st })).entries := by
    unfold State.moveCar
    dsimp only
    split <;> simp [State.setCar, State.setEntry, State.entry]
  have hlent : CarsKeep Car.lent s (s.setCar k (some { c with field := f, stall := st })) :=
    CarsKeep.setCar (by rw [hcar]; rfl)
  exact ⟨by simp, by simp, hlent.trans (CarsKeep.of_entries hentries)⟩

theorem CarsKeep.clearTouched {α : Type} {π : Car → α} (s : State) (hs : List CarHandle) :
    CarsKeep π s (s.clearTouched hs) := by
  refine State.forEach_induct (CarsKeep π s) s _ _ (fun h u _ hu => hu.trans fun k => ?_) (CarsKeep.refl s)
  by_cases e : h = k
  · subst e
    simp [State.car]
  · simp [State.car, e]

theorem setLaw_failSet (h : SetLaw s) {n : SetHandle} {b : BayNo} (hbay : s.bay b = some n) : SetLaw (s.failSet n) := by
  unfold State.failSet
  dsimp only
  split
  · rename_i hstate
    rw [beq_iff_eq] at hstate
    have hended := setLaw_endIssue h hstate (s.slot n).car
    obtain ⟨hdocks, hissuing, hlent, hn⟩ := byCharge_docks s (s.slot n).charge
    rw [cancelIssue_slot_state]
    refine hended.restate rfl ⟨fun e => (nomatch e), fun _ e => absurd rfl e, by simp, by simp⟩ ?_
      (fun k => lentOf_congr (by simp) k) ?_ (fun m => ?_) fun _ => ?_
    · exact baysAgree_of_slot hended.agree rfl (by simp) (by rw [cancelIssue_slot_state])
    · rw [cancelIssue_slot_state]
    · rw [cancelIssue_slot_state]
      cases m <;> simp [SetMark.state, hissuing, hlent]
    · rw [cancelIssue_slot_state]
      exact ⟨rfl, (SetSlot.enrolled_iff _).mpr hn⟩
  · rename_i hstate
    have hissuing : (s.slot n).state ≠ .issuing := by simpa using hstate
    have hlent : (s.slot n).state ≠ .lent := fun e => by
      have := h.undocked n (by rw [e]; rfl) (by simp [e])
      rw [(h.bays b n).mp hbay] at this
      cases this
    have hn : (s.slot n).state ≠ .unenrolled := fun e => by
      have := h.undocked n (by rw [e]; rfl) (by simp [e])
      rw [(h.bays b n).mp hbay] at this
      cases this
    refine h.restate rfl ⟨fun e => (nomatch e), fun _ e => absurd rfl e, ?_, ?_⟩ ?_ (fun k => lentOf_congr (by simp) k) rfl
      (fun m => ?_) fun _ => ⟨rfl, (SetSlot.enrolled_iff _).mpr hn⟩
    · simp [h.car_none hissuing hlent]
    · simp [h.timer_none hissuing]
    · exact baysAgree_of_slot h.agree rfl rfl rfl
    · cases m <;> simp [SetMark.state, hissuing, hlent]

/-- A docked set whose charge is reported keeps its standing with its car (R124). -/
theorem chargedState_spec (readyLevel level : Nat) (st : SetState) :
    (chargedState readyLevel level st).docks = st.docks ∧
      (∀ m : SetMark, chargedState readyLevel level st = m.state ↔ st = m.state) ∧
      (chargedState readyLevel level st = .faulty ↔ st = .faulty) ∧
      (chargedState readyLevel level st = .unenrolled ↔ st = .unenrolled) := by
  unfold chargedState
  split
  · split <;> refine ⟨rfl, fun m => ?_, by simp, by simp⟩ <;> cases m <;> simp [SetMark.state]
  · split <;> refine ⟨rfl, fun m => ?_, by simp, by simp⟩ <;> cases m <;> simp [SetMark.state]
  · exact ⟨rfl, fun _ => Iff.rfl, Iff.rfl, Iff.rfl⟩

theorem setLaw_charge (h : SetLaw s) (n : SetHandle) (level : Nat) :
    SetLaw (s.setSlot n
      { s.slot n with charge := level, state := chargedState s.readyLevel level (s.slot n).state }) := by
  obtain ⟨hdocks, hmark, hfaulty, hn⟩ := chargedState_spec s.readyLevel level (s.slot n).state
  have hissuing := hmark .issuing
  have hlent := hmark .lent
  refine h.restate rfl ⟨fun e => ?_, fun e e' => ?_, ?_, ?_⟩ (baysAgree_of_slot h.agree rfl rfl rfl)
    (fun k => lentOf_congr (by simp) k) rfl hmark fun e => ⟨rfl, ?_⟩
  · exact h.docked n (hdocks ▸ e)
  · exact h.undocked n (hdocks ▸ e) fun e'' => e' (hfaulty.mpr e'')
  · exact (h.withCar n).trans (or_congr hissuing hlent).symm
  · exact (h.timed n).trans hissuing.symm
  · exact (SetSlot.enrolled_iff _).mpr (hn.not.mp ((SetSlot.enrolled_iff _).mp e))

theorem setLaw_serviceSet (h : SetLaw s) {n : SetHandle} (hn : (s.slot n).state = .faulty) :
    SetLaw (s.setSlot n { s.slot n with state := s.servicedState (s.slot n) }) := by
  obtain ⟨hdocks, hissuing, hlent, -⟩ := byCharge_docks s (s.slot n).charge
  have hcar : (s.slot n).car = none := h.car_none (by simp [hn]) (by simp [hn])
  have htimer : (s.slot n).timer = none := h.timer_none (by simp [hn])
  have hstate : s.servicedState (s.slot n) ≠ .issuing ∧ s.servicedState (s.slot n) ≠ .lent ∧
      ((s.servicedState (s.slot n)).docks = true ↔ (s.slot n).bay ≠ none) := by
    unfold State.servicedState
    cases (s.slot n).bay <;> simp [hissuing, hlent, hdocks, show SetState.docks .absent = false from rfl]
  obtain ⟨hissuing', hlent', hdocks'⟩ := hstate
  refine h.restate rfl ⟨hdocks'.mp, fun e _ => ?_, by simp [hcar, hissuing', hlent'], by simp [htimer, hissuing']⟩
    (baysAgree_of_slot h.agree rfl rfl rfl) (fun k => lentOf_congr (by simp) k) rfl (fun m => ?_) fun _ => ⟨rfl, ?_⟩
  · exact not_not.mp (hdocks'.not.mp (by simp [e]))
  · cases m <;> simp [SetMark.state, hn, hissuing', hlent']
  · exact (SetSlot.enrolled_iff _).mpr (by simp [hn])

theorem setLaw_removeUnlawfully (h : SetLaw s) {n : SetHandle} {b : BayNo} (hbay : s.bay b = some n)
    (hstate : (s.slot n).state = .ready ∨ (s.slot n).state = .charging) :
    SetLaw ((s.liftFrom b n).removeUnlawfully n) := by
  rw [liftFrom_eq_clearBay h.agree hbay]
  refine PoolStands.setLaw (s := (s.clearBay n).setSlot n { (s.clearBay n).slot n with state := .absent }) ?_
    (setLaw_leave h hstate)
  exact PoolStands.of_frame ⟨rfl, rfl, rfl⟩

theorem setLaw_cascade (h : SetLaw s) (f : FieldNo) : SetLaw (s.cascade f) :=
  State.forEach_induct SetLaw s _ _ (fun k _ _ ht => setLaw_retireCar ht k .forceClose) h

/-- Every change of a command keeps the laws of the set pool. -/
theorem setLaw_change (hc : Change s t) (h : SetLaw s) : SetLaw t := by
  have frame {u : State} (hu : u.sets = s.sets ∧ u.bays = s.bays ∧ u.entries = s.entries) : SetLaw u :=
    (PoolStands.of_frame hu).setLaw h
  cases hc with
  | closeForced f => exact (PoolStands.of_frame (by simp)).setLaw (setLaw_cascade h f)
  | admission q k st _ _ _ vacant => exact setLaw_admission h q vacant st
  | depart l k c _ _ car _ _ notLent => exact setLaw_departCar h car notLent
  | holdEntry k c car => exact (PoolStands.setCar (by rw [car]; rfl)).setLaw h
  | moveEntry k c f named st car => exact (poolStands_moveCar car f st).setLaw h
  | amendEntry k c x car => exact (PoolStands.setCar (by rw [car]; rfl)).setLaw h
  | releaseEntry k c car => exact (PoolStands.setCar (by rw [car]; rfl)).setLaw h
  | retireEntry k c => exact setLaw_retireCar h k _
  | readTouched hs => exact PoolStands.setLaw ⟨by simp, by simp, CarsKeep.clearTouched s hs⟩ h
  | enrolSet n serial fresh free => exact setLaw_enrol h fresh free
  | removeSet n issuing lent =>
    exact setLaw_undock h {} issuing lent rfl rfl rfl ⟨rfl, by simp⟩ fun e => absurd e (by simp [SetSlot.enrolled])
  | lendSet n k c car noSet room chosen => exact setLaw_issueSet h car noSet room (chooseSet_ready chosen)
  | dockForeign => exact frame ⟨rfl, rfl, rfl⟩
  | dockIn n b serial level => exact setLaw_dockIn h n b level
  | completeLend b n bay state => exact setLaw_completeLend h bay state
  | removeUnlawfully b n bay state => exact setLaw_removeUnlawfully h bay state
  | lift b n bay docks =>
    rw [liftFrom_eq_clearBay h.agree bay]
    exact setLaw_clearBay h docks
  | charge b n level => exact setLaw_charge h n level
  | setFault b n bay => exact setLaw_failSet h bay
  | serviceSet n faulty => exact setLaw_serviceSet h faulty
  | placeOrder k c o mode args lines =>
    exact (PoolStands.of_carsStand (by simp) (carsStand_placeOrder s o k c.field mode lines)).setLaw h
  | cancelOrder o ord => exact (PoolStands.of_carsStand (by simp) (carsStand_cancelAtStage s o ord)).setLaw h
  | lineDone o k ord => exact (PoolStands.of_carsStand (by simp) (carsStand_finishLine s o ord k)).setLaw h
  | tripReport o ord delivered =>
    exact (PoolStands.of_carsStand (by simp) (carsStand_reportOrder s o ord delivered)).setLaw h
  | writeClosedRows => exact frame (by simp [State.writeClosedRows, State.ok])
  | _ => exact frame (by simp)

/-! ### The events -/

theorem setLaw_commitCar (h : SetLaw s) (k : CarHandle) : SetLaw (s.commitCar k) := by
  unfold State.commitCar
  split
  · exact h
  · rename_i c hcar
    exact ((PoolStands.setCar (c := some { c with state := .present }) (by rw [hcar]; rfl)).trans
      ((PoolStands.touch _ k).trans ((PoolStands.count _ _ _).trans (PoolStands.count _ _ _)))).setLaw h

theorem setLaw_completePass (h : SetLaw s) (l : LaneNo) : SetLaw (s.completePass l) := by
  unfold State.completePass
  split
  · split
    · exact setLaw_commitCar h _
    · split
      · exact h
      · exact (PoolStands.count _ _ _).setLaw (setLaw_retireCar ((PoolStands.setLane s l _).setLaw h) _ _)
  · split
    · exact h
    · exact (PoolStands.count _ _ _).setLaw h

theorem setLaw_entryExpiry (h : SetLaw s) (l : LaneNo) : SetLaw (s.entryExpiry l) := by
  unfold State.entryExpiry
  split
  · split
    · exact (PoolStands.setLane s l _).setLaw h
    · refine ((PoolStands.count _ _ _).trans (PoolStands.closeLane _ l)).setLaw ?_
      split
      · exact h
      · split
        · exact h
        · exact (PoolStands.count _ _ _).setLaw (setLaw_retireCar ((PoolStands.setLane s l _).setLaw h) _ _)
  · exact h

theorem setLaw_exitExpiry (h : SetLaw s) (l : LaneNo) : SetLaw (s.exitExpiry l) := by
  unfold State.exitExpiry
  split
  · split
    · exact (PoolStands.setLane s l _).setLaw h
    · refine ((PoolStands.count _ _ _).trans (PoolStands.closeLane _ l)).setLaw ?_
      split
      · exact h
      · split
        · exact h
        · rename_i k _ _ c hcar
          exact ((PoolStands.setCar (c := some { c with state := .present }) (by rw [hcar]; rfl)).trans
            (PoolStands.touch _ k)).setLaw h
  · exact h

theorem setLaw_passCleared (h : SetLaw s) (l : LaneNo) : SetLaw (s.passCleared l) := by
  have hnoted : SetLaw (s.setPass l .clear) := (PoolStands.setLane s l _).setLaw h
  unfold State.passCleared
  dsimp only
  split
  · exact h
  · split
    · exact (PoolStands.closeLane _ l).setLaw (setLaw_completePass hnoted l)
    · exact hnoted

theorem setLaw_issueExpiry (h : SetLaw s) (n : SetHandle) : SetLaw (s.issueExpiry n) := by
  unfold State.issueExpiry
  dsimp only
  split
  · rename_i hissue
    simp only [Bool.and_eq_true, beq_iff_eq] at hissue
    exact PoolStands.setLaw ((PoolStands.count ((s.cancelIssue n).touchCar (s.slot n).car) (.sets .issueTimeouts) 1).trans
      (PoolStands.of_frame ⟨rfl, rfl, rfl⟩)) (setLaw_endIssue h hissue.1 (s.slot n).car)
  · exact h

/-- A millisecond changes no set but its issue timer, which runs on (R1). -/
theorem setLaw_countMillisecond (h : SetLaw s) : SetLaw s.countMillisecond := by
  have hslot (n : SetHandle) : s.countMillisecond.slot n = { s.slot n with timer := countDown (s.slot n).timer } := by
    rw [State.countMillisecond_eq]
    exact look_ofFn _ _
  have hbays : s.countMillisecond.bays = s.bays := by simp
  have hissuing : s.countMillisecond.issuingCount = s.issuingCount := by
    unfold State.issuingCount State.isIssuing
    simp only [hslot]
  refine ⟨fun b n => ?_, fun n => ?_, fun n => ?_, fun n => ?_, fun n => ?_, fun k n m => ?_, ?_, fun n m => ?_⟩ <;>
    simp only [hslot, hissuing]
  · exact (show s.countMillisecond.bay b = some n ↔ s.bay b = some n by rw [State.bay, hbays, State.bay]).trans (h.bays b n)
  · exact h.docked n
  · exact h.undocked n
  · exact h.withCar n
  · refine Iff.trans ?_ (h.timed n)
    cases (s.slot n).timer <;> simp [countDown]
  · exact (show s.countMillisecond.lentOf k = some (n, m) ↔ _ by rw [lentOf_congr (s := s) (by simp)]; exact h.cars k n m)
  · exact h.limit
  · exact h.serials n m

/-- Every event keeps the laws of the set pool. -/
theorem setLaw_event (he : Event s t) (h : SetLaw s) : SetLaw t := by
  cases he with
  | passCleared l => exact setLaw_passCleared h l
  | entryExpiry l => exact setLaw_entryExpiry h l
  | exitExpiry l => exact setLaw_exitExpiry h l
  | issueExpiry n => exact setLaw_issueExpiry h n
  | countMillisecond => exact setLaw_countMillisecond h
  | _ => exact (PoolStands.of_frame (by simp)).setLaw h

theorem kept_setLaw : Kept SetLaw where
  outside s port phase freeCount pending :=
    PoolStands.setLaw (t := { s with port := port, phase := phase, freeCount := freeCount, pending := pending })
      (PoolStands.of_frame ⟨rfl, rfl, rfl⟩)
  flagged s k := PoolStands.setLaw (t := s.raisePort k) (PoolStands.of_frame ⟨rfl, rfl, rfl⟩)
  change := setLaw_change
  event := setLaw_event

theorem setLaw_partReset (s : State) (select : SelectLine) : SetLaw (s.partReset select) := by
  have hissuing : (s.partReset select).issuingCount = 0 := by
    rw [State.partReset_eq]
    exact List.countP_eq_zero.mpr fun n _ => by simp [State.reset, State.isIssuing, State.slot]
  refine ⟨?_, ?_, ?_, ?_, ?_, ?_, hissuing.trans_le (Nat.zero_le 4), ?_⟩ <;> rw [State.partReset_eq] <;>
    simp [State.reset, State.slot, State.bay, State.car, State.entry, SetState.docks, SetSlot.enrolled]

/-- Settles O49, by what every operation of the pool makes of one slot, its bay and its car. -/
theorem setLawIsKept : Obligations.SetLawIsKept := fun _ _ h he =>
  kept_setLaw.everyStep (fun s => PoolStands.setLaw (t := s.dayClosed) (PoolStands.of_frame ⟨rfl, rfl, rfl⟩))
    (fun s select _ => setLaw_partReset s select) he h

end Sys2Proof.Machine
end

section
/-! PROOF. The stall law and the class law, O44: one lemma for an entry that comes, goes or changes its place, and the
allocation of stalls. -/

namespace Sys2Proof.Machine

variable {s t : State}

/-! ### What the law reads -/

/-- Where a live entry stands. -/
def Car.spot (c : Car) : FieldNo × Stall := (c.field, c.stall)
/-- Where a live entry stands, and its class. -/
def Car.parking (c : Car) : FieldNo × Stall × StallClass := (c.field, c.stall, c.cls)
/-- The size of a field and the bounds of its kinds of stalls (R2). -/
def FieldUnit.shape (u : FieldUnit) : Nat × Nat × Nat × Nat := (u.rows, u.posts, u.tall, u.accessible)
/-- The size of a field, the bounds of its kinds of stalls, and its stall map (R2, R7). -/
def FieldUnit.ground (u : FieldUnit) : (Nat × Nat × Nat × Nat) × Vector (Option CarHandle) 512 := (u.shape, u.stalls)

/-- What the shape of a field decides. -/
theorem FieldUnit.of_shape {u v : FieldUnit} (h : u.shape = v.shape) :
    u.rows = v.rows ∧ (u.Configuration ↔ v.Configuration) ∧ (∀ st, u.has st = v.has st) ∧
      ∀ cls st, u.fits cls st = v.fits cls st := by
  simp only [FieldUnit.shape, Prod.mk.injEq] at h
  obtain ⟨hr, hp, ht, ha⟩ := h
  refine ⟨hr, ?_, fun st => ?_, fun cls st => ?_⟩
  · simp only [FieldUnit.Configuration, hr, hp, ht, ha]
  · simp only [FieldUnit.has, hr, hp]
  · cases cls <;> simp [FieldUnit.fits, FieldUnit.isAccessible, FieldUnit.inTallRow, ht, ha]

@[simp] theorem FieldUnit.shape_setStall (u : FieldUnit) (st : Stall) (h : Option CarHandle) :
    (u.setStall st h).shape = u.shape := rfl
@[simp] theorem FieldUnit.shape_evaluateSign (u : FieldUnit) : u.evaluateSign.shape = u.shape := rfl
@[simp] theorem FieldUnit.at_evaluateSign (u : FieldUnit) (st : Stall) : u.evaluateSign.at st = u.at st := rfl
@[simp] theorem FieldUnit.ground_evaluateSign (u : FieldUnit) : u.evaluateSign.ground = u.ground := rfl

theorem ground_setUnit {f : FieldNo} {u : FieldUnit} (hu : u.ground = (s.unit f).ground) (g : FieldNo) :
    ((s.setUnit f u).unit g).ground = (s.unit g).ground := by
  rw [State.unit_setUnit]
  split
  · rename_i e
    rw [hu, e]
  · rfl

theorem ground_evaluateSign (s : State) (f g : FieldNo) : ((s.evaluateSign f).unit g).ground = (s.unit g).ground :=
  ground_setUnit (u := (s.unit f).evaluateSign) rfl g

/-- The law where no entry comes, goes or changes its place: a field that is lit was so or is configured, and a field that
goes DARK holds no car. -/
theorem stallLaw_congr (hground : ∀ f, (t.unit f).ground = (s.unit f).ground) (hcars : CarsKeep Car.parking s t)
    (hlit : ∀ f, (t.program f).state ≠ .dark → (s.program f).state ≠ .dark ∨ (s.unit f).rows ≠ 0)
    (hdark : ∀ f, (t.program f).state = .dark →
      (s.program f).state = .dark ∨ ∀ h c, s.car h = some c → c.field ≠ f)
    (h : StallLaw s) : StallLaw t := by
  have hat (f : FieldNo) (st : Stall) : (t.unit f).at st = (s.unit f).at st :=
    congrArg (look · st.index) (congrArg Prod.snd (hground f))
  have hshape (f : FieldNo) := FieldUnit.of_shape (congrArg Prod.fst (hground f))
  have before {k : CarHandle} {c : Car} (hc : t.car k = some c) :
      ∃ c', s.car k = some c' ∧ c'.field = c.field ∧ c'.stall = c.stall ∧ c'.cls = c.cls := by
    obtain ⟨c', hc', e⟩ := hcars.before hc
    simp only [Car.parking, Prod.mk.injEq] at e
    exact ⟨c', hc', e⟩
  refine ⟨fun f => ?_, fun f hf => ?_, fun k c hc => ?_, fun k c hc => ?_, fun k c hc => ?_, fun f st k hk => ?_⟩
  · exact (hshape f).2.1.mpr (h.configuration f)
  · rw [(hshape f).1]
    exact (hlit f hf).elim (h.configured f) id
  · obtain ⟨c', hc', hf, hst, -⟩ := before hc
    rw [hat, ← hf, ← hst]
    exact h.parked k c' hc'
  · obtain ⟨c', hc', hf, hst, hcls⟩ := before hc
    obtain ⟨-, -, hhas, hfits⟩ := hshape c.field
    rw [hhas, hfits, ← hf, ← hst, ← hcls]
    exact h.placed k c' hc'
  · obtain ⟨c', hc', hf, -⟩ := before hc
    intro e
    obtain e' | e' := hdark c.field e
    · exact h.lit k c' hc' (hf ▸ e')
    · exact e' k c' hc' hf
  · obtain ⟨c, hc, hf, hst⟩ := h.named f st k ((hat f st).symm.trans hk)
    obtain ⟨c', hc', e⟩ := hcars.after hc
    simp only [Car.parking, Prod.mk.injEq] at e
    exact ⟨c', hc', e.1.trans hf, e.2.1.trans hst⟩

/-- Every field that is DARK stays so, and every other stays lit. -/
def LitStands (s t : State) : Prop := ∀ f, (t.program f).state = .dark ↔ (s.program f).state = .dark

theorem litStands_of_programs (h : t.programs = s.programs) : LitStands s t := fun f => by
  rw [show t.program f = s.program f from congrArg (look · f) h]

theorem litStands_of_put {f : FieldNo} {p : ProgramUnit} (h : t.programs = put s.programs f p)
    (hp : p.state ≠ .dark) (hf : (s.program f).state ≠ .dark) : LitStands s t := by
  intro g
  have hg : t.program g = if f = g then p else s.program g := (congrArg (look · g) h).trans (look_put _ _ _ _)
  rw [hg]
  split
  · rename_i e
    subst e
    simp [hp, hf]
  · rfl

theorem stallLaw_stands (hground : ∀ f, (t.unit f).ground = (s.unit f).ground) (hcars : CarsKeep Car.parking s t)
    (hlit : LitStands s t) (h : StallLaw s) : StallLaw t :=
  stallLaw_congr hground hcars (fun f hf => .inl ((hlit f).not.mp hf)) (fun f hf => .inl ((hlit f).mp hf)) h

/-- One entry comes, goes or changes its place: its new stall is free or its own, and fits it, and the map follows it. -/
theorem StallLaw.replace (h : StallLaw s) {k : CarHandle} (hshape : ∀ f, (t.unit f).shape = (s.unit f).shape)
    (hlit : LitStands s t) (hothers : ∀ j, j ≠ k → (t.car j).map Car.parking = (s.car j).map Car.parking)
    (hat : ∀ f st, (t.unit f).at st =
      if (t.car k).map Car.spot = some (f, st) then some k
      else if (s.car k).map Car.spot = some (f, st) then none else (s.unit f).at st)
    (hnew : ∀ c, t.car k = some c →
      (s.unit c.field).has c.stall = true ∧ (s.unit c.field).fits c.cls c.stall = true ∧
        (s.program c.field).state ≠ .dark ∧
        ((s.unit c.field).at c.stall = none ∨ (s.unit c.field).at c.stall = some k)) : StallLaw t := by
  have hunit (f : FieldNo) := FieldUnit.of_shape (hshape f)
  have before {j : CarHandle} {c : Car} (hj : j ≠ k) (hc : t.car j = some c) :
      ∃ c', s.car j = some c' ∧ c'.field = c.field ∧ c'.stall = c.stall ∧ c'.cls = c.cls := by
    have e := hothers j hj
    rw [hc, Option.map_some] at e
    obtain ⟨c', hc', e⟩ := Option.map_eq_some_iff.mp e.symm
    simp only [Car.parking, Prod.mk.injEq] at e
    exact ⟨c', hc', e⟩
  refine ⟨fun f => ?_, fun f hf => ?_, fun j c hc => ?_, fun j c hc => ?_, fun j c hc => ?_, fun f st j hj => ?_⟩
  · exact (hunit f).2.1.mpr (h.configuration f)
  · rw [(hunit f).1]
    exact h.configured f ((hlit f).not.mp hf)
  · by_cases e : j = k
    · subst e
      rw [hat, hc]
      exact if_pos rfl
    · obtain ⟨c', hc', hf, hst, -⟩ := before e hc
      have hheld : (s.unit c.field).at c.stall = some j := by
        rw [← hf, ← hst]
        exact h.parked j c' hc'
      rw [hat, if_neg, if_neg, hheld]
      · intro e'
        obtain ⟨x, hx, e'⟩ := Option.map_eq_some_iff.mp e'
        simp only [Car.spot, Prod.mk.injEq] at e'
        have := h.parked k x hx
        rw [e'.1, e'.2, hheld] at this
        exact e (Option.some.inj this)
      · intro e'
        obtain ⟨x, hx, e'⟩ := Option.map_eq_some_iff.mp e'
        simp only [Car.spot, Prod.mk.injEq] at e'
        obtain ⟨-, -, -, hfree⟩ := hnew x hx
        rw [e'.1, e'.2, hheld] at hfree
        simp [e] at hfree
  · obtain ⟨-, -, hhas, hfits⟩ := hunit c.field
    rw [hhas, hfits]
    by_cases e : j = k
    · subst e
      exact ⟨(hnew c hc).1, (hnew c hc).2.1⟩
    · obtain ⟨c', hc', hf, hst, hcls⟩ := before e hc
      rw [← hf, ← hst, ← hcls]
      exact h.placed j c' hc'
  · rw [ne_eq, hlit]
    by_cases e : j = k
    · subst e
      exact (hnew c hc).2.2.1
    · obtain ⟨c', hc', hf, -⟩ := before e hc
      exact hf ▸ h.lit j c' hc'
  · rw [hat] at hj
    split at hj
    · rename_i e
      obtain rfl := Option.some.inj hj
      obtain ⟨x, hx, e⟩ := Option.map_eq_some_iff.mp e
      simp only [Car.spot, Prod.mk.injEq] at e
      exact ⟨x, hx, e⟩
    · split at hj
      · cases hj
      · rename_i hold
        obtain ⟨c, hc, hf, hst⟩ := h.named f st j hj
        have e : j ≠ k := by
          rintro rfl
          exact hold (by rw [hc, Option.map_some, Car.spot, hf, hst])
        have e' := hothers j e
        rw [hc, Option.map_some] at e'
        obtain ⟨c', hc', e'⟩ := Option.map_eq_some_iff.mp e'
        simp only [Car.parking, Prod.mk.injEq] at e'
        exact ⟨c', hc', e'.1.trans hf, e'.2.1.trans hst⟩

/-! ### The allocation of stalls (R10 to R14) -/

theorem stallOf_eq_some_iff {row post : Nat} {st : Stall} : stallOf row post = some st ↔ st.row = row ∧ st.post = post := by
  obtain ⟨r, p⟩ := st
  unfold stallOf Stall.row Stall.post
  by_cases hr : row - 1 < 16 <;> by_cases hp : post - 1 < 32 <;>
    simp only [handle?_of_lt, handle?_of_ge, hr, hp, not_lt.mp, not_false_eq_true, reduceCtorEq, false_iff, not_and]
  · by_cases hrange : 1 ≤ row ∧ 1 ≤ post
    · rw [if_pos hrange]
      simp only [Option.some.injEq, Stall.mk.injEq, Fin.ext_iff]
      omega
    · rw [if_neg hrange]
      simp only [reduceCtorEq, false_iff, not_and]
      omega
  all_goals omega

theorem mem_centreOut {posts post : Nat} : post ∈ centreOut posts ↔ 1 ≤ post ∧ post ≤ posts := by
  simp only [centreOut, List.mem_flatMap, List.mem_range, List.mem_filter, List.mem_range'_1, beq_iff_eq, postKey]
  constructor
  · rintro ⟨key, -, h, -⟩
    omega
  · intro h
    exact ⟨_, by omega, by omega, rfl⟩

theorem mem_rowsInOrder {u : FieldUnit} {first last : Nat} {st : Stall} :
    st ∈ u.rowsInOrder first last ↔ first ≤ st.row ∧ st.row ≤ last ∧ st.post ≤ u.posts := by
  simp only [FieldUnit.rowsInOrder, List.mem_flatMap, List.mem_range'_1, List.mem_filterMap, mem_centreOut,
    stallOf_eq_some_iff]
  constructor
  · rintro ⟨row, hrow, post, hpost, rfl, rfl⟩
    omega
  · rintro ⟨h1, h2, h3⟩
    have hpost : 1 ≤ st.post := Nat.succ_le_succ (Nat.zero_le _)
    exact ⟨st.row, by omega, st.post, ⟨hpost, h3⟩, rfl, rfl⟩

/-- A stall that the field unit offers to a class exists, is free, is open, and fits the class (R11 to R13). -/
theorem mem_offers {u : FieldUnit} (hu : u.Configuration) {cls : StallClass} {st : Stall} (h : st ∈ u.offers cls) :
    u.has st = true ∧ u.rowOpen st = true ∧ u.isFree st = true ∧ u.fits cls st = true := by
  have hrow : 1 ≤ st.row := Nat.succ_le_succ (Nat.zero_le _)
  have standard (h : st ∈ u.standardOffers) :
      u.has st = true ∧ u.rowOpen st = true ∧ u.isFree st = true ∧ u.fits .standard st = true := by
    simp only [FieldUnit.standardOffers, List.mem_filter, List.mem_append, mem_rowsInOrder, FieldUnit.isCandidate,
      Bool.and_eq_true] at h
    obtain ⟨hrows, ⟨hfree, hopen⟩, hkind⟩ := h
    refine ⟨?_, hopen, hfree, hkind⟩
    simp only [FieldUnit.has, Bool.and_eq_true, decide_eq_true_eq]
    rcases hu with hu | hu <;> omega
  cases cls with
  | standard => exact standard h
  | tall =>
    simp only [FieldUnit.offers, FieldUnit.tallOffers, List.mem_filter, mem_rowsInOrder, FieldUnit.isCandidate,
      Bool.and_eq_true] at h
    obtain ⟨hrows, ⟨hfree, hopen⟩, hkind⟩ := h
    refine ⟨?_, hopen, hfree, ?_⟩
    · simp only [FieldUnit.has, Bool.and_eq_true, decide_eq_true_eq]
      omega
    · simp only [FieldUnit.fits, FieldUnit.inTallRow, Bool.and_eq_true, decide_eq_true_eq]
      exact ⟨hkind, hrows.1⟩
  | accessible =>
    simp only [FieldUnit.offers, List.mem_append] at h
    rcases h with h | h
    · simp only [FieldUnit.accessibleOffers, List.mem_filter, List.mem_filterMap, List.mem_range'_1, stallOf_eq_some_iff,
        Bool.and_eq_true] at h
      obtain ⟨⟨post, hpost, hr, rfl⟩, hfree, hopen⟩ := h
      refine ⟨?_, hopen, hfree, rfl⟩
      simp only [FieldUnit.has, Bool.and_eq_true, decide_eq_true_eq]
      rcases hu with hu | hu <;> omega
    · obtain ⟨hhas, hopen, hfree, -⟩ := standard h
      exact ⟨hhas, hopen, hfree, rfl⟩

/-- The stall that a request gets exists, is free, is open, and fits the class (R11 to R14). -/
theorem choose_spec {u : FieldUnit} (hu : u.Configuration) {cls : StallClass} {named : Option Stall} {st : Stall}
    (h : u.choose cls named = .ok st) :
    u.has st = true ∧ u.rowOpen st = true ∧ u.isFree st = true ∧ u.fits cls st = true := by
  unfold FieldUnit.choose at h
  split at h
  · split at h
    · rename_i hhead
      cases h
      exact mem_offers hu (List.mem_of_head? hhead)
    · cases h
  · split at h
    · rename_i hnamed
      cases h
      simpa only [FieldUnit.takesNamed, Bool.and_eq_true, and_assoc] using hnamed
    · cases h

/-- A field whose stalls hold no handle holds no car (R9). -/
theorem StallLaw.field_ne_of_empty (h : StallLaw s) {f : FieldNo} (hf : (s.unit f).occupancy = 0) (k : CarHandle) (c : Car)
    (hc : s.car k = some c) : c.field ≠ f := by
  rintro rfl
  obtain ⟨hhas, -⟩ := h.placed k c hc
  have hmem : c.stall ∈ (s.unit c.field).allStalls := by
    simp only [FieldUnit.allStalls, List.mem_flatMap, List.mem_filter, List.mem_map]
    exact ⟨c.stall.rowIx, List.mem_finRange _, ⟨c.stall.postIx, List.mem_finRange _, rfl⟩, hhas⟩
  have hfree := (List.countP_eq_zero.mp hf) c.stall hmem
  rw [FieldUnit.isFree, h.parked k c hc] at hfree
  exact hfree rfl

end Sys2Proof.Machine
end

section
/-! PROOF. The retirement of an entry, record by record, and the stall law at every step, the first half of O44. -/

namespace Sys2Proof.Machine

variable {s t : State}

/-! ### What a retirement writes -/

theorem carsKeep_setCarSet (s : State) (h : Option CarHandle) (x : Option (SetHandle × SetMark)) :
    CarsKeep Car.bare s (s.setCarSet h x) := by
  cases h with
  | none => exact CarsKeep.refl s
  | some k => exact CarsKeep.modCar s k (g := fun c => { c with lent := x }) fun _ => rfl

theorem carsKeep_cancelIssue (s : State) (n : SetHandle) : CarsKeep Car.bare s (s.cancelIssue n) := by
  unfold State.cancelIssue
  exact carsKeep_setCarSet (s.setSlot n _) _ _

theorem carsKeep_setAtRetirement (s : State) (c : Car) : CarsKeep Car.bare s (s.setAtRetirement c) := by
  unfold State.setAtRetirement
  split
  · exact CarsKeep.refl s
  · exact (carsKeep_setCarSet (s.setSlot _ _) _ none).trans (CarsKeep.of_entries rfl)
  · exact carsKeep_cancelIssue s _

/-- The entries that a retirement leaves: its own VACANT, and the others with what they held, list and set apart (R38). -/
theorem retireCar_others {h : CarHandle} {c : Car} (hcar : s.car h = some c) (cause : RetireCause) :
    (s.retireCar h cause).car h = none ∧
      ∀ k, k ≠ h → ((s.retireCar h cause).car k).map Car.bare = (s.car k).map Car.bare := by
  refine ⟨by rw [retireCar_car hcar, if_pos rfl], fun k hk => ?_⟩
  rw [retireCar_car hcar, if_neg (Ne.symm hk)]
  exact carsKeep_setAtRetirement s c k

/-- The map and the sign that a retirement leaves (R38, R19). -/
theorem retireCar_fieldUnits {h : CarHandle} {c : Car} (hcar : s.car h = some c) (cause : RetireCause) :
    (s.retireCar h cause).fieldUnits = put s.fieldUnits c.field
      (if cause = .forceClose then (s.unit c.field).setStall c.stall none
       else ((s.unit c.field).setStall c.stall none).evaluateSign) := by
  have hunits : ((s.setAtRetirement c).ordersAtRetirement h c).fieldUnits = s.fieldUnits := by simp
  have hunit : ((s.setAtRetirement c).ordersAtRetirement h c).unit c.field = s.unit c.field :=
    congrArg (look · c.field) hunits
  unfold State.retireCar
  rw [hcar]
  simp only [beq_iff_eq]
  by_cases hforce : cause = .forceClose
  · subst hforce
    simp [State.setStall, State.setUnit, hunit]
  · simp only [hforce, if_false]
    split <;> simp [State.setStall, State.setUnit, State.evaluateSign, State.unit, put_put]

theorem lanesLoseCar_lanes (s : State) (h : CarHandle) :
    (s.lanesLoseCar h).lanes =
      Vector.ofFn fun l => if (s.lane l).served = some h then { s.lane l with served := none } else s.lane l := by
  have e := State.forEach_table (fun v => { s with lanes := v })
    (fun _ x => if x.served = some h then { x with served := none } else x)
    (fun l acc => if (acc.lane l).served == some h then acc.setLane l { acc.lane l with served := none } else acc)
    (fun l v => by
      simp only [beq_iff_eq, State.lane]
      split
      · rfl
      · exact congrArg (fun w => { s with lanes := w }) (put_look v l).symm) s.lanes
  exact congrArg State.lanes e

/-- The lanes that a retirement leaves: each that served the entry serves none, and nothing else changes (R38, R58). -/
theorem retireCar_lane {h : CarHandle} {c : Car} (hcar : s.car h = some c) (cause : RetireCause) (l : LaneNo) :
    (s.retireCar h cause).lane l =
      if (s.lane l).served = some h then { s.lane l with served := none } else s.lane l := by
  have hlanes : (s.retireCar h cause).lanes = (s.lanesLoseCar h).lanes := by
    have hbefore : (((s.setAtRetirement c).ordersAtRetirement h c).setStall c.field c.stall none).lanes = s.lanes := by simp
    have hlose := lanesLoseCar_lanes (((s.setAtRetirement c).ordersAtRetirement h c).setStall c.field c.stall none) h
    simp only [State.lane, hbefore] at hlose
    rw [lanesLoseCar_lanes]
    refine Eq.trans ?_ hlose
    unfold State.retireCar
    rw [hcar]
    dsimp only
    split <;> split <;> simp
  rw [State.lane, hlanes, lanesLoseCar_lanes, look_ofFn]

/-! ### The stall law through the changes -/

theorem FieldUnit.at_put (u : FieldUnit) (v : Vector (Option CarHandle) 512) (st : Stall)
    (h : u.stalls = v) : u.at st = look v st.index := by rw [FieldUnit.at, h]

theorem stallLaw_retireCar (h : StallLaw s) (k : CarHandle) (cause : RetireCause) : StallLaw (s.retireCar k cause) := by
  cases hcar : s.car k with
  | none =>
    unfold State.retireCar
    rw [hcar]
    exact h
  | some c =>
    obtain ⟨hnone, hothers⟩ := retireCar_others hcar cause
    have hunit (f : FieldNo) : (s.retireCar k cause).unit f =
        if c.field = f then (if cause = .forceClose then (s.unit c.field).setStall c.stall none
          else ((s.unit c.field).setStall c.stall none).evaluateSign) else s.unit f :=
      (congrArg (look · f) (retireCar_fieldUnits hcar cause)).trans (look_put _ _ _ _)
    refine h.replace (k := k) (fun f => ?_) (litStands_of_programs (by simp)) (fun j hj => ?_) (fun f st => ?_) fun c' hc' => ?_
    · rw [hunit]
      split
      · rename_i e
        subst e
        split <;> rfl
      · rfl
    · have e := congrArg (Option.map Car.parking) (hothers j hj)
      rw [Option.map_map, Option.map_map] at e
      exact e
    · rw [hunit, hnone, hcar]
      simp only [Option.map_none, reduceCtorEq, if_false, Option.map_some, Car.spot, Option.some.injEq, Prod.mk.injEq]
      by_cases e : c.field = f
      · subst e
        simp only [if_true, true_and]
        split <;> simp [FieldUnit.at_setStall]
      · simp [e]
    · rw [hnone] at hc'
      cases hc'

/-- A stall written in each of two fields' maps, with the signs evaluated, reads as written. -/
theorem stallLaw_moveCar (h : StallLaw s) {k : CarHandle} {c : Car} {f : FieldNo} {st : Stall} {named : Option Stall}
    (hcar : s.car k = some c) (hlit : (s.program f).state ≠ .dark)
    (hchosen : (s.unit f).choose c.cls named = .ok st) : StallLaw (s.moveCar k c f st) := by
  obtain ⟨hhas, -, hfree, hfits⟩ := choose_spec (h.configuration f) hchosen
  have hfree' : (s.unit f).at st = none := by simpa [FieldUnit.isFree] using hfree
  have hground (g : FieldNo) : ((s.moveCar k c f st).unit g).ground =
      (((s.setStall f st (some k)).setStall c.field c.stall none).unit g).ground := by
    unfold State.moveCar
    dsimp only
    split
    · exact ground_evaluateSign _ _ g
    · exact (ground_evaluateSign _ _ g).trans (ground_evaluateSign _ _ g)
  have hentries : (s.moveCar k c f st).entries = (s.setCar k (some { c with field := f, stall := st })).entries := by
    unfold State.moveCar
    dsimp only
    split <;> simp [State.setCar, State.setEntry, State.entry]
  have hcars (j : CarHandle) : (s.moveCar k c f st).car j = if k = j then some { c with field := f, stall := st } else s.car j :=
    (congrArg (fun v => (look v j).car) hentries).trans (State.car_setCar s k j _)
  refine h.replace (k := k) (fun g => ?_) (litStands_of_programs (by simp)) (fun j hj => ?_) (fun g st' => ?_) fun c' hc' => ?_
  · refine (congrArg Prod.fst (hground g)).trans ?_
    simp only [State.setStall, State.unit_setUnit, FieldUnit.ground]
    split
    · rename_i e
      subst e
      split
      · rename_i e'
        exact congrArg (fun i => (s.unit i).shape) e'
      · rfl
    · split
      · rename_i e
        subst e
        rfl
      · rfl
  · rw [hcars, if_neg (Ne.symm hj)]
  · refine (congrArg (fun x => look (Prod.snd x) st'.index) (hground g)).trans ?_
    refine (show _ = (((s.setStall f st (some k)).setStall c.field c.stall none).unit g).at st' from rfl).trans ?_
    have hown := h.parked k c hcar
    rw [hcars, if_pos rfl, hcar]
    simp only [State.setStall, State.unit_setUnit, Option.map_some, Car.spot, Option.some.injEq, Prod.mk.injEq]
    by_cases e : c.field = g <;> by_cases e' : f = g
    · subst e
      subst e'
      by_cases hst : c.stall = st'
      · by_cases hst' : st = st'
        · rw [hst', ← hst, hown] at hfree'
          cases hfree'
        · simp [FieldUnit.at_setStall, hst, hst']
      · simp [FieldUnit.at_setStall, hst]
    · subst e
      simp [FieldUnit.at_setStall, e']
    · subst e'
      simp [FieldUnit.at_setStall, e]
    · simp [e, e']
  · rw [hcars, if_pos rfl] at hc'
    cases hc'
    exact ⟨hhas, hfits, hlit, .inl hfree'⟩

theorem stallLaw_admission (h : StallLaw s) (q : AdmitRequest) {k : CarHandle} {st : Stall}
    (hadmits : (s.program q.field).state.admits = true) (hvacant : s.vacantEntry = some k)
    (hchosen : (s.unit q.field).choose q.cls q.named = .ok st) : StallLaw (s.admitInto q k st) := by
  obtain ⟨hhas, -, hfree, hfits⟩ := choose_spec (h.configuration q.field) hchosen
  have hfree' : (s.unit q.field).at st = none := by simpa [FieldUnit.isFree] using hfree
  have hempty : s.car k = none := by simpa using (lowest_spec hvacant).1
  have hlit : (s.program q.field).state ≠ .dark := fun e => by rw [e] at hadmits; cases hadmits
  have hcars (j : CarHandle) : (s.admitInto q k st).car j = if k = j then some (q.car st s.nextSerial) else s.car j := by
    have hentries : (s.admitInto q k st).entries = (s.setCar k (some (q.car st s.nextSerial))).entries := by
      simp [State.admitInto]
    exact (congrArg (fun v => (look v j).car) hentries).trans (State.car_setCar s k j _)
  have hunit (f : FieldNo) : (s.admitInto q k st).unit f =
      if q.field = f then ((s.unit q.field).setStall st (some k)).evaluateSign else s.unit f := by
    have hunits : (s.admitInto q k st).fieldUnits =
        put s.fieldUnits q.field ((s.unit q.field).setStall st (some k)).evaluateSign := by
      simp [State.admitInto, State.evaluateSign, State.setStall, State.setUnit, State.unit, put_put]
    exact (congrArg (look · f) hunits).trans (look_put _ _ _ _)
  refine h.replace (k := k) (fun f => ?_) (litStands_of_programs (by simp)) (fun j hj => ?_) (fun f st' => ?_) fun c' hc' => ?_
  · rw [hunit]
    split
    · rename_i e
      subst e
      rfl
    · rfl
  · rw [hcars, if_neg (Ne.symm hj)]
  · rw [hunit, hcars, if_pos rfl, hempty]
    simp only [Option.map_some, Option.map_none, reduceCtorEq, if_false, Car.spot, AdmitRequest.car, Option.some.injEq,
      Prod.mk.injEq]
    by_cases e : q.field = f
    · subst e
      simp [FieldUnit.at_setStall]
    · simp [e]
  · rw [hcars, if_pos rfl] at hc'
    cases hc'
    exact ⟨hhas, hfits, hlit, .inl hfree'⟩

theorem stallLaw_configureField (h : StallLaw s) {f : FieldNo} {u : FieldUnit} (hdark : (s.program f).state = .dark)
    (hu : u.Configuration) (hstalls : u.stalls = Vector.replicate 512 none) : StallLaw (s.setUnit f u) := by
  have hunit (g : FieldNo) : (s.setUnit f u).unit g = if f = g then u else s.unit g := State.unit_setUnit s f g u
  have hne {k : CarHandle} {c : Car} (hc : s.car k = some c) : f ≠ c.field := fun e => h.lit k c hc (e ▸ hdark)
  refine ⟨fun g => ?_, fun g hg => ?_, fun k c hc => ?_, fun k c hc => ?_, fun k c hc => h.lit k c hc, fun g st k hk => ?_⟩
  · rw [hunit]
    split
    exacts [hu, h.configuration g]
  · rw [hunit, if_neg]
    · exact h.configured g hg
    · rintro rfl
      exact hg hdark
  · rw [hunit, if_neg (hne hc)]
    exact h.parked k c hc
  · rw [hunit, if_neg (hne hc)]
    exact h.placed k c hc
  · rw [hunit] at hk
    split at hk
    · rw [FieldUnit.at, hstalls, look_replicate] at hk
      cases hk
    · exact h.named g st k hk

/-! ### The force-close cascade -/

/-- The cascade leaves the field without a car, and its other effects keep the law (R86). -/
theorem cascade_empties (s : State) (f : FieldNo) (k : CarHandle) (c : Car) (hc : (s.cascade f).car k = some c) :
    c.field ≠ f := by
  have walk (hs : List CarHandle) (t : State) :
      (∀ k c, (t.forEach hs fun h acc => acc.retireCar h .forceClose).car k = some c →
        k ∉ hs ∧ ∃ c', t.car k = some c' ∧ c'.field = c.field) := by
    induction hs generalizing t with
    | nil => exact fun k c hc => ⟨by simp, c, hc, rfl⟩
    | cons h rest ih =>
      intro k c hc
      obtain ⟨hk, c', hc', hf⟩ := ih (t.retireCar h .forceClose) k c hc
      cases hcar : t.car h with
      | none =>
        have hsame : t.retireCar h .forceClose = t := by
          unfold State.retireCar
          rw [hcar]
        rw [hsame] at hc'
        refine ⟨?_, c', hc', hf⟩
        simp only [List.mem_cons, not_or]
        exact ⟨fun e => (by rw [e, hcar] at hc'; cases hc'), hk⟩
      | some x =>
        obtain ⟨hnone, hothers⟩ := retireCar_others hcar .forceClose
        have hne : k ≠ h := fun e => by rw [e, hnone] at hc'; cases hc'
        have e := hothers k hne
        rw [hc', Option.map_some] at e
        obtain ⟨c'', hc'', e⟩ := Option.map_eq_some_iff.mp e.symm
        refine ⟨by simp [hne, hk], c'', hc'', ?_⟩
        exact (congrArg Car.field e).trans hf
  obtain ⟨hk, c', hc', hf⟩ := walk (s.carsOf f) s k c hc
  rintro rfl
  refine hk (List.mem_filter.mpr ⟨List.mem_finRange k, ?_⟩)
  rw [hc']
  simpa using hf

theorem stallLaw_cascade (h : StallLaw s) (f : FieldNo) : StallLaw (s.cascade f) :=
  State.forEach_induct StallLaw s _ _ (fun k _ _ ht => stallLaw_retireCar ht k .forceClose) h

/-- A field without a car goes DARK (R87). -/
theorem stallLaw_goDark (h : StallLaw s) {f : FieldNo} (hempty : ∀ k c, s.car k = some c → c.field ≠ f) :
    StallLaw (s.goDark f) := by
  have hprograms (g : FieldNo) : ((s.goDark f).program g).state = if f = g then .dark else (s.program g).state := by
    have e : (s.goDark f).program g = if f = g then ({ s.program f with
        record := .empty, state := .dark, segment := 0, frame := 0, txen := false } : ProgramUnit).withCues
        else s.program g := by
      have e : (s.goDark f).programs = put s.programs f ({ s.program f with
          record := .empty, state := .dark, segment := 0, frame := 0, txen := false } : ProgramUnit).withCues := by
        simp [State.goDark, State.setProgram]
      exact (congrArg (look · g) e).trans (look_put _ _ _ _)
    rw [e]
    split <;> rfl
  refine stallLaw_congr (fun g => ?_) (CarsKeep.of_entries (by simp)) (fun g hg => ?_) (fun g hg => ?_) h
  · have e : (s.goDark f).fieldUnits = put s.fieldUnits f { s.unit f with full := false } := by
      simp [State.goDark, State.setUnit]
    refine (congrArg (fun v => (look v g).ground) e).trans ?_
    exact ground_setUnit (u := { s.unit f with full := false }) rfl g
  · rw [hprograms] at hg
    split at hg
    exacts [absurd rfl hg, .inl hg]
  · rw [hprograms] at hg
    split at hg
    · rename_i e
      exact .inr fun k c hc => e ▸ hempty k c hc
    · exact .inl hg

end Sys2Proof.Machine
end

section
/-! PROOF. The stall law at every step, the first half of O44. -/

namespace Sys2Proof.Machine

variable {s t : State}

/-! ### The set pool leaves the cars as they are, their sets apart -/

theorem carsKeep_touchCar {α : Type} {π : Car → α} (h : CarsKeep π s t) (c : Option CarHandle) :
    CarsKeep π s (t.touchCar c) := h.trans (CarsKeep.touchCar t c)

theorem carsKeep_entries {α : Type} {π : Car → α} {u : State} (h : CarsKeep π s t) (he : u.entries = t.entries) :
    CarsKeep π s u := h.trans (CarsKeep.of_entries he)

theorem carsKeep_issueSet (s : State) (n : SetHandle) (k : CarHandle) (c : Car) :
    CarsKeep Car.bare s (s.issueSet n k c) := carsKeep_setCarSet (s.setSlot n _) _ _

theorem carsKeep_displace (s : State) (n : SetHandle) : CarsKeep Car.bare s (s.displace n) := by
  unfold State.displace
  dsimp only
  split
  · exact carsKeep_entries (carsKeep_touchCar (carsKeep_cancelIssue s n) (s.slot n).car) (by simp)
  all_goals exact CarsKeep.of_entries (by simp)

theorem carsKeep_undockFrom (s : State) (n : Option SetHandle) : CarsKeep Car.bare s (s.undockFrom n) := by
  unfold State.undockFrom
  split
  · exact CarsKeep.refl s
  · exact carsKeep_displace s _

theorem carsKeep_arrive (s : State) (n : SetHandle) (b : BayNo) (level : Nat) :
    CarsKeep Car.bare s (s.arrive n b level) := by
  unfold State.arrive
  dsimp only
  split
  · exact carsKeep_entries (carsKeep_touchCar (carsKeep_cancelIssue s n) (s.slot n).car) (by simp)
  · refine carsKeep_entries (carsKeep_touchCar
      (carsKeep_setCarSet (s.setSlot n { s.slot n with car := none }) (s.slot n).car none) (s.slot n).car) (by simp)
  all_goals exact CarsKeep.of_entries (by simp [State.dockAt])

theorem carsKeep_completeLend (s : State) (b : BayNo) (n : SetHandle) :
    CarsKeep Car.bare s ((s.liftFrom b n).completeLend n) := by
  have lifted : CarsKeep Car.bare s (s.liftFrom b n) := CarsKeep.of_entries (by simp)
  exact lifted.trans (carsKeep_entries (carsKeep_touchCar (carsKeep_setCarSet ((s.liftFrom b n).setSlot n _) _ _) _) rfl)

theorem carsKeep_failSet (s : State) (n : SetHandle) : CarsKeep Car.bare s (s.failSet n) := by
  unfold State.failSet
  dsimp only
  split
  · exact carsKeep_entries (carsKeep_touchCar (carsKeep_cancelIssue s n) (s.slot n).car) (by simp)
  · exact CarsKeep.of_entries (by simp)

theorem carsKeep_issueExpiry (s : State) (n : SetHandle) : CarsKeep Car.bare s (s.issueExpiry n) := by
  unfold State.issueExpiry
  dsimp only
  split
  · exact carsKeep_entries (carsKeep_touchCar (carsKeep_cancelIssue s n) _) rfl
  · exact CarsKeep.refl s

theorem CarsKeep.parking (h : CarsKeep Car.bare s t) : CarsKeep Car.parking s t :=
  h.weaken (r := Car.parking) Car.parking fun _ => rfl

theorem CarsKeep.bare (h : CarsStand s t) : CarsKeep Car.bare s t := h.weaken (r := Car.bare) Car.bare fun _ => rfl

/-- The entry that DEPART ends (R54), and every other as the set pool leaves it. -/
theorem departCar_cars (s : State) (l : LaneNo) {k : CarHandle} {c : Car} (hcar : s.car k = some c) :
    (∃ c' : Car, (s.departCar l k c).car k = some { c' with state := .leaving, lent := none } ∧ c'.bare = c.bare) ∧
      ∀ j, j ≠ k → ((s.departCar l k c).car j).map Car.bare = (s.car j).map Car.bare := by
  have hsettled : ∃ u : State, CarsKeep Car.bare s u ∧ (s.departCar l k c).entries =
      (u.modCar k fun x => { x with state := .leaving, lent := none }).entries := by
    unfold State.departCar
    split
    · exact ⟨_, carsKeep_cancelIssue s _, rfl⟩
    · exact ⟨s, CarsKeep.refl s, rfl⟩
  obtain ⟨u, hu, hentries⟩ := hsettled
  have hcars (j : CarHandle) : (s.departCar l k c).car j =
      (u.modCar k fun x => { x with state := .leaving, lent := none }).car j := congrArg (fun v => (look v j).car) hentries
  obtain ⟨c', hc', hbare⟩ := hu.after hcar
  refine ⟨⟨c', ?_, hbare⟩, fun j hj => ?_⟩
  · rw [hcars, State.car_modCar, if_pos rfl, hc']
    rfl
  · rw [hcars, State.car_modCar, if_neg (Ne.symm hj)]
    exact hu j

/-! ### The stall law at every change and event -/

theorem PlayMove.lit {p p' : ProgramUnit} {x x' : Timebase} (h : PlayMove p x p' x') :
    p'.state = .dark ↔ p.state = .dark := by
  have advanced (q : ProgramUnit) (k : Nat) : (q.advanced k).state = .dark ↔ q.state = .dark := by
    by_cases hq : q.state = .running
    · unfold ProgramUnit.advanced
      rw [if_pos hq]
      split <;> simp [hq]
    · rw [ProgramUnit.advanced_of_not_running hq]
  have shown {st : FieldState} (h : st.inShow = true) : st ≠ .dark := fun e => by rw [e] at h; cases h
  cases h with
  | started opened => simp [opened]
  | paused state => rcases state with e | e <;> simp [e]
  | resumed paused => simp [paused]
  | skipped inShow => simp
  | skippedOut inShow => simp [shown inShow]
  | ended inShow => simp [shown inShow]
  | referred => exact advanced p 1
  | measured => exact advanced p 1
  | updated k => exact advanced p k
  | recovered =>
    refine (advanced _ 1).trans ?_
    unfold ProgramUnit.restarted
    split
    · rename_i e
      simp [e]
    · rfl
  | lost =>
    unfold ProgramUnit.stalled
    split
    · rename_i e
      simp [e]
    · rfl
  | _ => rfl

theorem PlayMoves.litStands (h : PlayMoves s t) : LitStands s t := fun f => (h f).lit

theorem stallLaw_amend (h : StallLaw s) {k : CarHandle} {c c' : Car} (hcar : s.car k = some c) (hspot : c'.spot = c.spot)
    (hfits : (s.unit c.field).fits c'.cls c.stall = true) : StallLaw (s.setCar k (some c')) := by
  simp only [Car.spot, Prod.mk.injEq] at hspot
  obtain ⟨hfield, hstall⟩ := hspot
  refine h.replace (k := k) (fun _ => rfl) (fun _ => Iff.rfl) (fun j hj => ?_) (fun f st => ?_) fun x hx => ?_
  · rw [State.car_setCar_ne _ _ (Ne.symm hj)]
  · rw [State.car_setCar_self, hcar]
    simp only [Option.map_some, Car.spot, hfield, hstall, Option.some.injEq, Prod.mk.injEq, State.unit_of_setCar]
    split
    · rename_i e
      rw [← e.1, ← e.2]
      exact h.parked k c hcar
    · rfl
  · rw [State.car_setCar_self] at hx
    cases hx
    rw [hfield, hstall]
    exact ⟨(h.placed k c hcar).1, hfits, h.lit k c hcar, .inr (h.parked k c hcar)⟩

theorem stallLaw_change (hc : Change s t) (h : StallLaw s) : StallLaw t := by
  have stands {u : State} (hunits : u.fieldUnits = s.fieldUnits) (hcars : CarsKeep Car.parking s u)
      (hlit : LitStands s u) : StallLaw u :=
    stallLaw_stands (fun f => by rw [show u.unit f = s.unit f from congrArg (look · f) hunits]) hcars hlit h
  have bare {u : State} (hu : u.fieldUnits = s.fieldUnits ∧ u.programs = s.programs) (hcars : CarsKeep Car.bare s u) :
      StallLaw u := stands hu.1 hcars.parking (litStands_of_programs hu.2)
  have frame {u : State} (hu : u.fieldUnits = s.fieldUnits ∧ u.programs = s.programs ∧ u.entries = s.entries) :
      StallLaw u := bare ⟨hu.1, hu.2.1⟩ (CarsKeep.of_entries hu.2.2)
  have edit {k : CarHandle} {c c' : Car} (hcar : s.car k = some c) (hc' : c'.parking = c.parking) :
      StallLaw (s.setCar k (some c')) :=
    stands rfl (CarsKeep.setCar (by rw [hcar]; exact congrArg some hc')) fun _ => Iff.rfl
  have show' {u : State} {f : FieldNo} {p : ProgramUnit}
      (hu : u.fieldUnits = s.fieldUnits ∧ u.entries = s.entries) (hp : u.programs = put s.programs f p)
      (hlit : p.state ≠ .dark) (hf : (s.program f).state ≠ .dark) : StallLaw u :=
    stands hu.1 (CarsKeep.of_entries hu.2) (litStands_of_put hp hlit hf)
  have shown {st : FieldState} (h : st.inShow = true) : st ≠ .dark := fun e => by rw [e] at h; cases h
  cases hc with
  | configureField f rows posts tall accessible channel signOn signOff dark size bounds =>
    exact stallLaw_configureField h dark
      (.inr ⟨size.1, size.2.1, size.2.2.1, size.2.2.2, bounds.1, bounds.2.1, bounds.2.2.1, bounds.2.2.2⟩) rfl
  | writeClosedRows f closed =>
    refine stallLaw_stands (fun g => ?_) (CarsKeep.of_entries (by simp [State.writeClosedRows, State.ok]))
      (litStands_of_programs (by simp [State.writeClosedRows, State.ok])) h
    have closedGround := ground_setUnit (s := s) (f := f) (u := { s.unit f with closed := closed }) rfl g
    unfold State.writeClosedRows State.evaluateSignIfLit State.ok
    dsimp only
    split
    · exact closedGround
    · exact (ground_evaluateSign _ f g).trans closedGround
  | beginProgram f header dark =>
    refine stands rfl (CarsKeep.refl s) fun g => ?_
    rw [State.program_setProgram]
    split
    · rename_i e
      rw [← e]
    · rfl
  | addSegment f header segs seg dark =>
    refine stands rfl (CarsKeep.refl s) fun g => ?_
    rw [State.program_setProgram]
    split
    · rename_i e
      rw [← e]
    · rfl
  | openField f header segs dark configured =>
    have hprograms : (s.openFieldWith f header segs).programs = put s.programs f ({ s.program f with
        record := .loaded header segs, state := .opened, segment := 0, frame := 0, txen := true } :
          ProgramUnit).withCues := by simp [State.openFieldWith, State.setProgram]
    have hprogram (g : FieldNo) : ((s.openFieldWith f header segs).program g).state =
        if f = g then .opened else (s.program g).state := by
      have e := (congrArg (look · g) hprograms).trans (look_put _ _ _ _)
      refine (congrArg ProgramUnit.state e).trans ?_
      split <;> rfl
    refine stallLaw_congr (fun g => ?_) (CarsKeep.of_entries (by simp)) (fun g hg => ?_) (fun g hg => ?_) h
    · have hunits : (s.openFieldWith f header segs).fieldUnits = (s.evaluateSign f).fieldUnits := by
        simp [State.openFieldWith, State.evaluateSign, State.setUnit]
      exact (congrArg (fun v => (look v g).ground) hunits).trans (ground_evaluateSign s f g)
    · rw [hprogram] at hg
      split at hg
      · rename_i e
        exact .inr (e ▸ configured)
      · exact .inl hg
    · rw [hprogram] at hg
      split at hg
      · cases hg
      · exact .inl hg
  | startShow f opened =>
    exact show' (by simp) (by simp [State.setProgram]; rfl) (by simp) (by simp [opened])
  | pauseShow f state =>
    exact show' (by simp) (by simp [State.setProgram]; rfl) (by simp) (by rcases state with e | e <;> simp [e])
  | resumeShow f paused =>
    exact show' (by simp) (by simp [State.setProgram]; rfl) (by simp) (by simp [paused])
  | skipSegment f inShow =>
    unfold State.skipSegment
    dsimp only
    split
    · refine show' (by simp) (by simp [State.setProgram]; rfl) ?_ (shown inShow)
      exact shown inShow
    · exact show' (by simp) (by simp [State.endField, State.setProgram, put_put]; rfl) (by simp) (shown inShow)
  | endShow f inShow =>
    exact show' (by simp) (by simp [State.endField, State.setProgram]; rfl) (by simp) (shown inShow)
  | closeForced f => exact stallLaw_goDark (stallLaw_cascade h f) (cascade_empties s f)
  | closeEmpty f state empty => exact stallLaw_goDark h (h.field_ne_of_empty empty)
  | admission q k st _ admits _ vacant chosen => exact stallLaw_admission h q admits vacant chosen
  | depart l k c _ _ car =>
    obtain ⟨⟨c', hc', hbare⟩, hothers⟩ := departCar_cars s l car
    refine stands (by simp) (fun j => ?_) (litStands_of_programs (by simp))
    by_cases e : j = k
    · subst e
      rw [hc', car]
      have e' := congrArg Car.parking hbare
      exact congrArg some e'
    · have e' := congrArg (Option.map Car.parking) (hothers j e)
      rw [Option.map_map, Option.map_map] at e'
      exact e'
  | holdEntry k c car => exact edit car rfl
  | moveEntry k c f named st car held cross chosen =>
    refine stallLaw_moveCar h car (fun e => ?_) chosen
    by_cases hf : f = c.field
    · exact h.lit k c car (hf ▸ e)
    · have := (cross hf).2.2
      rw [e] at this
      cases this
  | amendEntry k c x car fits =>
    refine stallLaw_amend h car rfl ?_
    have hplaced := (h.placed k c car).2
    unfold Amendment.apply
    cases hx : x.cls with
    | none => exact hplaced
    | some cls => exact fits cls hx
  | releaseEntry k c car => exact edit car rfl
  | retireEntry k c => exact stallLaw_retireCar h k _
  | readTouched hs => exact stands (by simp) (CarsKeep.clearTouched s hs) (litStands_of_programs (by simp))
  | lendSet n k c => exact bare (by simp) (carsKeep_issueSet s n k c)
  | dockForeign => exact frame ⟨rfl, rfl, rfl⟩
  | dockIn n b serial level =>
    exact bare (by simp) ((carsKeep_undockFrom s _).trans (carsKeep_arrive _ n b level))
  | completeLend b n => exact bare (by simp) (carsKeep_completeLend s b n)
  | setFault b n => exact bare (by simp) (carsKeep_failSet s n)
  | placeOrder k c o mode args lines => exact bare (by simp) (carsStand_placeOrder s o k c.field mode lines).bare
  | cancelOrder o ord => exact bare (by simp) (carsStand_cancelAtStage s o ord).bare
  | lineDone o k ord => exact bare (by simp) (carsStand_finishLine s o ord k).bare
  | tripReport o ord delivered => exact bare (by simp) (carsStand_reportOrder s o ord delivered).bare
  | _ => exact frame (by simp)

theorem stallLaw_laneStep (h : StallLaw s)
    (ht : t.fieldUnits = s.fieldUnits ∧ t.programs = s.programs ∧ t.entries = s.entries) : StallLaw t :=
  stallLaw_stands (fun f => by rw [show t.unit f = s.unit f from congrArg (look · f) ht.1]) (CarsKeep.of_entries ht.2.2)
    (litStands_of_programs ht.2.1) h

theorem stallLaw_present (h : StallLaw s) {k : CarHandle} {c : Car} (hcar : s.car k = some c) :
    StallLaw ((s.setCar k (some { c with state := .present })).touch k) := by
  have hcars : CarsKeep Car.parking s (s.setCar k (some { c with state := .present })) :=
    CarsKeep.setCar (by rw [hcar]; rfl)
  exact stallLaw_stands (s := s) (fun _ => rfl) (hcars.trans (CarsKeep.touch _ k)) (fun _ => Iff.rfl) h

theorem stallLaw_completePass (h : StallLaw s) (l : LaneNo) : StallLaw (s.completePass l) := by
  unfold State.completePass
  split
  · split
    · unfold State.commitCar
      split
      · exact h
      · rename_i hcar
        exact stallLaw_laneStep (stallLaw_present h hcar) ⟨rfl, rfl, rfl⟩
    · split
      · exact h
      · exact stallLaw_laneStep (stallLaw_retireCar (stallLaw_laneStep (t := s.setLane l _) h ⟨rfl, rfl, rfl⟩) _ _)
          ⟨rfl, rfl, rfl⟩
  · split
    · exact h
    · exact stallLaw_laneStep h ⟨rfl, rfl, rfl⟩

theorem stallLaw_event (he : Event s t) (h : StallLaw s) : StallLaw t := by
  have hlit := he.playMoves.litStands
  have bare {u : State} (hu : u.fieldUnits = s.fieldUnits ∧ u.programs = s.programs) (hcars : CarsKeep Car.bare s u) :
      StallLaw u :=
    stallLaw_stands (fun f => by rw [show u.unit f = s.unit f from congrArg (look · f) hu.1]) hcars.parking
      (litStands_of_programs hu.2) h
  cases he with
  | passCleared l =>
    unfold State.passCleared
    dsimp only
    split
    · exact h
    · split
      · exact stallLaw_laneStep
          (stallLaw_completePass (stallLaw_laneStep (t := s.setPass l .clear) h ⟨rfl, rfl, rfl⟩) l) (by simp)
      · exact stallLaw_laneStep h ⟨rfl, rfl, rfl⟩
  | entryExpiry l =>
    unfold State.entryExpiry
    split
    · split
      · exact stallLaw_laneStep h ⟨rfl, rfl, rfl⟩
      · dsimp only
        split
        · exact stallLaw_laneStep h (by simp)
        · split
          · exact stallLaw_laneStep h (by simp)
          · rename_i k _ _ c _
            have hfreed : StallLaw (s.setLane l { s.lane l with served := none }) := stallLaw_laneStep h ⟨rfl, rfl, rfl⟩
            exact stallLaw_laneStep (stallLaw_retireCar hfreed k .withdrawn) (by simp)
    · exact h
  | exitExpiry l =>
    unfold State.exitExpiry
    split
    · split
      · exact stallLaw_laneStep h ⟨rfl, rfl, rfl⟩
      · dsimp only
        split
        · exact stallLaw_laneStep h (by simp)
        · split
          · exact stallLaw_laneStep h (by simp)
          · rename_i hcar
            exact stallLaw_laneStep (stallLaw_present h hcar) (by simp)
    · exact h
  | issueExpiry n => exact bare (by simp) (carsKeep_issueExpiry s n)
  | _ =>
    refine stallLaw_stands (fun f => congrArg (fun v => (look v f).ground) (?_ : State.fieldUnits _ = s.fieldUnits))
      (CarsKeep.of_entries (by simp)) hlit h
    simp

theorem kept_stallLaw : Kept StallLaw where
  outside s port phase freeCount pending h :=
    stallLaw_laneStep (t := { s with port := port, phase := phase, freeCount := freeCount, pending := pending }) h
      ⟨rfl, rfl, rfl⟩
  flagged s k h := stallLaw_laneStep (t := s.raisePort k) h ⟨rfl, rfl, rfl⟩
  change := stallLaw_change
  event := stallLaw_event

theorem stallLaw_partReset (s : State) (select : SelectLine) : StallLaw (s.partReset select) := by
  rw [State.partReset_eq]
  constructor <;>
    simp [State.reset, State.unit, State.program, State.car, State.entry, FieldUnit.Configuration, ProgramUnit.afterReset,
      FieldUnit.at]

end Sys2Proof.Machine
end

section
/-! PROOF. The laws of the gate at every step, the second half of O44. -/

namespace Sys2Proof.Machine

variable {s t : State}

/-! ### The laws lane by lane and car by car -/

/-- What the laws of the gate read of a live entry. -/
def Car.gate (c : Car) : CarState × Nat := (c.state, c.ticket)

/-- The stage of a car that the lane serves (R38, R54). -/
def servedStage (l : LaneNo) : CarState := if l.val < 4 then .arriving else .leaving

/-- What a lane holds in each of its states (R44, R47, R49). -/
structure LaneLaw (l : LaneNo) (x : Lane) : Prop where
  shut : x.state ≠ .opened → x.served = none ∧ x.timer = none ∧ x.barrier = false ∧ x.begun = false
  opened : x.state = .opened → x.barrier = true ∧ (x.timer ≠ none ∨ x.begun = true)
  arrival : x.state ≠ .opened → (x.arrival.level = .occupied ↔ x.state ≠ .idle)
  exits : 4 ≤ l.val → x.state ≠ .refused

theorem GateLaw.lane (h : GateLaw s) (l : LaneNo) : LaneLaw l (s.lane l) :=
  ⟨h.shut l, h.opened l, h.arrival l, h.exits l⟩

theorem GateLaw.served_none (h : GateLaw s) {l : LaneNo} (hl : (s.lane l).state ≠ .opened) : (s.lane l).served = none :=
  (h.shut l hl).1

/-- An entry that is live and PRESENT is served by no lane. -/
theorem GateLaw.not_served (h : GateLaw s) {k : CarHandle} (hk : ∀ c, s.car k = some c → c.state = .present) (l : LaneNo) :
    (s.lane l).served ≠ some k := by
  intro e
  obtain ⟨c, hc, hstate⟩ := h.serves l k e
  rw [hk c hc] at hstate
  split at hstate <;> cases hstate

/-- The laws where no lane begins to serve a car: a lane loses its car at most, a live entry stays at its stage or becomes
PRESENT, and what a lane still serves is as it was. -/
theorem GateLaw.step (h : GateLaw s) (hlane : ∀ l, LaneLaw l (t.lane l))
    (hlose : ∀ l, (t.lane l).served = (s.lane l).served ∨ (t.lane l).served = none)
    (hcars : ∀ k c, t.car k = some c → ∃ c', s.car k = some c' ∧ c'.ticket = c.ticket ∧
      (c.state = .present ∨ (c.state = c'.state ∧ ∀ l, (s.lane l).served = some k → (t.lane l).served = some k)))
    (hkept : ∀ l k, (t.lane l).served = some k → (t.car k).map Car.state = (s.car k).map Car.state) : GateLaw t := by
  have hserved {l : LaneNo} {k : CarHandle} (hl : (t.lane l).served = some k) : (s.lane l).served = some k := by
    rcases hlose l with e | e
    · rw [← e, hl]
    · rw [e] at hl
      cases hl
  refine ⟨fun l => (hlane l).shut, fun l => (hlane l).opened, fun l => (hlane l).arrival, fun l => (hlane l).exits,
    fun l k hl => ?_, fun k c hc hstate => ?_, fun l l' k hl hl' => h.alone l l' k (hserved hl) (hserved hl'),
    fun k k' c c' hc hc' ht => ?_⟩
  · obtain ⟨c, hc, hstate⟩ := h.serves l k (hserved hl)
    have e := hkept l k hl
    rw [hc, Option.map_some] at e
    obtain ⟨c', hc', e⟩ := Option.map_eq_some_iff.mp e
    exact ⟨c', hc', e.trans hstate⟩
  · obtain ⟨c', hc', -, hpresent | ⟨hsame, hlanes⟩⟩ := hcars k c hc
    · exact absurd hpresent hstate
    · obtain ⟨l, hl⟩ := h.served k c' hc' (hsame ▸ hstate)
      exact ⟨l, hlanes l hl⟩
  · obtain ⟨x, hx, hxt, -⟩ := hcars k c hc
    obtain ⟨x', hx', hxt', -⟩ := hcars k' c' hc'
    exact h.tickets k k' x x' hx hx' (hxt.trans (ht.trans hxt'.symm))

/-- The laws where the cars stand and no lane gains or loses one. -/
theorem gateLaw_congr (h : GateLaw s) (hcars : CarsKeep Car.gate s t) (hlane : ∀ l, LaneLaw l (t.lane l))
    (hserved : ∀ l, (t.lane l).served = (s.lane l).served) : GateLaw t := by
  refine h.step hlane (fun l => .inl (hserved l)) (fun k c hc => ?_) fun l k _ => ?_
  · obtain ⟨c', hc', e⟩ := hcars.before hc
    simp only [Car.gate, Prod.mk.injEq] at e
    exact ⟨c', hc', e.2, .inr ⟨e.1.symm, fun l hl => (hserved l).trans hl⟩⟩
  · have e := congrArg (Option.map Prod.fst) (hcars k)
    rw [Option.map_map, Option.map_map] at e
    exact e

theorem gateLaw_stands (h : GateLaw s) (hcars : CarsKeep Car.gate s t) (hlanes : t.lanes = s.lanes) : GateLaw t := by
  have hlane (l : LaneNo) : t.lane l = s.lane l := congrArg (look · l) hlanes
  exact gateLaw_congr h hcars (fun l => hlane l ▸ h.lane l) fun l => by rw [hlane]

/-- One lane written that serves what it served. -/
theorem gateLaw_setLane (h : GateLaw s) {l : LaneNo} {x : Lane} (hx : LaneLaw l x) (hserved : x.served = (s.lane l).served) :
    GateLaw (s.setLane l x) := by
  refine gateLaw_congr h (CarsKeep.refl s) (fun j => ?_) fun j => ?_ <;> rw [State.lane_setLane] <;> split
  · rename_i e
    exact e ▸ hx
  · exact h.lane j
  · rename_i e
    rw [hserved, e]
  · rfl

/-- A lane begins to serve a car, which is of the lane's stage from then on (R48, R54). -/
theorem GateLaw.serve (h : GateLaw s) {l : LaneNo} {k : CarHandle} {c : Car} (hlane : LaneLaw l (t.lane l))
    (hlanes : ∀ j, j ≠ l → t.lane j = s.lane j) (hserved : (t.lane l).served = some k)
    (hfree : (s.lane l).served = none) (hcar : t.car k = some c) (hstage : c.state = servedStage l)
    (hbefore : ∀ c', s.car k = some c' → c'.state = .present)
    (hothers : ∀ j, j ≠ k → (t.car j).map Car.gate = (s.car j).map Car.gate)
    (hticket : ∀ j c', j ≠ k → s.car j = some c' → c'.ticket ≠ c.ticket) : GateLaw t := by
  have before {j : CarHandle} {x : Car} (hj : j ≠ k) (hx : t.car j = some x) :
      ∃ x', s.car j = some x' ∧ x'.state = x.state ∧ x'.ticket = x.ticket := by
    have e := hothers j hj
    rw [hx, Option.map_some] at e
    obtain ⟨x', hx', e⟩ := Option.map_eq_some_iff.mp e.symm
    simp only [Car.gate, Prod.mk.injEq] at e
    exact ⟨x', hx', e⟩
  have lane (j : LaneNo) : LaneLaw j (t.lane j) := by
    by_cases e : j = l
    · exact e ▸ hlane
    · exact hlanes j e ▸ h.lane j
  have served {j : LaneNo} {i : CarHandle} (hj : (t.lane j).served = some i) :
      (j = l ∧ i = k) ∨ (j ≠ l ∧ i ≠ k ∧ (s.lane j).served = some i) := by
    by_cases e : j = l
    · subst e
      rw [hserved] at hj
      exact .inl ⟨rfl, (Option.some.inj hj).symm⟩
    · rw [hlanes j e] at hj
      refine .inr ⟨e, ?_, hj⟩
      rintro rfl
      exact h.not_served hbefore j hj
  refine ⟨fun j => (lane j).shut, fun j => (lane j).opened, fun j => (lane j).arrival, fun j => (lane j).exits,
    fun j i hj => ?_, fun i x hx hstate => ?_, fun j j' i hj hj' => ?_, fun i i' x x' hx hx' ht => ?_⟩
  · obtain ⟨rfl, rfl⟩ | ⟨-, hne, hs⟩ := served hj
    · exact ⟨c, hcar, hstage⟩
    · obtain ⟨x', hx', hstate⟩ := h.serves j i hs
      have e := hothers i hne
      rw [hx', Option.map_some] at e
      obtain ⟨x, hx, e⟩ := Option.map_eq_some_iff.mp e
      simp only [Car.gate, Prod.mk.injEq] at e
      exact ⟨x, hx, e.1.trans hstate⟩
  · by_cases e : i = k
    · exact ⟨l, e ▸ hserved⟩
    · obtain ⟨x', hx', hsame, -⟩ := before e hx
      obtain ⟨j, hj⟩ := h.served i x' hx' (hsame ▸ hstate)
      refine ⟨j, ?_⟩
      rw [hlanes j, hj]
      rintro rfl
      rw [hfree] at hj
      cases hj
  · obtain ⟨rfl, rfl⟩ | ⟨hne, hnek, hs⟩ := served hj <;> obtain ⟨rfl, e⟩ | ⟨hne', hnek', hs'⟩ := served hj'
    · rfl
    · exact absurd rfl hnek'
    · exact absurd e hnek
    · exact h.alone j j' i hs hs'
  · by_cases e : i = k <;> by_cases e' : i' = k
    · rw [e, e']
    · subst e
      rw [hcar] at hx
      cases hx
      obtain ⟨y, hy, -, hyt⟩ := before e' hx'
      exact absurd (hyt.trans ht.symm) (hticket i' y e' hy)
    · subst e'
      rw [hcar] at hx'
      cases hx'
      obtain ⟨y, hy, -, hyt⟩ := before e hx
      exact absurd (hyt.trans ht) (hticket i y e hy)
    · obtain ⟨y, hy, -, hyt⟩ := before e hx
      obtain ⟨y', hy', -, hyt'⟩ := before e' hx'
      exact h.tickets i i' y y' hy hy' (hyt.trans (ht.trans hyt'.symm))

/-! ### Lanes that open and close -/

theorem laneLaw_openFor (l : LaneNo) (x : Lane) (served : Option CarHandle) : LaneLaw l (x.openFor served) :=
  ⟨fun e => absurd rfl e, fun _ => ⟨rfl, .inl (by simp [Lane.openFor])⟩, fun e => absurd rfl e,
    fun _ => by simp [Lane.openFor]⟩

/-- A lane that closes waits if its arrival loop is OCCUPIED, and is IDLE if it is CLEAR (R47). -/
theorem closeLane_lane (s : State) (l j : LaneNo) :
    (s.closeLane l).lane j =
      if l = j then { s.lane l with
        state := if (s.lane l).arrival.level = .occupied then .waiting else .idle
        barrier := false, timer := none, served := none, begun := false }
      else s.lane j := by
  unfold State.closeLane State.laneWaits
  simp only [beq_iff_eq]
  by_cases hlevel : (s.lane l).arrival.level = .occupied
  · simp only [hlevel, if_true]
    refine (State.lane_setLane _ _ _ _).trans ?_
    rw [State.lane_setLane_self, State.lane_setLane]
    split <;> rfl
  · simp only [hlevel, if_false]
    exact State.lane_setLane _ _ _ _

/-- A lane that loses its car and closes, with the car PRESENT or gone (R51, R52, R55 to R58). -/
theorem GateLaw.close (h : GateLaw s) {l : LaneNo}
    (hlane : ∀ j, j ≠ l → t.lane j = s.lane j)
    (hcars : ∀ k c, t.car k = some c → ∃ c', s.car k = some c' ∧ c'.ticket = c.ticket ∧
      (c.state = .present ∨ (c.state = c'.state ∧ (s.lane l).served ≠ some k)))
    (hkept : ∀ k, (s.lane l).served ≠ some k → (t.car k).map Car.state = (s.car k).map Car.state) :
    GateLaw (t.closeLane l) := by
  have lane (j : LaneNo) (hj : j ≠ l) : (t.closeLane l).lane j = s.lane j := by
    rw [closeLane_lane, if_neg (Ne.symm hj), hlane j hj]
  have car (k : CarHandle) : (t.closeLane l).car k = t.car k := by
    rw [State.car, State.entry, (State.closeLane_frame t l).2.1, State.car, State.entry]
  have closed : ((t.closeLane l).lane l).served = none := by rw [closeLane_lane, if_pos rfl]
  refine h.step (fun j => ?_) (fun j => ?_) (fun k c hc => ?_) fun j k hj => ?_
  · by_cases e : j = l
    · subst e
      rw [closeLane_lane, if_pos rfl]
      cases hlevel : (t.lane j).arrival.level <;>
        exact ⟨fun _ => ⟨rfl, rfl, rfl, rfl⟩, by simp, by simp [hlevel], by simp⟩
    · rw [lane j e]
      exact h.lane j
  · by_cases e : j = l
    · exact .inr (e ▸ closed)
    · exact .inl (by rw [lane j e])
  · obtain ⟨c', hc', ht, hstate⟩ := hcars k c ((car k).symm.trans hc)
    refine ⟨c', hc', ht, hstate.imp_right fun ⟨hsame, hne⟩ => ⟨hsame, fun j hj => ?_⟩⟩
    rw [lane j, hj]
    rintro rfl
    exact hne hj
  · rw [car]
    have hjl : j ≠ l := by
      rintro rfl
      rw [closed] at hj
      cases hj
    rw [lane j hjl] at hj
    refine hkept k fun e => hjl (h.alone j l k hj e)

/-! ### Retirement -/

theorem gate_of_bare {k : CarHandle} (h : (t.car k).map Car.bare = (s.car k).map Car.bare) :
    (t.car k).map Car.gate = (s.car k).map Car.gate := by
  have e := congrArg (Option.map Car.gate) h
  rw [Option.map_map, Option.map_map] at e
  exact e

theorem CarsKeep.gate (h : CarsKeep Car.bare s t) : CarsKeep Car.gate s t := fun k => gate_of_bare (h k)

theorem state_of_gate {k : CarHandle} (h : (t.car k).map Car.gate = (s.car k).map Car.gate) :
    (t.car k).map Car.state = (s.car k).map Car.state := by
  have e := congrArg (Option.map Prod.fst) h
  rw [Option.map_map, Option.map_map] at e
  exact e

theorem gateLaw_retireCar (h : GateLaw s) (k : CarHandle) (cause : RetireCause) : GateLaw (s.retireCar k cause) := by
  cases hcar : s.car k with
  | none =>
    unfold State.retireCar
    rw [hcar]
    exact h
  | some c =>
    obtain ⟨hnone, hothers⟩ := retireCar_others hcar cause
    have lane := retireCar_lane hcar cause
    refine h.step (fun l => ?_) (fun l => ?_) (fun j x hx => ?_) fun l j hj => ?_
    · rw [lane]
      obtain ⟨hshut, hopened, harrival, hexits⟩ := h.lane l
      split
      · exact ⟨fun e => ⟨rfl, (hshut e).2⟩, hopened, harrival, hexits⟩
      · exact ⟨hshut, hopened, harrival, hexits⟩
    · rw [lane]
      split
      exacts [.inr rfl, .inl rfl]
    · have hne : j ≠ k := fun e => by rw [e, hnone] at hx; cases hx
      have e := gate_of_bare (hothers j hne)
      rw [hx, Option.map_some] at e
      obtain ⟨x', hx', e⟩ := Option.map_eq_some_iff.mp e.symm
      simp only [Car.gate, Prod.mk.injEq] at e
      refine ⟨x', hx', e.2, .inr ⟨e.1.symm, fun l hl => ?_⟩⟩
      rw [lane, hl, if_neg (by simpa using hne)]
      exact hl
    · have hne : j ≠ k := by
        rintro rfl
        rw [lane] at hj
        split at hj
        · cases hj
        · exact absurd hj ‹_›
      exact state_of_gate (gate_of_bare (hothers j hne))

/-- A lane whose car is retired serves none, and closes (R52, R55). -/
theorem gateLaw_retireServed (h : GateLaw s) {l : LaneNo} {k : CarHandle} {c : Car} (hserved : (s.lane l).served = some k)
    (hcar : s.car k = some c) (cause : RetireCause)
    (ht : t.lanes = ((s.setLane l { s.lane l with served := none }).retireCar k cause).lanes ∧
      t.entries = ((s.setLane l { s.lane l with served := none }).retireCar k cause).entries) :
    GateLaw (t.closeLane l) := by
  have hcar' : (s.setLane l { s.lane l with served := none }).car k = some c := hcar
  obtain ⟨hnone, hothers⟩ := retireCar_others hcar' cause
  have car (j : CarHandle) : t.car j = ((s.setLane l { s.lane l with served := none }).retireCar k cause).car j :=
    congrArg (fun v => (look v j).car) ht.2
  refine h.close (fun j hj => ?_) (fun j x hx => ?_) fun j hj => ?_
  · refine (congrArg (look · j) ht.1).trans ((retireCar_lane hcar' cause j).trans ?_)
    rw [State.lane_setLane_ne _ _ (Ne.symm hj), if_neg]
    exact fun e => hj (h.alone j l k e hserved)
  · rw [car] at hx
    have hne : j ≠ k := fun e => by rw [e, hnone] at hx; cases hx
    have e := gate_of_bare (hothers j hne)
    rw [hx, Option.map_some] at e
    obtain ⟨x', hx', e⟩ := Option.map_eq_some_iff.mp e.symm
    simp only [Car.gate, Prod.mk.injEq] at e
    refine ⟨x', hx', e.2, .inr ⟨e.1.symm, ?_⟩⟩
    rw [hserved]
    simpa using Ne.symm hne
  · rw [car]
    refine state_of_gate (gate_of_bare (hothers j ?_))
    rintro rfl
    exact hj hserved

/-- A lane whose car becomes PRESENT serves none, and closes (R51, R56). -/
theorem gateLaw_present (h : GateLaw s) {l : LaneNo} {k : CarHandle} {c : Car} (hserved : (s.lane l).served = some k)
    (hcar : s.car k = some c)
    (ht : t.lanes = s.lanes ∧ CarsKeep Car.gate (s.setCar k (some { c with state := .present })) t) :
    GateLaw (t.closeLane l) := by
  obtain ⟨hlanes, hcars⟩ := ht
  have others (j : CarHandle) (hj : j ≠ k) : (t.car j).map Car.gate = (s.car j).map Car.gate := by
    rw [hcars j, State.car_setCar_ne _ _ (Ne.symm hj)]
  refine h.close (fun j _ => congrArg (look · j) hlanes) (fun j x hx => ?_) fun j hj => ?_
  · by_cases e : j = k
    · subst e
      obtain ⟨x', hx', e⟩ := hcars.before hx
      rw [State.car_setCar_self] at hx'
      cases hx'
      simp only [Car.gate, Prod.mk.injEq] at e
      exact ⟨c, hcar, e.2, .inl e.1.symm⟩
    · have e' := others j e
      rw [hx, Option.map_some] at e'
      obtain ⟨x', hx', e'⟩ := Option.map_eq_some_iff.mp e'.symm
      simp only [Car.gate, Prod.mk.injEq] at e'
      refine ⟨x', hx', e'.2, .inr ⟨e'.1.symm, ?_⟩⟩
      rw [hserved]
      simpa using Ne.symm e
  · refine state_of_gate (others j ?_)
    rintro rfl
    exact hj hserved

/-- A lane that serves no car closes (R57, R58). -/
theorem gateLaw_closeFree (h : GateLaw s) {l : LaneNo} (hserved : (s.lane l).served = none)
    (ht : t.lanes = s.lanes ∧ t.entries = s.entries) : GateLaw (t.closeLane l) := by
  have car (j : CarHandle) : t.car j = s.car j := congrArg (fun v => (look v j).car) ht.2
  refine h.close (fun j _ => congrArg (look · j) ht.1) (fun j x hx => ?_) fun j _ => by rw [car]
  exact ⟨x, (car j).symm.trans hx, rfl, .inr ⟨rfl, by simp [hserved]⟩⟩

end Sys2Proof.Machine
end

section
/-! PROOF. The laws of the gate through every change and event, and O44. -/

namespace Sys2Proof.Machine

variable {s t : State}

/-! ### The changes that commands make -/

theorem ticketInUse_eq_false {ticket : Nat} (h : s.ticketInUse ticket = false) (k : CarHandle) (c : Car)
    (hc : s.car k = some c) : c.ticket ≠ ticket := by
  intro e
  have := (List.any_eq_false.mp h) k (List.mem_finRange k)
  simp [hc, e] at this

theorem gateLaw_admission (h : GateLaw s) (q : AdmitRequest) {k : CarHandle} {st : Stall}
    (hwaiting : (s.lane (entryLane q.lane)).state = .waiting) (hticket : s.ticketInUse q.ticket = false)
    (hvacant : s.vacantEntry = some k) : GateLaw (s.admitInto q k st) := by
  have hempty : s.car k = none := by simpa using (lowest_spec hvacant).1
  have hcars (j : CarHandle) : (s.admitInto q k st).car j = if k = j then some (q.car st s.nextSerial) else s.car j := by
    have hentries : (s.admitInto q k st).entries = (s.setCar k (some (q.car st s.nextSerial))).entries := by
      simp [State.admitInto]
    exact (congrArg (fun v => (look v j).car) hentries).trans (State.car_setCar s k j _)
  have hlanes (j : LaneNo) : (s.admitInto q k st).lane j =
      if entryLane q.lane = j then (s.lane (entryLane q.lane)).openFor (some k) else s.lane j := by
    have e : (s.admitInto q k st).lanes =
        put s.lanes (entryLane q.lane) ((s.lane (entryLane q.lane)).openFor (some k)) := by
      simp [State.admitInto, State.setLane]
      rfl
    exact (congrArg (look · j) e).trans (look_put _ _ _ _)
  refine h.serve (l := entryLane q.lane) (k := k) (c := q.car st s.nextSerial) ?_ (fun j hj => ?_) ?_
    (h.served_none (by simp [hwaiting])) ?_ ?_ (fun c' hc' => ?_) (fun j hj => ?_) fun j c' _ hc' => ?_
  · rw [hlanes, if_pos rfl]
    exact laneLaw_openFor _ _ _
  · rw [hlanes, if_neg (Ne.symm hj)]
  · rw [hlanes, if_pos rfl]
    rfl
  · rw [hcars, if_pos rfl]
  · exact (if_pos q.lane.isLt).symm
  · rw [hempty] at hc'
    cases hc'
  · rw [hcars, if_neg (Ne.symm hj)]
  · exact ticketInUse_eq_false hticket j c' hc'

theorem gateLaw_departCar (h : GateLaw s) {l : LaneNo} {k : CarHandle} {c : Car} (hexit : 4 ≤ l.val)
    (hwaiting : (s.lane l).state = .waiting) (hcar : s.car k = some c) (hpresent : c.state = .present) :
    GateLaw (s.departCar l k c) := by
  obtain ⟨⟨c', hc', hbare⟩, hothers⟩ := departCar_cars s l hcar
  have hlanes (j : LaneNo) : (s.departCar l k c).lane j = if l = j then (s.lane l).openFor (some k) else s.lane j := by
    have e : (s.departCar l k c).lanes = put s.lanes l ((s.lane l).openFor (some k)) := by
      unfold State.departCar
      split <;> simp [State.setLane, State.lane]
    exact (congrArg (look · j) e).trans (look_put _ _ _ _)
  have hticket := congrArg Car.ticket hbare
  refine h.serve (l := l) ?_ (fun j hj => ?_) ?_ (h.served_none (by simp [hwaiting])) hc' ?_ (fun x hx => ?_)
    (fun j hj => gate_of_bare (hothers j hj)) fun j x hj hx e => ?_
  · rw [hlanes, if_pos rfl]
    exact laneLaw_openFor _ _ _
  · rw [hlanes, if_neg (Ne.symm hj)]
  · rw [hlanes, if_pos rfl]
    rfl
  · exact (if_neg (not_lt.mpr hexit)).symm
  · rw [hcar] at hx
    cases hx
    exact hpresent
  · exact hj (h.tickets j k x c hx hcar (e.trans hticket))

theorem gateLaw_setPassTimes (h : GateLaw s) (mask passTime : Nat) : GateLaw (s.setPassTimes mask passTime) := by
  refine State.forEach_induct GateLaw s _ _ (fun l t _ ht => ?_) h
  split
  · obtain ⟨hshut, hopened, harrival, hexits⟩ := ht.lane l
    exact gateLaw_setLane ht ⟨hshut, hopened, harrival, hexits⟩ rfl
  · exact ht

theorem gateLaw_change (hc : Change s t) (h : GateLaw s) : GateLaw t := by
  have bare {u : State} (hlanes : u.lanes = s.lanes) (hcars : CarsKeep Car.bare s u) : GateLaw u :=
    gateLaw_stands h hcars.gate hlanes
  have frame {u : State} (hu : u.lanes = s.lanes ∧ u.entries = s.entries) : GateLaw u :=
    gateLaw_stands h (CarsKeep.of_entries hu.2) hu.1
  have edit {k : CarHandle} {c c' : Car} (hcar : s.car k = some c) (hc' : c'.gate = c.gate) :
      GateLaw (s.setCar k (some c')) :=
    gateLaw_stands h (CarsKeep.setCar (by rw [hcar]; exact congrArg some hc')) rfl
  cases hc with
  | writeClosedRows => exact frame (by simp [State.writeClosedRows, State.ok])
  | closeForced f =>
    have cascaded : GateLaw (s.cascade f) :=
      State.forEach_induct GateLaw s _ _ (fun k _ _ ht => gateLaw_retireCar ht k .forceClose) h
    exact gateLaw_stands cascaded (CarsKeep.of_entries (by simp)) (by simp)
  | admission q k st waiting _ ticket vacant => exact gateLaw_admission h q waiting ticket vacant
  | refuse l waiting =>
    have hlane := h.lane (entryLane l)
    refine gateLaw_setLane h ⟨fun _ => hlane.shut (by simp [waiting]), by simp, fun _ => ?_, fun hexit => ?_⟩ rfl
    · have := hlane.arrival (by simp [waiting])
      simpa [waiting] using this
    · exact absurd l.isLt (not_lt.mpr hexit)
  | depart l k c exit waiting car present => exact gateLaw_departCar h exit waiting car present
  | letOut l exit waiting =>
    exact gateLaw_setLane h (laneLaw_openFor l _ none) (h.served_none (by simp [waiting])).symm
  | configureLanes mask passTime => exact gateLaw_setPassTimes h mask passTime
  | holdEntry k c car => exact edit car rfl
  | moveEntry k c f named st car =>
    refine gateLaw_stands h ?_ (by simp)
    have hentries : (s.moveCar k c f st).entries = (s.setCar k (some { c with field := f, stall := st })).entries := by
      unfold State.moveCar
      dsimp only
      split <;> simp [State.setCar, State.setEntry, State.entry]
    have hmoved : CarsKeep Car.gate s (s.setCar k (some { c with field := f, stall := st })) :=
      CarsKeep.setCar (by rw [car]; rfl)
    exact carsKeep_entries hmoved hentries
  | amendEntry k c x car => exact edit car rfl
  | releaseEntry k c car => exact edit car rfl
  | retireEntry k c => exact gateLaw_retireCar h k _
  | readTouched hs => exact gateLaw_stands h (CarsKeep.clearTouched s hs) (by simp)
  | lendSet n k c => exact bare (by simp) (carsKeep_issueSet s n k c)
  | dockForeign => exact frame ⟨rfl, rfl⟩
  | dockIn n b serial level => exact bare (by simp) ((carsKeep_undockFrom s _).trans (carsKeep_arrive _ n b level))
  | completeLend b n => exact bare (by simp) (carsKeep_completeLend s b n)
  | setFault b n => exact bare (by simp) (carsKeep_failSet s n)
  | placeOrder k c o mode args lines => exact bare (by simp) (carsStand_placeOrder s o k c.field mode lines).bare
  | cancelOrder o ord => exact bare (by simp) (carsStand_cancelAtStage s o ord).bare
  | lineDone o k ord => exact bare (by simp) (carsStand_finishLine s o ord k).bare
  | tripReport o ord delivered => exact bare (by simp) (carsStand_reportOrder s o ord delivered).bare
  | _ => exact frame (by simp)

/-! ### The events -/

/-- A pass that completes in an open lane, and the lane that closes behind it (R51, R55, R57, R58). -/
theorem gateLaw_completePass (h : GateLaw s) (l : LaneNo) : GateLaw ((s.completePass l).closeLane l) := by
  unfold State.completePass
  split
  · rename_i k hserved
    obtain ⟨c, hcar, -⟩ := h.serves l k hserved
    split
    · unfold State.commitCar
      rw [hcar]
      exact gateLaw_present h hserved hcar ⟨rfl, CarsKeep.touch (s.setCar k (some { c with state := .present })) k⟩
    · rw [hcar]
      exact gateLaw_retireServed h hserved hcar .depart ⟨rfl, rfl⟩
  · rename_i hserved
    split <;> exact gateLaw_closeFree h hserved ⟨rfl, rfl⟩

theorem gateLaw_passTimed (h : GateLaw s) {l : LaneNo} (hl : (s.lane l).state = .opened) : GateLaw (s.beginPassAtExpiry l) := by
  obtain ⟨hshut, hopened, harrival, hexits⟩ := h.lane l
  exact gateLaw_setLane h ⟨fun e => absurd hl e, fun _ => ⟨(hopened hl).1, .inr rfl⟩, harrival, hexits⟩ rfl

theorem gateLaw_entryExpiry (h : GateLaw s) (l : LaneNo) : GateLaw (s.entryExpiry l) := by
  unfold State.entryExpiry
  split
  · rename_i hl
    rw [Bool.and_eq_true, beq_iff_eq] at hl
    split
    · exact gateLaw_passTimed h hl.1
    · dsimp only
      split
      · rename_i hserved
        exact gateLaw_closeFree h hserved ⟨rfl, rfl⟩
      · rename_i k hserved
        obtain ⟨c, hcar, -⟩ := h.serves l k hserved
        rw [hcar]
        exact gateLaw_retireServed h hserved hcar .withdrawn ⟨rfl, rfl⟩
  · exact h

theorem gateLaw_exitExpiry (h : GateLaw s) (l : LaneNo) : GateLaw (s.exitExpiry l) := by
  unfold State.exitExpiry
  split
  · rename_i hl
    rw [Bool.and_eq_true, beq_iff_eq] at hl
    split
    · exact gateLaw_passTimed h hl.1
    · dsimp only
      split
      · rename_i hserved
        exact gateLaw_closeFree h hserved ⟨rfl, rfl⟩
      · rename_i k hserved
        obtain ⟨c, hcar, -⟩ := h.serves l k hserved
        rw [hcar]
        exact gateLaw_present h hserved hcar ⟨rfl, CarsKeep.touch (s.setCar k (some { c with state := .present })) k⟩
  · exact h

theorem gateLaw_arrivalOccupied (h : GateLaw s) (l : LaneNo) : GateLaw (s.arrivalOccupied l) := by
  obtain ⟨hshut, hopened, harrival, hexits⟩ := h.lane l
  unfold State.arrivalOccupied
  dsimp only
  split
  · exact h
  · rename_i hlevel
    rw [beq_iff_eq] at hlevel
    split
    · rename_i hidle
      rw [beq_iff_eq] at hidle
      have waits : GateLaw (s.setLane l { s.lane l with arrival := LoopInput.settled .occupied, state := .waiting }) :=
        gateLaw_setLane h ⟨fun _ => hshut (by simp [hidle]), by simp, fun _ => by simp [LoopInput.settled], by simp⟩ rfl
      refine gateLaw_stands waits (CarsKeep.of_entries rfl) ?_
      simp [State.laneWaits, State.setArrival, State.setLane, State.raise, State.lane, put_put]
    · rename_i hidle
      rw [beq_iff_eq] at hidle
      refine gateLaw_setLane h ⟨hshut, hopened, fun e => ?_, hexits⟩ rfl
      exact absurd ((harrival e).mpr hidle) hlevel

theorem gateLaw_arrivalCleared (h : GateLaw s) (l : LaneNo) : GateLaw (s.arrivalCleared l) := by
  obtain ⟨hshut, hopened, harrival, hexits⟩ := h.lane l
  have idle (hl : (s.lane l).state ≠ .opened) {u : State} (hu : u.entries = s.entries ∧
      u.lanes = put s.lanes l { s.lane l with arrival := LoopInput.settled .clear, state := .idle }) : GateLaw u := by
    have e : GateLaw (s.setLane l { s.lane l with arrival := LoopInput.settled .clear, state := .idle }) :=
      gateLaw_setLane h ⟨fun _ => hshut hl, by simp, fun _ => by simp [LoopInput.settled], by simp⟩ rfl
    exact gateLaw_stands e (CarsKeep.of_entries hu.1) hu.2
  unfold State.arrivalCleared
  dsimp only
  split
  · exact h
  · split <;> rename_i hl
    · exact idle (by simp [hl]) (by simp [State.setArrival, State.setLane, State.lane, put_put])
    · exact idle (by simp [hl]) (by simp [State.setArrival, State.setLane, State.lane, put_put])
    · exact gateLaw_setLane h ⟨hshut, hopened, fun _ => by simp [LoopInput.settled, hl], hexits⟩ rfl
    · exact gateLaw_setLane h ⟨hshut, hopened, fun e => absurd hl e, hexits⟩ rfl

theorem gateLaw_setPass (h : GateLaw s) (l : LaneNo) (level : LoopLevel) : GateLaw (s.setPass l level) := by
  obtain ⟨hshut, hopened, harrival, hexits⟩ := h.lane l
  exact gateLaw_setLane h ⟨hshut, hopened, harrival, hexits⟩ rfl

theorem gateLaw_passOccupied (h : GateLaw s) (l : LaneNo) : GateLaw (s.passOccupied l) := by
  have noted := gateLaw_setPass h l .occupied
  unfold State.passOccupied
  dsimp only
  split
  · exact h
  · split
    · rename_i hl
      rw [beq_iff_eq] at hl
      have hl' : ((s.setPass l .occupied).lane l).state = .opened := by
        rw [State.setPass, State.lane_setLane_self]
        exact hl
      obtain ⟨hshut, hopened, harrival, hexits⟩ := noted.lane l
      exact gateLaw_setLane noted ⟨fun e => absurd hl' e, fun e => ⟨(hopened e).1, .inr rfl⟩, harrival, hexits⟩ rfl
    · exact gateLaw_stands noted (CarsKeep.of_entries rfl) rfl

theorem gateLaw_passCleared (h : GateLaw s) (l : LaneNo) : GateLaw (s.passCleared l) := by
  have noted := gateLaw_setPass h l .clear
  unfold State.passCleared
  dsimp only
  split
  · exact h
  · split
    · exact gateLaw_completePass noted l
    · exact noted

theorem gateLaw_countMillisecond (h : GateLaw s) : GateLaw s.countMillisecond := by
  have lane (l : LaneNo) : s.countMillisecond.lane l = (s.lane l).countDown := by
    rw [State.countMillisecond_eq]
    exact look_ofFn _ _
  refine gateLaw_congr h (CarsKeep.of_entries (by simp)) (fun l => ?_) fun l => by rw [lane]; rfl
  obtain ⟨hshut, hopened, harrival, hexits⟩ := h.lane l
  rw [lane]
  refine ⟨fun e => ?_, fun e => ?_, harrival, hexits⟩
  · obtain ⟨h1, h2, h3⟩ := hshut e
    exact ⟨h1, by simp [Lane.countDown, countDown, h2], h3⟩
  · obtain ⟨h1, h2⟩ := hopened e
    refine ⟨h1, h2.imp_left fun h3 => ?_⟩
    simpa [Lane.countDown, countDown] using h3

theorem gateLaw_event (he : Event s t) (h : GateLaw s) : GateLaw t := by
  have raw (l : LaneNo) (x : Lane) (hx : x.state = (s.lane l).state ∧ x.served = (s.lane l).served ∧
      x.timer = (s.lane l).timer ∧ x.barrier = (s.lane l).barrier ∧ x.begun = (s.lane l).begun ∧
      x.arrival.level = (s.lane l).arrival.level) : GateLaw (s.setLane l x) := by
    obtain ⟨hstate, hserved, htimer, hbarrier, hbegun, hlevel⟩ := hx
    obtain ⟨hshut, hopened, harrival, hexits⟩ := h.lane l
    refine gateLaw_setLane h ⟨?_, ?_, ?_, ?_⟩ hserved
    · rwa [hstate, hserved, htimer, hbarrier, hbegun]
    · rwa [hstate, htimer, hbarrier, hbegun]
    · rwa [hstate, hlevel]
    · rwa [hstate]
  have rawChange_level (x : LoopInput) (level : LoopLevel) : (x.rawChange level).level = x.level := by
    unfold LoopInput.rawChange
    split <;> rfl
  cases he with
  | rawArrival l level => exact raw l _ ⟨rfl, rfl, rfl, rfl, rfl, rawChange_level _ _⟩
  | rawPass l level => exact raw l _ ⟨rfl, rfl, rfl, rfl, rfl, rfl⟩
  | arrivalOccupied l => exact gateLaw_arrivalOccupied h l
  | arrivalCleared l => exact gateLaw_arrivalCleared h l
  | passOccupied l => exact gateLaw_passOccupied h l
  | passCleared l => exact gateLaw_passCleared h l
  | entryExpiry l => exact gateLaw_entryExpiry h l
  | exitExpiry l => exact gateLaw_exitExpiry h l
  | issueExpiry n => exact gateLaw_stands h (carsKeep_issueExpiry s n).gate (by simp)
  | countMillisecond => exact gateLaw_countMillisecond h
  | _ => exact gateLaw_stands h (CarsKeep.of_entries (by simp)) (by simp)

theorem kept_gateLaw : Kept GateLaw where
  outside s port phase freeCount pending h :=
    gateLaw_stands (t := { s with port := port, phase := phase, freeCount := freeCount, pending := pending }) h
      (CarsKeep.of_entries rfl) rfl
  flagged s k h := gateLaw_stands (t := s.raisePort k) h (CarsKeep.of_entries rfl) rfl
  change := gateLaw_change
  event := gateLaw_event

theorem gateLaw_partReset (s : State) (select : SelectLine) : GateLaw (s.partReset select) := by
  rw [State.partReset_eq]
  constructor <;> simp [State.reset, State.lane, State.car, State.entry, Lane.afterReset, LoopInput.afterReset]

/-- Settles O44: the stall law by the one entry that a change lets come, go or move, the laws of the gate by the one lane
that a change opens or closes. -/
theorem stallLawIsKept : Obligations.StallLawIsKept := fun _ _ he =>
  ⟨fun h => kept_stallLaw.everyStep
      (fun s h => stallLaw_laneStep (t := s.dayClosed) h ⟨rfl, rfl, rfl⟩) (fun s select _ => stallLaw_partReset s select) he h,
    fun h => kept_gateLaw.everyStep
      (fun s h => gateLaw_stands (t := s.dayClosed) h (CarsKeep.of_entries rfl) rfl)
      (fun s select _ => gateLaw_partReset s select) he h⟩

end Sys2Proof.Machine
end

section
/-! PROOF. What the order book leaves of each order, and the law of the order lists, the first half of O57. -/

namespace Sys2Proof.Machine

/-- Every slot agrees with what it was in what `π` reads of its order, and every free one is free. -/
def OrdersKeep {α : Type} (π : Order → α) (s t : State) : Prop := ∀ o, (t.order o).map π = (s.order o).map π

namespace OrdersKeep
variable {α β : Type} {π : Order → α} {s t u : State}

theorem refl (s : State) : OrdersKeep π s s := fun _ => rfl

theorem trans (h : OrdersKeep π s t) (h' : OrdersKeep π t u) : OrdersKeep π s u := fun o => (h' o).trans (h o)

theorem weaken (h : OrdersKeep π s t) (ρ : Order → β) {r : α → β} (hr : ∀ x, r (π x) = ρ x) : OrdersKeep ρ s t := by
  intro o
  have e := congrArg (Option.map r) (h o)
  simpa [Function.comp_def, hr] using e

theorem before (h : OrdersKeep π s t) {o : OrderHandle} {x : Order} (hx : t.order o = some x) :
    ∃ y, s.order o = some y ∧ π y = π x := by
  have e := h o
  rw [hx, Option.map_some] at e
  exact Option.map_eq_some_iff.mp e.symm

theorem after (h : OrdersKeep π s t) {o : OrderHandle} {x : Order} (hx : s.order o = some x) :
    ∃ y, t.order o = some y ∧ π y = π x := by
  have e := h o
  rw [hx, Option.map_some] at e
  exact Option.map_eq_some_iff.mp e

theorem of_orders (h : t.orders = s.orders) : OrdersKeep π s t := by
  intro o
  rw [State.order, h]
  rfl

theorem setOrder {o : OrderHandle} {x : Option Order} (hx : x.map π = (s.order o).map π) :
    OrdersKeep π s (s.setOrder o x) := by
  intro o'
  rw [State.order_setOrder]
  split
  · rename_i e
    rw [← e, hx]
  · rfl

theorem modOrder (s : State) (o : OrderHandle) {g : Order → Order} (hg : ∀ x, π (g x) = π x) :
    OrdersKeep π s (s.modOrder o g) :=
  setOrder (by rw [Option.map_map]; exact congrArg (Option.map · (s.order o)) (funext hg))

theorem forEach_modOrder (s : State) (os : List OrderHandle) {g : Order → Order} (hg : ∀ x, π (g x) = π x) :
    OrdersKeep π s (s.forEach os fun o acc => acc.modOrder o g) :=
  State.forEach_induct (OrdersKeep π s) s _ _ (fun o acc _ h => h.trans (modOrder acc o hg)) (refl s)

end OrdersKeep

/-- What an order is beside the turns of its work: all but its stage, due mark, prep timer and trip. -/
def Order.plain (x : Order) : Option CarHandle × FieldNo × ReleaseMode × Bool × Bool × Nat × List OrderLine :=
  (x.car, x.field, x.mode, x.cancelPending, x.late, x.serial, x.lines)

section
variable {s t : State}

/-- The due marks of a check are all that it writes (R139). -/
theorem ordersKeep_markDue {α : Type} {π : Order → α} (hπ : ∀ x : Order, π { x with due := true } = π x) (s : State)
    (which : Order → Bool) : OrdersKeep π s (s.markDue which) := by
  intro o
  obtain ⟨-, h⟩ := s.markDue_spec which
  obtain ⟨hmarked, hstands⟩ := h o
  by_cases hfalls : ∀ ord, s.order o = some ord → o ∈ s.parked → ¬ (which ord = true ∧ ord.stage = .parked ∧
      ord.due = false ∧ (s.program ord.field).isDue ord.mode = true)
  · rw [hstands hfalls]
  · push Not at hfalls
    obtain ⟨ord, hord, hparked, hf⟩ := hfalls
    rw [hmarked ord hord hparked hf, hord, Option.map_some, Option.map_some, hπ]

theorem ordersKeep_dispatch (s : State) (k : TripHandle) : OrdersKeep Order.plain s (s.dispatch k) := by
  intro o
  rw [(s.dispatch_spec k).1]
  split
  · rw [Option.map_map]
    rfl
  · rfl

theorem ordersKeep_closeTrip (s : State) (k : TripHandle) : OrdersKeep Order.plain s (s.closeTrip k) := by
  unfold State.closeTrip
  split
  · exact OrdersKeep.refl s
  · split
    · exact ordersKeep_dispatch s k
    · exact OrdersKeep.refl s

theorem ordersKeep_joinTrip (s : State) (k : TripHandle) (os : List OrderHandle) :
    OrdersKeep Order.plain s (s.joinTrip k os) := by
  have marked (u : State) (hu : u.orders = s.orders) :
      OrdersKeep Order.plain s (u.forEach os fun o acc => acc.modOrder o fun ord => { ord with trip := some k }) :=
    (OrdersKeep.of_orders hu).trans (OrdersKeep.forEach_modOrder u os fun _ => rfl)
  unfold State.joinTrip
  dsimp only
  split
  · refine OrdersKeep.trans ?_ (ordersKeep_closeTrip _ k)
    exact marked _ rfl
  · exact marked _ rfl

theorem ordersKeep_formTrip (s : State) (k : TripHandle) (f : FieldNo) (os : List OrderHandle) :
    OrdersKeep Order.plain s (s.formTrip k f os) := ordersKeep_joinTrip (s.setTrip k _) k os

theorem ordersKeep_placeReady (s : State) (o : OrderHandle) (f : FieldNo) :
    OrdersKeep Order.plain s (s.placeReady o f) := by
  unfold State.placeReady
  split
  · exact ordersKeep_joinTrip s _ _
  · split
    · exact ordersKeep_formTrip s _ f _
    · exact OrdersKeep.refl s

theorem ordersKeep_reformTrip (s : State) (k : TripHandle) : OrdersKeep Order.plain s (s.reformTrip k) := by
  unfold State.reformTrip
  split
  · exact OrdersKeep.refl s
  · split
    · exact OrdersKeep.refl s
    · exact ordersKeep_formTrip (s.withoutReady _) k _ _

theorem ordersKeep_leaveTrip (s : State) (k : TripHandle) (o : OrderHandle) :
    OrdersKeep Order.plain s (s.leaveTrip k o) := by
  unfold State.leaveTrip
  dsimp only
  split
  · exact ordersKeep_reformTrip (s.setTrip k {}) k
  · split
    · unfold State.refillTrip
      split
      · exact OrdersKeep.refl s
      · exact ordersKeep_joinTrip (State.withoutReady _ _) k _
    · exact OrdersKeep.refl s

theorem ordersKeep_release (s : State) {o : OrderHandle} {ord : Order} (ho : s.order o = some ord) :
    OrdersKeep Order.plain s (s.release o ord) := by
  rw [State.release_eq]
  refine OrdersKeep.setOrder (s := s) (o := o)
    (x := some { ord with stage := .queued, due := false, timer := some (s.prepLimit * 60000) }) ?_
  rw [ho]
  rfl

theorem ordersKeep_recallTrip (s : State) (k : TripHandle) : OrdersKeep Order.plain s (s.recallTrip k) := by
  unfold State.recallTrip
  dsimp only
  refine OrdersKeep.trans ?_ (ordersKeep_reformTrip _ k)
  exact (OrdersKeep.forEach_modOrder s (s.routeOrder k) (g := fun ord => { ord with stage := .ready, trip := none })
    fun _ => rfl).trans (OrdersKeep.of_orders rfl)

/-- What the book answers to a report leaves of the orders (R139, R142, R162). -/
theorem reportable_ordersKeep (b : State) : Reportable (OrdersKeep Order.plain b) where
  stands h hs := hs.trans (OrdersKeep.of_orders h.orders)
  marked s which hs := hs.trans (ordersKeep_markDue (fun _ => rfl) s which)
  released s o ord ho _ _ hs := (hs.trans (ordersKeep_release s ho)).trans (OrdersKeep.of_orders (by simp))
  dispatched s k _ hs := hs.trans (ordersKeep_dispatch s k)

theorem ordersKeep_evaluateHoldAndDue (s : State) : OrdersKeep Order.plain s s.evaluateHoldAndDue := by
  have held : OrdersKeep Order.plain s s.evaluateHold := OrdersKeep.of_orders (by simp)
  unfold State.evaluateHoldAndDue
  dsimp only
  split
  · exact held.trans (ordersKeep_markDue (fun _ => rfl) _ _)
  · exact held

theorem ordersKeep_afterFall (s : State) : OrdersKeep Order.plain s s.afterFall :=
  (reportable_ordersKeep s).releasePass (ordersKeep_evaluateHoldAndDue s)

theorem ordersKeep_afterThresholds (s : State) : OrdersKeep Order.plain s s.afterThresholds := by
  unfold State.afterThresholds
  dsimp only
  split
  · exact (reportable_ordersKeep s).releasePass (ordersKeep_evaluateHoldAndDue s)
  · exact ordersKeep_evaluateHoldAndDue s

end

/-! ### Orders and lists that name each other (R133) -/

/-- The car that an order belongs to (R131). -/
def State.carOf (s : State) (o : OrderHandle) : Option CarHandle := (s.order o).bind Order.car

/-- No order gains or loses its car, and no list changes. -/
structure RefsStand (s t : State) : Prop where
  cars : ∀ o, t.carOf o = s.carOf o
  lists : ∀ h, t.listOf h = s.listOf h

/-- One order is on no list and has no car, and nothing else changes. -/
structure RefsDrop (s t : State) (o : OrderHandle) : Prop where
  gone : t.carOf o = none
  cars : ∀ x, x ≠ o → t.carOf x = s.carOf x
  lists : ∀ h, t.listOf h = if s.carOf o = some h then (s.listOf h).erase o else s.listOf h

section
variable {s t u : State}

theorem RefsStand.refl (s : State) : RefsStand s s := ⟨fun _ => rfl, fun _ => rfl⟩

theorem RefsStand.trans (h : RefsStand s t) (h' : RefsStand t u) : RefsStand s u :=
  ⟨fun o => (h'.cars o).trans (h.cars o), fun k => (h'.lists k).trans (h.lists k)⟩

theorem RefsDrop.after {o : OrderHandle} (h : RefsStand s t) (h' : RefsDrop t u o) : RefsDrop s u o :=
  ⟨h'.gone, fun x hx => (h'.cars x hx).trans (h.cars x), fun k => by rw [h'.lists, h.cars, h.lists]⟩

theorem RefsDrop.then {o : OrderHandle} (h : RefsDrop s t o) (h' : RefsStand t u) : RefsDrop s u o :=
  ⟨(h'.cars o).trans h.gone, fun x hx => (h'.cars x).trans (h.cars x hx), fun k => (h'.lists k).trans (h.lists k)⟩

theorem listOf_of_entries (h : t.entries = s.entries) (k : CarHandle) : t.listOf k = s.listOf k := by
  rw [State.listOf, State.car, State.entry, h]
  rfl

theorem carOf_of_orders (h : t.orders = s.orders) (o : OrderHandle) : t.carOf o = s.carOf o := by
  rw [State.carOf, State.order, h]
  rfl

theorem OrdersKeep.carOf (h : OrdersKeep Order.car s t) (o : OrderHandle) : t.carOf o = s.carOf o := by
  have e := h o
  unfold State.carOf
  cases ht : t.order o <;> cases hs : s.order o <;> simp [ht, hs] at e ⊢
  exact e

theorem OrdersKeep.refsStand (h : OrdersKeep Order.plain s t) (he : t.entries = s.entries) : RefsStand s t :=
  ⟨OrdersKeep.carOf (h.weaken (r := Prod.fst) Order.car fun _ => rfl), listOf_of_entries he⟩

theorem BookStands.refsStand (h : BookStands s t) : RefsStand s t := ⟨carOf_of_orders h.orders, h.lists⟩

theorem refsStand_setOrder {o : OrderHandle} {x : Order} (ho : s.order o = some x) (x' : Order) (hx : x'.car = x.car) :
    RefsStand s (s.setOrder o (some x')) :=
  ⟨OrdersKeep.carOf (OrdersKeep.setOrder (by rw [ho]; exact congrArg some hx)), fun _ => rfl⟩

theorem refsStand_withdrawLines (s : State) (gone : OrderHandle × Nat → Bool) : RefsStand s (s.withdrawLines gone) :=
  ⟨carOf_of_orders (by simp), listOf_of_entries (by simp)⟩

theorem refsStand_afterFall (s : State) : RefsStand s s.afterFall := (ordersKeep_afterFall s).refsStand (by simp)

/-- The retirement of an order takes it off its car's list (R151). -/
theorem refsDrop_retireOrder {o : OrderHandle} {ord : Order} (ho : s.order o = some ord) :
    RefsDrop s (s.retireOrder o) o := by
  have freed (v : State) (hv : RefsStand s v) : RefsDrop s ((v.unlistOrder o ord.car).setOrder o none) o := by
    have horders : (v.unlistOrder o ord.car).orders = v.orders := by simp
    have hcar : s.carOf o = ord.car := by rw [State.carOf, ho]; rfl
    refine ⟨?_, fun x hx => ?_, fun h => ?_⟩
    · rw [State.carOf, State.order_setOrder_self]
      rfl
    · rw [← hv.cars, State.carOf, State.order_setOrder_ne _ _ (Ne.symm hx)]
      exact carOf_of_orders horders x
    · rw [← hv.lists, hcar]
      refine (show _ = (v.unlistOrder o ord.car).listOf h from rfl).trans ?_
      cases ord.car with
      | none => rfl
      | some k =>
        simp only [State.unlistOrder, State.listOf, State.car_modCar, Option.some.injEq]
        split
        · rename_i e
          subst e
          cases v.car k <;> rfl
        · rfl
  unfold State.retireOrder
  rw [ho]
  dsimp only
  have offTrip (v : State) (hv : v.orders = s.orders ∧ v.entries = s.entries) :
      RefsStand s (match ord.trip with
        | none => v
        | some k => v.leaveTrip k o) := by
    have hsv : RefsStand s v := ⟨carOf_of_orders hv.1, listOf_of_entries hv.2⟩
    split
    · exact hsv
    · exact hsv.trans ((ordersKeep_leaveTrip v _ o).refsStand (by simp))
  split
  · exact (freed _ (offTrip _ (by simp))).then (refsStand_afterFall _)
  · exact freed _ (offTrip _ (by simp))

/-- An order that is cancelled or finishes keeps its place, or is retired. -/
def RefsWork (s t : State) (o : OrderHandle) : Prop := RefsStand s t ∨ RefsDrop s t o

theorem RefsWork.after {o : OrderHandle} (h : RefsStand s t) (h' : RefsWork t u o) : RefsWork s u o :=
  h'.imp h.trans (RefsDrop.after h)

theorem RefsWork.then {o : OrderHandle} (h : RefsWork s t o) (h' : RefsStand t u) : RefsWork s u o :=
  h.imp (·.trans h') (·.then h')

theorem refsDrop_settleCancel {o : OrderHandle} {ord : Order} (ho : s.order o = some ord) (x : Order) :
    RefsDrop s (s.settleCancel o x) o := by
  have told : RefsStand s ((((s.count (.kitchen .cancelled)).count (.kitchen .wasteLines) x.waste).raiseOrder o
      .cancelSettled).touchCar x.car) :=
    ((((bookStands_count s _ 1).trans (bookStands_count _ _ _)).trans (bookStands_raiseOrder _ o .cancelSettled)).trans
      (bookStands_touchCar _ x.car)).refsStand
  refine RefsDrop.after told (refsDrop_retireOrder (ord := ord) ?_)
  rw [State.order, show State.orders _ = s.orders by simp]
  exact ho

theorem refsWork_finishOrder (s : State) (o : OrderHandle) : RefsWork s (s.finishOrder o) o := by
  unfold State.finishOrder
  split
  · exact .inl (RefsStand.refl s)
  · rename_i ord ho
    split
    · exact .inr (refsDrop_settleCancel ho ord)
    · refine .inl ((refsStand_setOrder ho { ord with stage := .ready, timer := none } rfl).trans ((ordersKeep_placeReady _ o ord.field).refsStand (by simp)))

theorem refsWork_cancelPreparing {o : OrderHandle} {ord : Order} (ho : s.order o = some ord) :
    RefsWork s (s.cancelPreparing o ord) o := by
  have marked (waits : OrderHandle × Nat → Bool) :
      RefsStand s ((s.withdrawLines waits).setOrder o (some { ord with cancelPending := true, timer := none })) :=
    (refsStand_withdrawLines s waits).trans
      (refsStand_setOrder (x := ord) (by rw [State.order, show State.orders _ = s.orders by simp]; exact ho) _ rfl)
  have settled (b : Bool) (waits : OrderHandle × Nat → Bool) : RefsWork s (if b then
      (s.withdrawLines waits).setOrder o (some { ord with cancelPending := true, timer := none })
      else ((s.withdrawLines waits).setOrder o (some { ord with cancelPending := true, timer := none })).finishOrder o) o := by
    split
    · exact .inl (marked waits)
    · exact RefsWork.after (marked waits) (refsWork_finishOrder _ o)
  unfold State.cancelPreparing
  dsimp only
  split
  · exact (settled _ _).then (refsStand_afterFall _)
  · exact settled _ _

theorem refsWork_cancelAtStage {o : OrderHandle} {ord : Order} (ho : s.order o = some ord) :
    RefsWork s (s.cancelAtStage o ord) o := by
  have retired (v : State) (hv : BookStands s v) : RefsWork s ((v.touchCar ord.car).retireOrder o) o := by
    have hstands := hv.trans (bookStands_touchCar v ord.car)
    refine .inr (RefsDrop.after hstands.refsStand (refsDrop_retireOrder (ord := ord) ?_))
    rw [State.order, hstands.orders]
    exact ho
  unfold State.cancelAtStage
  split
  · exact retired _ (bookStands_count s _ 1)
  · exact retired _ (bookStands_count s _ 1)
  · exact refsWork_cancelPreparing ho
  · exact retired _ ((bookStands_count s _ 1).trans (bookStands_count _ _ _))
  · exact .inl (refsStand_setOrder ho _ rfl)

theorem refsWork_finishLine {o : OrderHandle} {ord : Order} (ho : s.order o = some ord) (k : Nat) :
    RefsWork s (s.finishLine o ord k) o := by
  have finished : RefsStand s ((s.setOrder o (some (ord.withLine k .finished))).withdrawLines fun l => l == (o, k)) :=
    (refsStand_setOrder ho (ord.withLine k .finished) rfl).trans (refsStand_withdrawLines _ _)
  unfold State.finishLine
  dsimp only
  split
  · exact RefsWork.then (.inl finished) (refsStand_afterFall _)
  · exact RefsWork.then (RefsWork.after finished (refsWork_finishOrder _ o)) (refsStand_afterFall _)

/-! ### The law of the order lists -/

theorem orderListLaw_iff (s : State) :
    OrderListLaw s ↔ (∀ o h, s.carOf o = some h ↔ o ∈ s.listOf h) ∧ ∀ h, (s.listOf h).Nodup := by
  have hlist (h : CarHandle) (o : OrderHandle) : o ∈ s.listOf h ↔ ∃ c, s.car h = some c ∧ o ∈ c.orders := by
    unfold State.listOf
    cases s.car h <;> simp
  have hcar (o : OrderHandle) (h : CarHandle) : s.carOf o = some h ↔ ∃ ord, s.order o = some ord ∧ ord.car = some h := by
    unfold State.carOf
    exact Option.bind_eq_some_iff
  have hnodup : (∀ h, (s.listOf h).Nodup) ↔ ∀ h c, s.car h = some c → c.orders.Nodup := by
    refine forall_congr' fun h => ?_
    unfold State.listOf
    cases s.car h <;> simp
  constructor
  · intro hlaw
    refine ⟨fun o h => ⟨fun e => ?_, fun e => ?_⟩, hnodup.mpr hlaw.distinct⟩
    · obtain ⟨ord, ho, hc⟩ := (hcar o h).mp e
      exact (hlist h o).mpr (hlaw.listed o ord h ho hc)
    · obtain ⟨c, hc, ho⟩ := (hlist h o).mp e
      exact (hcar o h).mpr (hlaw.named h c o hc ho)
  · rintro ⟨hrefs, hdistinct⟩
    refine ⟨fun o ord h ho hc => ?_, fun h c o hc ho => ?_, hnodup.mp hdistinct⟩
    · exact (hlist h o).mp ((hrefs o h).mp ((hcar o h).mpr ⟨ord, ho, hc⟩))
    · exact (hcar o h).mp ((hrefs o h).mpr ((hlist h o).mpr ⟨c, hc, ho⟩))

theorem RefsStand.orderListLaw (h : RefsStand s t) (hlaw : OrderListLaw s) : OrderListLaw t := by
  obtain ⟨hrefs, hdistinct⟩ := (orderListLaw_iff s).mp hlaw
  exact (orderListLaw_iff t).mpr ⟨fun o k => by rw [h.cars, h.lists]; exact hrefs o k, fun k => by
    rw [h.lists]; exact hdistinct k⟩

theorem RefsDrop.orderListLaw {o : OrderHandle} (h : RefsDrop s t o) (hlaw : OrderListLaw s) : OrderListLaw t := by
  obtain ⟨hrefs, hdistinct⟩ := (orderListLaw_iff s).mp hlaw
  refine (orderListLaw_iff t).mpr ⟨fun x k => ?_, fun k => ?_⟩
  · rw [h.lists]
    by_cases e : x = o
    · subst e
      rw [h.gone]
      simp only [reduceCtorEq, false_iff]
      split
      · exact (hdistinct k).not_mem_erase
      · rename_i hk
        exact (hrefs x k).not.mp hk
    · rw [h.cars x e, hrefs]
      split
      · exact (List.mem_erase_of_ne e).symm
      · rfl
  · rw [h.lists]
    split
    · exact (hdistinct k).erase o
    · exact hdistinct k

theorem RefsWork.orderListLaw {o : OrderHandle} (h : RefsWork s t o) (hlaw : OrderListLaw s) : OrderListLaw t :=
  h.elim (·.orderListLaw hlaw) (·.orderListLaw hlaw)

/-- The refs of one order of a retired car: it has a car no more, and every other order and list stands (R170). -/
theorem orderLosesCar_refs (s : State) (o : OrderHandle) :
    (s.orderLosesCar o).carOf o = none ∧ (∀ x, x ≠ o → (s.orderLosesCar o).carOf x = s.carOf x) ∧
      ∀ h, (s.orderLosesCar o).listOf h = s.listOf h := by
  unfold State.orderLosesCar
  split
  · rename_i ho
    exact ⟨by rw [State.carOf, ho]; rfl, fun _ _ => rfl, fun _ => rfl⟩
  · rename_i ord ho
    dsimp only
    have hnone : (s.setOrder o (some { ord with car := none })).carOf o = none := by
      rw [State.carOf, State.order_setOrder_self]
      rfl
    have hothers (x : OrderHandle) (hx : x ≠ o) : (s.setOrder o (some { ord with car := none })).carOf x = s.carOf x := by
      rw [State.carOf, State.order_setOrder_ne _ _ (Ne.symm hx), State.carOf]
    split
    · exact ⟨hnone, hothers, fun _ => rfl⟩
    · have ho' : (s.setOrder o (some { ord with car := none })).order o = some { ord with car := none } :=
        State.order_setOrder_self _ _ _
      obtain hstand | hdrop := refsWork_cancelAtStage ho'
      · exact ⟨(hstand.cars o).trans hnone, fun x hx => (hstand.cars x).trans (hothers x hx), fun h => hstand.lists h⟩
      · refine ⟨hdrop.gone, fun x hx => (hdrop.cars x hx).trans (hothers x hx), fun h => ?_⟩
        rw [hdrop.lists, hnone, if_neg (by simp)]
        rfl

/-- Told of each order of a list, the book leaves none of them with a car, and every other order and list as it was. -/
theorem ordersLoseCar_refs (s : State) (os : List OrderHandle) :
    (∀ x, (s.ordersLoseCar os).carOf x = if x ∈ os then none else s.carOf x) ∧
      ∀ h, (s.ordersLoseCar os).listOf h = s.listOf h := by
  induction os generalizing s with
  | nil => exact ⟨fun _ => rfl, fun _ => rfl⟩
  | cons o rest ih =>
    obtain ⟨hgone, hothers, hlists⟩ := orderLosesCar_refs s o
    obtain ⟨hcars, hlists'⟩ := ih (s.orderLosesCar o)
    refine ⟨fun x => ?_, fun h => (hlists' h).trans (hlists h)⟩
    refine (hcars x).trans ?_
    by_cases e : x = o
    · subst e
      simp [hgone]
    · simp [e, hothers x e]

theorem orderListLaw_told {h : CarHandle} {c : Car} (hlist : s.listOf h = c.orders) (hlaw : OrderListLaw s) :
    OrderListLaw (s.ordersAtRetirement h c) := by
  obtain ⟨hrefs, hdistinct⟩ := (orderListLaw_iff s).mp hlaw
  obtain ⟨hcars, hlists⟩ := ordersLoseCar_refs (s.modCar h fun x => { x with lent := none, orders := [] }) c.orders
  have hlistOf (k : CarHandle) : (s.ordersAtRetirement h c).listOf k = if h = k then [] else s.listOf k := by
    refine (hlists k).trans ?_
    rw [State.listOf, State.car_modCar, State.listOf]
    split
    · cases s.car h <;> rfl
    · rfl
  have hcarOf (x : OrderHandle) : (s.ordersAtRetirement h c).carOf x = if x ∈ c.orders then none else s.carOf x :=
    hcars x
  refine (orderListLaw_iff _).mpr ⟨fun x k => ?_, fun k => ?_⟩
  · rw [hcarOf, hlistOf, ← hlist]
    by_cases hx : x ∈ s.listOf h
    · have hcar := (hrefs x h).mpr hx
      have hk : h ≠ k → x ∉ s.listOf k := fun e hmem => e (Option.some.inj (hcar.symm.trans ((hrefs x k).mpr hmem)))
      simp only [hx, if_true, reduceCtorEq, false_iff]
      split
      · simp
      · exact hk ‹_›
    · rw [if_neg hx, hrefs]
      split
      · rename_i e
        subst e
        simp [hx]
      · rfl
  · rw [hlistOf]
    split
    · exact List.nodup_nil
    · exact hdistinct k

theorem orderListLaw_placed {h : CarHandle} {c : Car} {o : OrderHandle} (mode : ReleaseMode) (lines : List OrderLine)
    (hcar : s.car h = some c) (hfree : s.freeOrder = some o) (hlaw : OrderListLaw s) :
    OrderListLaw ((s.parkOrder o h c.field mode lines).placeDueCheck o c.field mode) := by
  obtain ⟨hrefs, hdistinct⟩ := (orderListLaw_iff s).mp hlaw
  have hslot : s.order o = none := by simpa using (lowest_spec hfree).1
  have hnone : s.carOf o = none := by rw [State.carOf, hslot]; rfl
  have hcars (x : OrderHandle) : (s.parkOrder o h c.field mode lines).carOf x = if o = x then some h else s.carOf x := by
    rw [State.carOf, State.carOf]
    refine (congrArg (Option.bind · Order.car) (State.order_setOrder s o x _)).trans ?_
    split <;> rfl
  have hlists (k : CarHandle) : (s.parkOrder o h c.field mode lines).listOf k =
      if h = k then s.listOf k ++ [o] else s.listOf k := by
    rw [State.listOf, State.listOf]
    refine (congrArg (Option.elim · [] Car.orders)
      (State.car_modCar s h k fun c => { c with orders := c.orders ++ [o] })).trans ?_
    split
    · rename_i e
      rw [← e, hcar]
      rfl
    · rfl
  have hparked : OrderListLaw (s.parkOrder o h c.field mode lines) := by
    refine (orderListLaw_iff _).mpr ⟨fun x k => ?_, fun k => ?_⟩
    · rw [hcars, hlists]
      by_cases e : o = x
      · subst e
        have hnot : o ∉ s.listOf k := (hrefs o k).not.mp (by simp [hnone])
        rw [if_pos rfl]
        split
        · rename_i e'
          simp [e']
        · rename_i e'
          simp [e', hnot]
      · rw [if_neg e, hrefs]
        split
        · simp [Ne.symm e]
        · rfl
    · rw [hlists]
      split
      · refine (hdistinct k).append (List.nodup_singleton o) ?_
        rw [List.disjoint_singleton]
        exact (hrefs o k).not.mp (by simp [hnone])
      · exact hdistinct k
  have hchecked : OrdersKeep Order.plain (s.parkOrder o h c.field mode lines)
      ((s.parkOrder o h c.field mode lines).placeDueCheck o c.field mode) := by
    unfold State.placeDueCheck
    split
    · exact (reportable_ordersKeep _).releasePass
        (OrdersKeep.modOrder _ o (g := fun x => { x with due := true }) fun _ => rfl)
    · exact OrdersKeep.refl _
  exact (hchecked.refsStand (by simp)).orderListLaw hparked

theorem bookLaw_orderListLaw : BookLaw OrderListLaw where
  stands h := h.refsStand.orderListLaw
  marked s which := ((ordersKeep_markDue (fun _ => rfl) s which).refsStand (by simp)).orderListLaw
  released s o ord ho _ _ :=
    (((ordersKeep_release s ho).trans (OrdersKeep.of_orders (by simp))).refsStand (by simp)).orderListLaw
  dispatched s k _ := ((ordersKeep_dispatch s k).refsStand (by simp)).orderListLaw
  told _ _ _ hlist := orderListLaw_told hlist
  placed _ _ _ _ mode lines hcar _ hfree _ _ := orderListLaw_placed mode lines hcar hfree
  cancelled _ _ _ ho _ := (refsWork_cancelAtStage ho).orderListLaw
  handedOut _ _ _ k ord _ _ ho _ := (refsStand_setOrder ho (ord.handOut k) rfl).orderListLaw
  finished _ _ k _ ho _ := (refsWork_finishLine ho k).orderListLaw
  thresholds s mask xoff xon prepLimit _ := by
    have hset : OrdersKeep Order.plain s { s.setThresholds mask xoff xon with prepLimit := prepLimit } :=
      OrdersKeep.of_orders (by simp)
    exact ((hset.trans (ordersKeep_afterThresholds _)).refsStand (by simp)).orderListLaw
  settled _ _ _ ho _ := (refsDrop_retireOrder ho).orderListLaw
  recalled s k _ := ((ordersKeep_recallTrip s k).refsStand (by simp)).orderListLaw
  late _ _ ord ho := (refsStand_setOrder ho { ord with late := true, timer := none } rfl).orderListLaw
  closed s k _ := ((ordersKeep_closeTrip s k).refsStand (by simp)).orderListLaw
  millisecond s := by
    refine RefsStand.orderListLaw ⟨OrdersKeep.carOf fun o => ?_, listOf_of_entries (by simp)⟩
    have e : s.countMillisecond.order o = (s.order o).map fun ord => { ord with timer := countDown ord.timer } := by
      rw [State.countMillisecond_eq]
      exact look_ofFn _ _
    rw [e, Option.map_map]
    rfl

theorem orderListLaw_partReset (s : State) (select : SelectLine) : OrderListLaw (s.partReset select) := by
  rw [State.partReset_eq]
  constructor <;> simp [State.reset, State.car, State.entry, State.order]

end
end Sys2Proof.Machine
end

section
/-! PROOF. The laws of the trip table and the ready list: orders that gather, leave and are taken from the ready list. -/

namespace Sys2Proof.Machine

/-! ### What the laws read of an order -/

/-- The stage of an order as the trip table sees it: READY, ON_TRIP or before both. -/
def Stage.seat : Stage → Stage
  | .ready => .ready
  | .onTrip => .onTrip
  | _ => .parked

/-- The stage of an order as the kitchen sees it: an order whose lines are done is READY, on a trip or not. -/
def Stage.work : Stage → Stage
  | .onTrip => .ready
  | st => st

/-- What the laws of the trip table read of an order. -/
def Order.seat (x : Order) : FieldNo × Option TripHandle × Stage := (x.field, x.trip, x.stage.seat)

/-- What the laws of the kitchen read of an order. -/
def Order.work (x : Order) : Stage × Bool × Bool × Bool × List OrderLine :=
  (x.stage.work, x.due, x.timer.isSome, x.cancelPending, x.lines)

/-- The trip table and the ready list, with these orders READY on no trip and off the ready list: all of the laws but that
no order waits where a trip could take it. -/
structure TripCore (s : State) (loose : List OrderHandle) : Prop where
  idle : ∀ k, (s.trip k).state = .idle ↔ (s.trip k).orders = []
  field : ∀ k, (s.trip k).state = .idle ↔ (s.trip k).field = none
  timer : ∀ k, (s.trip k).timer ≠ none ↔ (s.trip k).state = .gathering
  members : ∀ k o, o ∈ (s.trip k).orders ↔ ∃ ord, s.order o = some ord ∧ ord.trip = some k
  stages : ∀ o ord k, s.order o = some ord → ord.trip = some k → (s.trip k).field = some ord.field ∧
    ord.stage = if (s.trip k).state = .out then .onTrip else .ready
  onTrip : ∀ o ord, s.order o = some ord → ord.stage = .onTrip → ord.trip ≠ none
  once : ∀ k, (s.trip k).orders.Nodup
  size : ∀ k, (s.trip k).orders.length ≤ 6
  ready : ∀ o, (o ∈ s.readyList ∨ o ∈ loose) ↔ ∃ ord, s.order o = some ord ∧ ord.stage = .ready ∧ ord.trip = none
  readyOnce : (s.readyList ++ loose).Nodup

/-- No order of the ready list waits where this trip could take it (R158, R159). -/
def SettledAt (s : State) (k : TripHandle) : Prop :=
  (s.readyList ≠ [] → (s.trip k).state ≠ .idle) ∧
    ∀ o ord, o ∈ s.readyList → s.order o = some ord → (s.trip k).field = some ord.field → ¬ (s.trip k).Joinable

variable {s t : State}

theorem tripLaw_iff : TripLaw s ↔ TripCore s [] ∧ ∀ k, SettledAt s k := by
  constructor
  · intro h
    refine ⟨⟨h.idle, h.field, h.timer, h.members, h.stages, h.onTrip, h.once, h.size, fun o => ?_, ?_⟩, fun k =>
      ⟨fun hne => h.formed hne k, fun o ord ho hord hf => h.joined o ord ho hord k hf⟩⟩
    · rw [← h.ready o]
      simp
    · rw [List.append_nil]
      exact h.readyOnce
  · rintro ⟨h, hs⟩
    refine ⟨h.idle, h.field, h.timer, h.members, h.stages, h.onTrip, h.once, h.size, fun o => ?_, ?_, fun hne k => (hs k).1 hne,
      fun o ord ho hord k hf => (hs k).2 o ord ho hord hf⟩
    · rw [← h.ready o]
      simp
    · have := h.readyOnce
      rwa [List.append_nil] at this

theorem Stage.seat_ready {st : Stage} : st.seat = .ready ↔ st = .ready := by cases st <;> simp [Stage.seat]
theorem Stage.seat_onTrip {st : Stage} : st.seat = .onTrip ↔ st = .onTrip := by cases st <;> simp [Stage.seat]

/-- The laws read the trip table, the ready list and the seats of the orders. -/
theorem tripCore_congr {loose : List OrderHandle} (horders : OrdersKeep Order.seat s t)
    (htrips : ∀ k, (t.trip k).state = (s.trip k).state ∧ (t.trip k).field = (s.trip k).field ∧
      (t.trip k).orders = (s.trip k).orders ∧ ((t.trip k).timer ≠ none ↔ (s.trip k).timer ≠ none))
    (hready : t.readyList = s.readyList) (h : TripCore s loose) : TripCore t loose := by
  have before {o : OrderHandle} {x : Order} (hx : t.order o = some x) :
      ∃ y, s.order o = some y ∧ y.field = x.field ∧ y.trip = x.trip ∧ y.stage.seat = x.stage.seat := by
    obtain ⟨y, hy, e⟩ := horders.before hx
    simp only [Order.seat, Prod.mk.injEq] at e
    exact ⟨y, hy, e⟩
  have after {o : OrderHandle} {x : Order} (hx : s.order o = some x) :
      ∃ y, t.order o = some y ∧ y.field = x.field ∧ y.trip = x.trip ∧ y.stage.seat = x.stage.seat := by
    obtain ⟨y, hy, e⟩ := horders.after hx
    simp only [Order.seat, Prod.mk.injEq] at e
    exact ⟨y, hy, e⟩
  refine ⟨fun k => ?_, fun k => ?_, fun k => ?_, fun k o => ?_, fun o x k hx hk => ?_, fun o x hx hstage => ?_, fun k => ?_,
    fun k => ?_, fun o => ?_, hready ▸ h.readyOnce⟩
  · rw [(htrips k).1, (htrips k).2.2.1]
    exact h.idle k
  · rw [(htrips k).1, (htrips k).2.1]
    exact h.field k
  · rw [(htrips k).1, (htrips k).2.2.2]
    exact h.timer k
  · rw [(htrips k).2.2.1, h.members]
    constructor
    · rintro ⟨x, hx, hk⟩
      obtain ⟨y, hy, -, htrip, -⟩ := after hx
      exact ⟨y, hy, htrip.trans hk⟩
    · rintro ⟨x, hx, hk⟩
      obtain ⟨y, hy, -, htrip, -⟩ := before hx
      exact ⟨y, hy, htrip.trans hk⟩
  · obtain ⟨y, hy, hfield, htrip, hseat⟩ := before hx
    obtain ⟨hf, hst⟩ := h.stages o y k hy (htrip.trans hk)
    refine ⟨by rw [(htrips k).2.1, hf, hfield], ?_⟩
    rw [(htrips k).1]
    rw [hst] at hseat
    split at hseat <;> rename_i hout
    · rw [if_pos hout]
      exact Stage.seat_onTrip.mp hseat.symm
    · rw [if_neg hout]
      exact Stage.seat_ready.mp hseat.symm
  · obtain ⟨y, hy, -, htrip, hseat⟩ := before hx
    rw [← htrip]
    exact h.onTrip o y hy (Stage.seat_onTrip.mp (hseat.trans (Stage.seat_onTrip.mpr hstage)))
  · rw [(htrips k).2.2.1]
    exact h.once k
  · rw [(htrips k).2.2.1]
    exact h.size k
  · rw [hready, h.ready]
    constructor
    · rintro ⟨x, hx, hstage, hnone⟩
      obtain ⟨y, hy, -, htrip, hseat⟩ := after hx
      exact ⟨y, hy, Stage.seat_ready.mp (hseat.trans (Stage.seat_ready.mpr hstage)), htrip.trans hnone⟩
    · rintro ⟨x, hx, hstage, hnone⟩
      obtain ⟨y, hy, -, htrip, hseat⟩ := before hx
      exact ⟨y, hy, Stage.seat_ready.mp (hseat.trans (Stage.seat_ready.mpr hstage)), htrip.trans hnone⟩

/-- A trip stays settled while it stands and the ready list gains no order. -/
theorem SettledAt.mono {k : TripHandle} (h : SettledAt s k)
    (htrip : (t.trip k).state = (s.trip k).state ∧ (t.trip k).field = (s.trip k).field ∧
      (t.trip k).orders = (s.trip k).orders)
    (hready : ∀ o ∈ t.readyList, o ∈ s.readyList ∧
      ∀ x, t.order o = some x → ∃ y, s.order o = some y ∧ y.field = x.field) : SettledAt t k := by
  obtain ⟨hstate, hfield, horders⟩ := htrip
  refine ⟨fun hne => ?_, fun o x ho hx hf => ?_⟩
  · obtain ⟨o, ho⟩ := List.exists_mem_of_ne_nil _ hne
    rw [hstate]
    exact h.1 (List.ne_nil_of_mem (hready o ho).1)
  · obtain ⟨hmem, hback⟩ := hready o ho
    obtain ⟨y, hy, e⟩ := hback x hx
    have := h.2 o y hmem hy (by rw [← hfield, hf, e])
    rwa [Trip.Joinable, hstate, horders]

theorem OrdersKeep.fields (h : OrdersKeep Order.plain s t) {o : OrderHandle} (x : Order) (hx : t.order o = some x) :
    ∃ y, s.order o = some y ∧ y.field = x.field := by
  obtain ⟨y, hy, e⟩ := h.before hx
  exact ⟨y, hy, congrArg (fun v => v.2.1) e⟩

theorem tripLaw_congr (horders : OrdersKeep Order.seat s t)
    (htrips : ∀ k, (t.trip k).state = (s.trip k).state ∧ (t.trip k).field = (s.trip k).field ∧
      (t.trip k).orders = (s.trip k).orders ∧ ((t.trip k).timer ≠ none ↔ (s.trip k).timer ≠ none))
    (hready : t.readyList = s.readyList) (h : TripLaw s) : TripLaw t := by
  obtain ⟨hcore, hsettled⟩ := tripLaw_iff.mp h
  refine tripLaw_iff.mpr ⟨tripCore_congr horders htrips hready hcore, fun k => ?_⟩
  obtain ⟨hstate, hfield, hmembers, -⟩ := htrips k
  refine (hsettled k).mono ⟨hstate, hfield, hmembers⟩ fun o ho => ⟨hready ▸ ho, fun x hx => ?_⟩
  obtain ⟨y, hy, e⟩ := horders.before hx
  exact ⟨y, hy, congrArg Prod.fst e⟩

theorem trips_stand (h : t.trips = s.trips) (k : TripHandle) :
    (t.trip k).state = (s.trip k).state ∧ (t.trip k).field = (s.trip k).field ∧
      (t.trip k).orders = (s.trip k).orders ∧ ((t.trip k).timer ≠ none ↔ (s.trip k).timer ≠ none) := by
  rw [show t.trip k = s.trip k from congrArg (look · k) h]
  exact ⟨rfl, rfl, rfl, Iff.rfl⟩

/-! ### Orders that gather in a trip -/

/-- An order that joins the trip. -/
def joined (s : State) (k : TripHandle) (os : List OrderHandle) (o : OrderHandle) : Option Order :=
  if o ∈ os then (s.order o).map fun ord => { ord with trip := some k } else s.order o

/-- An order of a trip that has gathered orders and perhaps gone OUT. -/
def gathered (s : State) (k : TripHandle) (os : List OrderHandle) (y : Trip) (o : OrderHandle) : Option Order :=
  if y.state = .out ∧ o ∈ y.orders then (joined s k os o).map fun ord => { ord with stage := .onTrip } else joined s k os o

/-- What an order becomes that gathers. -/
theorem gathered_eq_some {k : TripHandle} {os : List OrderHandle} {y : Trip} {o : OrderHandle} {x : Order}
    (h : gathered s k os y o = some x) : ∃ x', s.order o = some x' ∧ x =
      { x' with
        trip := if o ∈ os then some k else x'.trip
        stage := if y.state = .out ∧ o ∈ y.orders then .onTrip else x'.stage } := by
  have hjoined {z : Order} (hz : joined s k os o = some z) :
      ∃ x', s.order o = some x' ∧ z = { x' with trip := if o ∈ os then some k else x'.trip } := by
    unfold joined at hz
    split at hz
    · obtain ⟨x', hx', rfl⟩ := Option.map_eq_some_iff.mp hz
      exact ⟨x', hx', by simp [*]⟩
    · exact ⟨z, hz, by simp [*]⟩
  unfold gathered at h
  split at h
  · obtain ⟨z, hz, rfl⟩ := Option.map_eq_some_iff.mp h
    obtain ⟨x', hx', rfl⟩ := hjoined hz
    exact ⟨x', hx', by simp [*]⟩
  · obtain ⟨x', hx', e⟩ := hjoined h
    exact ⟨x', hx', by rw [e]; simp [*]⟩

theorem gathered_of_some {k : TripHandle} {os : List OrderHandle} {y : Trip} {o : OrderHandle} {x : Order}
    (h : s.order o = some x) : gathered s k os y o = some
      { x with
        trip := if o ∈ os then some k else x.trip
        stage := if y.state = .out ∧ o ∈ y.orders then .onTrip else x.stage } := by
  unfold gathered joined
  rw [h]
  split <;> split <;> simp [*]

section
variable {k : TripHandle} {os : List OrderHandle} {y : Trip} {f : FieldNo}

/-- Every member of a trip that has gathered was READY before. -/
theorem TripCore.member_ready (h : TripCore s os) (horders : y.orders = (s.trip k).orders ++ os)
    (hnotOut : (s.trip k).state ≠ .out) {o : OrderHandle} {x : Order} (ho : o ∈ y.orders) (hx : s.order o = some x) :
    x.stage = .ready := by
  rw [horders, List.mem_append] at ho
  rcases ho with ho | ho
  · obtain ⟨x', hx', htrip⟩ := (h.members k o).mp ho
    rw [hx] at hx'
    cases hx'
    rw [(h.stages o x k hx htrip).2, if_neg hnotOut]
  · obtain ⟨x', hx', hstage, -⟩ := (h.ready o).mp (.inr ho)
    rw [hx] at hx'
    cases hx'
    exact hstage

theorem TripCore.gather_work (h : TripCore s os) (horders : y.orders = (s.trip k).orders ++ os)
    (hnotOut : (s.trip k).state ≠ .out) (hord : ∀ o, t.order o = gathered s k os y o) : OrdersKeep Order.work s t := by
  intro o
  rw [hord]
  cases hx : s.order o with
  | none => simp [gathered, joined, hx]
  | some x =>
    rw [gathered_of_some hx, Option.map_some, Option.map_some]
    refine congrArg some ?_
    unfold Order.work
    split
    · rename_i hout
      rw [h.member_ready horders hnotOut hout.2 hx]
      rfl
    · rfl

/-- Orders that are on no trip and off the ready list gather in one trip, which may close at it (R158, R159, R160). -/
theorem TripCore.gather (h : TripCore s os) (horders : y.orders = (s.trip k).orders ++ os) (hne : y.orders ≠ [])
    (hsize : y.orders.length ≤ 6) (hstate : y.state ≠ .idle) (htimer : y.timer ≠ none ↔ y.state = .gathering)
    (hfield : y.field = some f) (hbefore : (s.trip k).state = .idle ∨ (s.trip k).field = some f)
    (hnotOut : (s.trip k).state ≠ .out) (hfields : ∀ o ∈ os, ∀ x, s.order o = some x → x.field = f)
    (htrips : t.trips = put s.trips k y) (hready : t.readyList = s.readyList)
    (hord : ∀ o, t.order o = gathered s k os y o) : TripCore t [] := by
  have trip (j : TripHandle) : t.trip j = if k = j then y else s.trip j := (congrArg (look · j) htrips).trans (look_put _ _ _ _)
  have hfree {o : OrderHandle} (ho : o ∈ os) : ∃ x, s.order o = some x ∧ x.stage = .ready ∧ x.trip = none :=
    (h.ready o).mp (.inr ho)
  have hmember {o : OrderHandle} {x : Order} (hx : s.order o = some x) : o ∈ y.orders ↔ x.trip = some k ∨ o ∈ os := by
    rw [horders, List.mem_append, h.members]
    refine or_congr_left ⟨fun ⟨x', hx', e⟩ => ?_, fun e => ⟨x, hx, e⟩⟩
    rw [hx] at hx'
    cases hx'
    exact e
  have before {o : OrderHandle} {z : Order} (hz : t.order o = some z) : ∃ x, s.order o = some x ∧ z =
      { x with
        trip := if o ∈ os then some k else x.trip
        stage := if y.state = .out ∧ o ∈ y.orders then .onTrip else x.stage } :=
    gathered_eq_some ((hord o).symm.trans hz)
  have after {o : OrderHandle} {x : Order} (hx : s.order o = some x) : t.order o = some
      { x with
        trip := if o ∈ os then some k else x.trip
        stage := if y.state = .out ∧ o ∈ y.orders then .onTrip else x.stage } :=
    (hord o).trans (gathered_of_some hx)
  refine ⟨fun j => ?_, fun j => ?_, fun j => ?_, fun j o => ?_, fun o z j hz hj => ?_, fun o z hz hstage => ?_, fun j => ?_,
    fun j => ?_, fun o => ?_, ?_⟩
  · rw [trip]
    split
    · simp [hstate, hne]
    · exact h.idle j
  · rw [trip]
    split
    · simp [hstate, hfield]
    · exact h.field j
  · rw [trip]
    split
    · exact htimer
    · exact h.timer j
  · rw [trip]
    split
    · rename_i e
      subst e
      constructor
      · intro ho
        have hlive : ∃ x, s.order o = some x := by
          rw [horders, List.mem_append, h.members] at ho
          exact ho.elim (fun ⟨x, hx, _⟩ => ⟨x, hx⟩) fun ho => (hfree ho).imp fun _ => And.left
        obtain ⟨x, hx⟩ := hlive
        refine ⟨_, after hx, ?_⟩
        rcases (hmember hx).mp ho with e | e
        · simp [e]
        · simp [e]
      · rintro ⟨z, hz, hk⟩
        obtain ⟨x, hx, rfl⟩ := before hz
        refine (hmember hx).mpr ?_
        by_cases e : o ∈ os
        · exact .inr e
        · simp only [e, if_false] at hk
          exact .inl hk
    · rename_i e
      rw [h.members]
      constructor
      · rintro ⟨x, hx, hj⟩
        refine ⟨_, after hx, ?_⟩
        have hno : o ∉ os := fun ho => by
          obtain ⟨x', hx', -, hnone⟩ := hfree ho
          rw [hx] at hx'
          cases hx'
          rw [hj] at hnone
          cases hnone
        simp [hno, hj]
      · rintro ⟨z, hz, hj⟩
        obtain ⟨x, hx, rfl⟩ := before hz
        refine ⟨x, hx, ?_⟩
        by_cases ho : o ∈ os
        · simp only [ho, if_true, Option.some.injEq] at hj
          exact absurd hj e
        · simpa only [ho, if_false] using hj
  · obtain ⟨x, hx, rfl⟩ := before hz
    rw [trip]
    by_cases ho : o ∈ y.orders
    · have hj' : k = j := by
        simp only at hj
        split at hj
        · exact Option.some.inj hj
        · rename_i hno
          have := ((hmember hx).mp ho).resolve_right hno
          rw [hj] at this
          exact (Option.some.inj this).symm
      rw [if_pos hj', hfield]
      refine ⟨?_, ?_⟩
      · refine congrArg some (Eq.symm ?_)
        rcases (hmember hx).mp ho with e | e
        · have hf := (h.stages o x k hx e).1
          rcases hbefore with hidle | hbefore
          · rw [(h.field k).mp hidle] at hf
            cases hf
          · rw [hbefore] at hf
            exact (Option.some.inj hf).symm
        · exact hfields o e x hx
      · have hready := h.member_ready horders hnotOut ho hx
        simp only [ho, and_true, hready]
    · have hno : o ∉ os := fun e => ho ((hmember hx).mpr (.inr e))
      simp only [hno, if_false] at hj
      have hjk : k ≠ j := by
        rintro rfl
        exact ho ((hmember hx).mpr (.inl hj))
      rw [if_neg hjk]
      simp only [ho, and_false, if_false]
      exact h.stages o x j hx hj
  · obtain ⟨x, hx, rfl⟩ := before hz
    simp only at hstage ⊢
    by_cases ho : o ∈ os
    · simp [ho]
    · simp only [ho, if_false]
      split at hstage
      · rename_i hout
        rw [((hmember hx).mp hout.2).resolve_right ho]
        simp
      · exact h.onTrip o x hx hstage
  · rw [trip]
    split
    · rename_i e
      subst e
      rw [horders]
      refine (h.once k).append (List.nodup_append.mp h.readyOnce).2.1 ?_
      intro o ho ho'
      obtain ⟨x, hx, hk⟩ := (h.members k o).mp ho
      obtain ⟨x', hx', -, hnone⟩ := hfree ho'
      rw [hx] at hx'
      cases hx'
      rw [hk] at hnone
      cases hnone
    · exact h.once j
  · rw [trip]
    split
    · exact hsize
    · exact h.size j
  · rw [hready]
    have hdisjoint : o ∈ s.readyList → o ∉ os := fun ho ho' => (List.nodup_append.mp h.readyOnce).2.2 o ho o ho' rfl
    constructor
    · rintro (ho | ho)
      · obtain ⟨x, hx, hstage, hnone⟩ := (h.ready o).mp (.inl ho)
        refine ⟨_, after hx, ?_, ?_⟩
        · have hno : o ∉ y.orders := fun e => by
            rcases (hmember hx).mp e with e | e
            · rw [hnone] at e
              cases e
            · exact hdisjoint ho e
          simp [hno, hstage]
        · simp [hdisjoint ho, hnone]
      · cases ho
    · rintro ⟨z, hz, hstage, hnone⟩
      obtain ⟨x, hx, rfl⟩ := before hz
      simp only at hstage hnone
      have hno : o ∉ os := fun e => by simp [e] at hnone
      simp only [hno, if_false] at hnone
      split at hstage
      · cases hstage
      · exact .inl (((h.ready o).mpr ⟨x, hx, hstage, hnone⟩).resolve_right hno)
  · rw [hready, List.append_nil]
    exact (List.nodup_append.mp h.readyOnce).1

end

/-! ### Orders that go -/

/-- An order on no trip whose slot becomes free leaves the ready list (R151, R156). -/
theorem TripCore.drop (h : TripCore s []) {o : OrderHandle} (htrip : ∀ x, s.order o = some x → x.trip = none)
    (hgone : t.order o = none) (hothers : ∀ x, x ≠ o → t.order x = s.order x) (htrips : t.trips = s.trips)
    (hready : t.readyList = s.readyList.erase o) : TripCore t [] := by
  have trip (j : TripHandle) : t.trip j = s.trip j := congrArg (look · j) htrips
  have live {x : OrderHandle} {z : Order} : t.order x = some z ↔ x ≠ o ∧ s.order x = some z := by
    by_cases e : x = o
    · subst e
      simp [hgone]
    · simp [e, hothers x e]
  have hnodup : s.readyList.Nodup := by simpa using h.readyOnce
  refine ⟨fun j => by rw [trip]; exact h.idle j, fun j => by rw [trip]; exact h.field j, fun j => by rw [trip]; exact h.timer j,
    fun j x => ?_, fun x z j hz hj => ?_, fun x z hz hstage => ?_, fun j => by rw [trip]; exact h.once j,
    fun j => by rw [trip]; exact h.size j, fun x => ?_, ?_⟩
  · rw [trip, h.members]
    refine exists_congr fun z => ?_
    rw [live]
    refine ⟨fun ⟨hz, hj⟩ => ⟨⟨?_, hz⟩, hj⟩, fun ⟨⟨_, hz⟩, hj⟩ => ⟨hz, hj⟩⟩
    rintro rfl
    rw [htrip z hz] at hj
    cases hj
  · rw [trip]
    exact h.stages x z j (live.mp hz).2 hj
  · exact h.onTrip x z (live.mp hz).2 hstage
  · rw [hready, hnodup.mem_erase_iff]
    have := h.ready x
    simp only [List.not_mem_nil, or_false] at this ⊢
    rw [this]
    constructor
    · rintro ⟨hne, z, hz, hstage⟩
      exact ⟨z, live.mpr ⟨hne, hz⟩, hstage⟩
    · rintro ⟨z, hz, hstage⟩
      exact ⟨(live.mp hz).1, z, (live.mp hz).2, hstage⟩
  · rw [hready, List.append_nil]
    exact hnodup.erase o

/-- What is left of a trip that an order leaves: the others, or nothing (R159). -/
def Trip.without (x : Trip) (o : OrderHandle) : Trip :=
  if x.orders.erase o = [] then {} else { x with orders := x.orders.erase o }

/-- An order on a trip whose slot becomes free leaves the trip (R151, R159). -/
theorem TripCore.leave (h : TripCore s []) {o : OrderHandle} {x : Order} {k : TripHandle} (hx : s.order o = some x)
    (hk : x.trip = some k) (hgone : t.order o = none) (hothers : ∀ z, z ≠ o → t.order z = s.order z)
    (htrips : t.trips = put s.trips k ((s.trip k).without o)) (hready : t.readyList = s.readyList) : TripCore t [] := by
  have trip (j : TripHandle) : t.trip j = if k = j then (s.trip k).without o else s.trip j :=
    (congrArg (look · j) htrips).trans (look_put _ _ _ _)
  have live {w : OrderHandle} {z : Order} : t.order w = some z ↔ w ≠ o ∧ s.order w = some z := by
    by_cases e : w = o
    · subst e
      simp [hgone]
    · simp [e, hothers w e]
  have hmem : o ∈ (s.trip k).orders := (h.members k o).mpr ⟨x, hx, hk⟩
  have hlive : (s.trip k).state ≠ .idle := fun e => by
    rw [(h.idle k).mp e] at hmem
    cases hmem
  have hwithout : ((s.trip k).without o).orders = (s.trip k).orders.erase o := by
    unfold Trip.without
    split
    · rename_i e
      exact e.symm
    · rfl
  refine ⟨fun j => ?_, fun j => ?_, fun j => ?_, fun j w => ?_, fun w z j hz hj => ?_, fun w z hz hstage => ?_, fun j => ?_,
    fun j => ?_, fun w => ?_, hready ▸ h.readyOnce⟩
  · rw [trip]
    split
    · unfold Trip.without
      split
      · simp
      · rename_i e
        simp [hlive, e]
    · exact h.idle j
  · rw [trip]
    split
    · unfold Trip.without
      split
      · simp
      · exact h.field k
    · exact h.field j
  · rw [trip]
    split
    · unfold Trip.without
      split
      · simp
      · exact h.timer k
    · exact h.timer j
  · rw [trip]
    split
    · rename_i e
      subst e
      rw [hwithout, (h.once k).mem_erase_iff, h.members]
      constructor
      · rintro ⟨hne, z, hz, hj⟩
        exact ⟨z, live.mpr ⟨hne, hz⟩, hj⟩
      · rintro ⟨z, hz, hj⟩
        exact ⟨(live.mp hz).1, z, (live.mp hz).2, hj⟩
    · rename_i e
      rw [h.members]
      refine exists_congr fun z => ?_
      rw [live]
      refine ⟨fun ⟨hz, hj⟩ => ⟨⟨?_, hz⟩, hj⟩, fun ⟨⟨_, hz⟩, hj⟩ => ⟨hz, hj⟩⟩
      rintro rfl
      rw [hx] at hz
      cases hz
      rw [hk] at hj
      exact e (Option.some.inj hj)
  · obtain ⟨hne, hz'⟩ := live.mp hz
    obtain ⟨hf, hst⟩ := h.stages w z j hz' hj
    rw [trip]
    split
    · rename_i e
      subst e
      have hleft : w ∈ (s.trip k).orders.erase o := (List.mem_erase_of_ne hne).mpr ((h.members k w).mpr ⟨z, hz', hj⟩)
      rw [Trip.without, if_neg (List.ne_nil_of_mem hleft)]
      exact ⟨hf, hst⟩
    · exact ⟨hf, hst⟩
  · exact h.onTrip w z (live.mp hz).2 hstage
  · rw [trip]
    split
    · rw [hwithout]
      exact (h.once k).erase o
    · exact h.once j
  · rw [trip]
    split
    · rw [hwithout]
      exact List.length_erase_le.trans (h.size k)
    · exact h.size j
  · rw [hready, h.ready]
    refine exists_congr fun z => ?_
    rw [live]
    refine ⟨fun ⟨hz, hst, hnone⟩ => ⟨⟨?_, hz⟩, hst, hnone⟩, fun ⟨⟨_, hz⟩, hst⟩ => ⟨hz, hst⟩⟩
    rintro rfl
    rw [hx] at hz
    cases hz
    rw [hk] at hnone
    cases hnone

/-- Orders taken off the ready list are loose. -/
theorem TripCore.take (h : TripCore s []) {os : List OrderHandle} (hos : ∀ o ∈ os, o ∈ s.readyList) (hnodup : os.Nodup)
    (horders : ∀ o, t.order o = s.order o) (htrips : t.trips = s.trips)
    (hready : t.readyList = s.readyList.filter fun o => !os.contains o) : TripCore t os := by
  have trip (j : TripHandle) : t.trip j = s.trip j := congrArg (look · j) htrips
  have hlist : s.readyList.Nodup := by simpa using h.readyOnce
  have hready' := h.ready
  simp only [List.not_mem_nil, or_false] at hready'
  refine ⟨fun j => by rw [trip]; exact h.idle j, fun j => by rw [trip]; exact h.field j, fun j => by rw [trip]; exact h.timer j,
    fun j x => ?_, fun x z j hz hj => ?_, fun x z hz hstage => ?_, fun j => by rw [trip]; exact h.once j,
    fun j => by rw [trip]; exact h.size j, fun x => ?_, ?_⟩
  · simp only [trip, horders]
    exact h.members j x
  · rw [trip]
    exact h.stages x z j ((horders x).symm.trans hz) hj
  · exact h.onTrip x z ((horders x).symm.trans hz) hstage
  · simp only [horders, ← hready', hready, List.mem_filter, Bool.not_eq_true', List.contains_eq_mem, decide_eq_false_iff_not]
    constructor
    · rintro (hx | hx)
      · exact hx.1
      · exact hos x hx
    · intro hx
      by_cases e : x ∈ os
      · exact .inr e
      · exact .inl ⟨hx, e⟩
  · rw [hready]
    refine (hlist.filter _).append hnodup fun x hx hx' => ?_
    rw [List.mem_filter] at hx
    simp [hx'] at hx

/-- An order that becomes READY is loose (R146). -/
theorem TripCore.becomeReady (h : TripCore s []) {o : OrderHandle} {x x' : Order} (hx : s.order o = some x)
    (hstage : x.stage ≠ .ready ∧ x.stage ≠ .onTrip) (hx' : x'.stage = .ready ∧ x'.trip = x.trip)
    (hnew : t.order o = some x') (hothers : ∀ z, z ≠ o → t.order z = s.order z) (htrips : t.trips = s.trips)
    (hready : t.readyList = s.readyList) : TripCore t [o] ∧ x.trip = none := by
  have hnone : x.trip = none := by
    by_contra hne
    obtain ⟨k, hk⟩ := Option.ne_none_iff_exists'.mp hne
    have := (h.stages o x k hx hk).2
    split at this
    · exact hstage.2 this
    · exact hstage.1 this
  refine ⟨?_, hnone⟩
  have trip (j : TripHandle) : t.trip j = s.trip j := congrArg (look · j) htrips
  have hready' := h.ready
  simp only [List.not_mem_nil, or_false] at hready'
  have hoff : o ∉ s.readyList := fun ho => by
    obtain ⟨z, hz, hst, -⟩ := (hready' o).mp ho
    rw [hx] at hz
    cases hz
    exact hstage.1 hst
  have seated {w : OrderHandle} {z : Order} (hz : t.order w = some z) (hw : z.trip ≠ none) : s.order w = some z := by
    by_cases e : w = o
    · subst e
      rw [hnew] at hz
      cases hz
      exact absurd (hx'.2.trans hnone) hw
    · rwa [hothers w e] at hz
  have seated' {w : OrderHandle} {z : Order} (hz : s.order w = some z) (hw : z.trip ≠ none) : t.order w = some z := by
    by_cases e : w = o
    · subst e
      rw [hx] at hz
      cases hz
      exact absurd hnone hw
    · rwa [hothers w e]
  refine ⟨fun j => by rw [trip]; exact h.idle j, fun j => by rw [trip]; exact h.field j, fun j => by rw [trip]; exact h.timer j,
    fun j w => ?_, fun w z j hz hj => ?_, fun w z hz hst => ?_, fun j => by rw [trip]; exact h.once j,
    fun j => by rw [trip]; exact h.size j, fun w => ?_, ?_⟩
  · rw [trip, h.members]
    constructor
    · rintro ⟨z, hz, hj⟩
      exact ⟨z, seated' hz (by simp [hj]), hj⟩
    · rintro ⟨z, hz, hj⟩
      exact ⟨z, seated hz (by simp [hj]), hj⟩
  · rw [trip]
    exact h.stages w z j (seated hz (by simp [hj])) hj
  · by_cases e : w = o
    · subst e
      rw [hnew] at hz
      cases hz
      rw [hx'.1] at hst
      cases hst
    · exact h.onTrip w z ((hothers w e).symm.trans hz) hst
  · rw [hready, hready', List.mem_singleton]
    by_cases e : w = o
    · subst e
      simp only [or_true, true_iff]
      exact ⟨x', hnew, hx'.1, hx'.2.trans hnone⟩
    · rw [hothers w e]
      simp [e]
  · rw [hready]
    refine List.Nodup.append (by simpa using h.readyOnce) (List.nodup_singleton o) ?_
    simpa using hoff

end Sys2Proof.Machine
end

section
/-! PROOF. The laws of the trip table through its operations: joins, forming again, filling up, leaving, recall. -/

namespace Sys2Proof.Machine

variable {s t : State}

/-! ### A slot left out -/

/-- The state with one slot free, where an order is on its way out (R151). -/
def masked (gone : Option OrderHandle) (s : State) : State :=
  match gone with
  | none => s
  | some o => s.setOrder o none

theorem masked_order (gone : Option OrderHandle) (s : State) (x : OrderHandle) :
    (masked gone s).order x = if gone = some x then none else s.order x := by
  cases gone with
  | none => rfl
  | some o =>
    refine (State.order_setOrder s o x none).trans ?_
    simp

theorem masked_trips (gone : Option OrderHandle) (s : State) : (masked gone s).trips = s.trips := by cases gone <;> rfl
theorem masked_readyList (gone : Option OrderHandle) (s : State) : (masked gone s).readyList = s.readyList := by
  cases gone <;> rfl
theorem masked_trip (gone : Option OrderHandle) (s : State) (k : TripHandle) : (masked gone s).trip k = s.trip k :=
  congrArg (look · k) (masked_trips gone s)

theorem gathered_congr {k : TripHandle} {os : List OrderHandle} {y : Trip} {o : OrderHandle} (h : t.order o = s.order o) :
    gathered t k os y o = gathered s k os y o := by
  unfold gathered joined
  rw [h]

theorem gathered_none {k : TripHandle} {os : List OrderHandle} {y : Trip} {o : OrderHandle} (h : s.order o = none) :
    gathered s k os y o = none := by
  unfold gathered joined
  rw [h]
  split <;> split <;> rfl

theorem gathered_masked {gone : Option OrderHandle} {u v : State} {k : TripHandle} {os : List OrderHandle} {y : Trip}
    (hv : ∀ x, v.order x = gathered u k os y x) (x : OrderHandle) :
    (masked gone v).order x = gathered (masked gone u) k os y x := by
  rw [masked_order]
  split
  · rename_i e
    exact (gathered_none (by rw [masked_order, if_pos e])).symm
  · rename_i e
    rw [hv]
    exact (gathered_congr (by rw [masked_order, if_neg e])).symm

theorem SettledAt.of_empty {k : TripHandle} (h : s.readyList = []) : SettledAt s k :=
  ⟨fun hne => absurd h hne, fun o x ho => by rw [h] at ho; cases ho⟩

/-! ### A join -/

/-- The trip that orders have joined, and what becomes of the orders (R158, R159, R160). -/
theorem joinTrip_shape {k : TripHandle} {f : FieldNo} {os : List OrderHandle} (hfield : (s.trip k).field = some f)
    (hnotOut : (s.trip k).state ≠ .out) (hgathers : (s.trip k).state = .gathering → (s.trip k).timer ≠ none ∨ os ≠ [])
    (hholds : (s.trip k).state ≠ .gathering → (s.trip k).timer = none) :
    ∃ y : Trip, (s.joinTrip k os).trips = put s.trips k y ∧ y.orders = (s.trip k).orders ++ os ∧ y.field = some f ∧
      (y.state = .idle ↔ (s.trip k).state = .idle) ∧ (y.timer ≠ none ↔ y.state = .gathering) ∧
      ∀ o, (s.joinTrip k os).order o = gathered s k os y o := by
  obtain ⟨hstays, hcloses⟩ := s.joinTrip_spec k os
  by_cases hc : ((s.trip k).state = .gathering ∧ os ≠ []) ∧ ((s.trip k).orders ++ os).length = 6
  · obtain ⟨hjoins, hsix⟩ := hc
    obtain ⟨hheld, hout⟩ := hcloses f hjoins hsix hfield
    by_cases hallowed : (s.program f).state = .dark ∨ (s.program f).state = .opened ∨ (s.program f).state = .ended ∨
        ∃ seg, (s.program f).record.segments[(s.program f).segment]? = some seg ∧ seg.runners = true
    · obtain ⟨horders, hstate⟩ := hout hallowed
      refine ⟨{ s.trip k with state := .out, orders := (s.trip k).orders ++ os, timer := none }, ?_, rfl, hfield, ?_, ?_, ?_⟩
      · rw [hstate]
      · simp [hjoins.1]
      · simp
      · intro o
        rw [horders o]
        unfold gathered joined
        simp
    · obtain ⟨horders, hstate⟩ := hheld hallowed
      refine ⟨{ s.trip k with state := .fieldHold, orders := (s.trip k).orders ++ os, timer := none }, ?_, rfl, hfield, ?_, ?_,
        ?_⟩
      · rw [hstate]
      · simp [hjoins.1]
      · simp
      · intro o
        rw [horders o]
        simp [gathered, joined]
  · obtain ⟨horders, hstate⟩ := hstays hc
    refine ⟨{ s.trip k with
      orders := (s.trip k).orders ++ os
      timer := if (s.trip k).state = .gathering ∧ os ≠ [] then some (s.window * 1000) else (s.trip k).timer },
      ?_, rfl, hfield, Iff.rfl, ?_, ?_⟩
    · rw [hstate]
    · dsimp only
      split
      · rename_i hj
        simp [hj.1]
      · rename_i hj
        by_cases hg : (s.trip k).state = .gathering
        · have hnone : os = [] := by
            by_contra hne
            exact hj ⟨hg, hne⟩
          simp only [hg, iff_true]
          exact (hgathers hg).resolve_right (not_not.mpr hnone)
        · simp [hg, hholds hg]
    · intro o
      rw [horders o]
      simp [gathered, joined, hnotOut]

/-- Orders of its field that are loose join a trip that gathers or is held. -/
theorem joinTrip_law {gone : Option OrderHandle} {u : State} {k : TripHandle} {f : FieldNo} {os : List OrderHandle}
    {x : Trip} (h : TripCore s os) (hs : ∀ o, s.order o = (masked gone u).order o) (htrips : u.trips = put s.trips k x)
    (hready : u.readyList = s.readyList) (horders : x.orders = (s.trip k).orders) (hfield : x.field = some f)
    (hstate : x.state = .gathering ∨ x.state = .fieldHold) (htimer : x.state = .gathering → x.timer ≠ none ∨ os ≠ [])
    (hheld : x.state = .fieldHold → x.timer = none)
    (hbefore : (s.trip k).state = .idle ∨ (s.trip k).field = some f) (hnotOut : (s.trip k).state ≠ .out)
    (hne : x.orders ++ os ≠ []) (hsize : (x.orders ++ os).length ≤ 6)
    (hfields : ∀ o ∈ os, ∀ z, s.order o = some z → z.field = f) :
    ∃ y : Trip, TripCore (masked gone (u.joinTrip k os)) [] ∧ OrdersKeep Order.work s (masked gone (u.joinTrip k os)) ∧
      (u.joinTrip k os).trips = put s.trips k y ∧ y.orders = x.orders ++ os ∧ y.state ≠ .idle := by
  have hx : u.trip k = x := by rw [State.trip, htrips, look_put_self]
  have hstateu : x.state ≠ .out ∧ x.state ≠ .idle := by rcases hstate with e | e <;> simp [e]
  obtain ⟨y, hy, hyorders, hyfield, hyidle, hytimer, hyord⟩ := joinTrip_shape (s := u) (k := k) (os := os)
    (hx ▸ hfield) (hx ▸ hstateu.1) (hx ▸ htimer) (by
      rw [hx]
      exact fun hg => hheld (hstate.resolve_left hg))
  rw [hx] at hyorders hyidle
  have htrips' : (u.joinTrip k os).trips = put s.trips k y := by rw [hy, htrips, put_put]
  have hord (o : OrderHandle) : (masked gone (u.joinTrip k os)).order o = gathered s k os y o :=
    (gathered_masked hyord o).trans (gathered_congr (hs o).symm)
  have hyorders' : y.orders = (s.trip k).orders ++ os := by rw [hyorders, horders]
  refine ⟨y, ?_, h.gather_work hyorders' hnotOut hord, htrips', hyorders, hyidle.not.mpr hstateu.2⟩
  refine h.gather hyorders' (hyorders ▸ hne) (hyorders ▸ hsize) (hyidle.not.mpr hstateu.2) hytimer hyfield hbefore hnotOut
    hfields ?_ ?_ hord
  · rw [masked_trips, htrips']
  · rw [masked_readyList]
    simp [hready]

/-! ### Ready orders of a field -/

theorem mem_readyOf {f : FieldNo} {n : Nat} {o : OrderHandle} (h : o ∈ s.readyOf f n) :
    o ∈ s.readyList ∧ ∃ x, s.order o = some x ∧ x.field = f := by
  have hmem := List.mem_of_mem_take h
  rw [List.mem_filter] at hmem
  refine ⟨hmem.1, ?_⟩
  obtain ⟨x, hx, e⟩ := (Option.any_eq_true _ _).mp hmem.2
  exact ⟨x, hx, by simpa using e⟩

/-- A ready order of the field that is not among the first so many stands behind as many (R159). -/
theorem length_readyOf {f : FieldNo} {n : Nat} {o : OrderHandle} {x : Order} (ho : o ∈ s.readyList) (hx : s.order o = some x)
    (hf : x.field = f) (hnot : o ∉ s.readyOf f n) : (s.readyOf f n).length = n := by
  unfold State.readyOf at hnot ⊢
  rw [List.length_take]
  by_contra hne
  refine hnot ?_
  rw [List.take_of_length_le (by omega)]
  rw [List.mem_filter]
  exact ⟨ho, by simp [hx, hf]⟩

theorem nodup_readyOf (h : s.readyList.Nodup) (f : FieldNo) (n : Nat) : (s.readyOf f n).Nodup :=
  (h.filter _).take

/-! ### A trip formed again or filled up -/

/-- Where the masked slot is off the ready list, the ready orders are those of the masked state. -/
theorem readyOf_masked {gone : Option OrderHandle} (hgone : ∀ o, gone = some o → o ∉ s.readyList) (f : FieldNo) (n : Nat) :
    (masked gone s).readyOf f n = s.readyOf f n := by
  unfold State.readyOf
  rw [masked_readyList]
  refine congrArg (List.take n) (List.filter_congr fun o ho => ?_)
  rw [masked_order, if_neg fun e => hgone o e ho]

theorem TripCore.off_readyList {gone : Option OrderHandle} (h : TripCore (masked gone s) []) (o : OrderHandle)
    (hgone : gone = some o) : o ∉ s.readyList := by
  intro ho
  obtain ⟨x, hx, -⟩ := (h.ready o).mp (.inl (by rwa [masked_readyList]))
  rw [masked_order, if_pos hgone] at hx
  cases hx

/-- After orders of the trip's field have been taken from the ready list, as many as there is room for, the trip is
settled. -/
theorem settledAt_filled {gone : Option OrderHandle} {u v : State} {k : TripHandle} {f : FieldNo} {n : Nat} {y : Trip}
    (hgone : ∀ o, gone = some o → o ∉ u.readyList) (hv : v.trip k = y) (hidle : y.state ≠ .idle)
    (hlength : 6 ≤ y.orders.length + (n - (u.readyOf f n).length))
    (hready : v.readyList = u.readyList.filter fun o => !(u.readyOf f n).contains o)
    (hfield : y.field = some f)
    (hback : ∀ o x, (masked gone v).order o = some x → ∃ z, (masked gone u).order o = some z ∧ z.field = x.field) :
    SettledAt (masked gone v) k := by
  refine ⟨fun _ => by rw [masked_trip, hv]; exact hidle, fun o x ho hx hf hjoin => ?_⟩
  rw [masked_readyList, hready, List.mem_filter] at ho
  obtain ⟨ho, hnot⟩ := ho
  have hnot' : o ∉ u.readyOf f n := by simpa using hnot
  rw [masked_trip, hv] at hf hjoin
  obtain ⟨z, hz, hzf⟩ := hback o x hx
  rw [masked_order, if_neg fun e => hgone o e ho] at hz
  have hlen := length_readyOf ho hz (hzf.trans (Option.some.inj (hf.symm.trans hfield))) hnot'
  rw [hlen] at hlength
  have := hjoin.2
  omega

theorem ordersKeep_masked {α : Type} {π : Order → α} (gone : Option OrderHandle) (h : OrdersKeep π s t) :
    OrdersKeep π (masked gone s) (masked gone t) := by
  intro o
  rw [masked_order, masked_order]
  split
  · rfl
  · exact h o

/-- A trip that has become IDLE is formed again from the ready list, and none of its orders waits for it (R159). -/
theorem reformTrip_law {gone : Option OrderHandle} {u : State} {k : TripHandle} (h : TripCore (masked gone u) [])
    (hidle : u.trip k = {}) :
    (TripCore (masked gone (u.reformTrip k)) [] ∧ SettledAt (masked gone (u.reformTrip k)) k) ∧
      OrdersKeep Order.work (masked gone u) (masked gone (u.reformTrip k)) ∧
      (∀ j, j ≠ k → (u.reformTrip k).trip j = u.trip j) ∧
      ((u.readyList = [] ∧ u.reformTrip k = u) ∨
        ∃ first x, first ∈ u.readyList.head? ∧ u.order first = some x ∧
          (u.reformTrip k).readyList = u.readyList.filter fun o => !(u.readyOf x.field 6).contains o) := by
  cases hlist : u.readyList with
  | nil =>
    have e : u.reformTrip k = u := u.reformTrip_nil k hlist
    rw [e]
    exact ⟨⟨h, SettledAt.of_empty (by rw [masked_readyList, hlist])⟩, OrdersKeep.refl _, fun _ _ => rfl, .inl ⟨rfl, rfl⟩⟩
  | cons first more =>
    have hgone := h.off_readyList
    have hfirst : first ∈ u.readyList := by simp [hlist]
    have hready := h.ready first
    rw [masked_readyList] at hready
    obtain ⟨x, hx, -⟩ := hready.mp (.inl hfirst)
    rw [masked_order, if_neg fun e => hgone first e hfirst] at hx
    have hshape := u.reformTrip_cons k hlist hx
    have hmembers : (u.readyList.filter fun o => (u.order o).any fun z => z.field == x.field).take 6 = u.readyOf x.field 6 :=
      rfl
    rw [hmembers] at hshape
    have hnodup : u.readyList.Nodup := by
      have := h.readyOnce
      rwa [masked_readyList, List.append_nil] at this
    have hmem : first ∈ u.readyOf x.field 6 := by
      unfold State.readyOf
      rw [hlist, List.filter_cons_of_pos (by simp [hx])]
      exact List.mem_cons_self
    have htaken : TripCore { masked gone u with readyList := u.readyList.filter fun o => !(u.readyOf x.field 6).contains o }
        (u.readyOf x.field 6) :=
      h.take (fun o ho => by rw [masked_readyList]; exact (mem_readyOf ho).1) (nodup_readyOf hnodup _ _) (fun _ => rfl) rfl
        (by rw [masked_readyList])
    have hlen := u.length_readyOf_le x.field 6
    have hk : ({ masked gone u with readyList := u.readyList.filter fun o => !(u.readyOf x.field 6).contains o } :
        State).trip k = {} := (masked_trip gone u k).trans hidle
    obtain ⟨y, hcore, hwork, htrips, hyorders, hyidle⟩ := joinTrip_law (gone := gone) (k := k) (f := x.field)
      (u := { u with
        trips := put u.trips k { state := .gathering, field := some x.field, orders := [], timer := none }
        readyList := u.readyList.filter fun o => !(u.readyOf x.field 6).contains o })
      (x := { state := .gathering, field := some x.field, orders := [], timer := none }) htaken
      (fun o => by rw [masked_order]; exact masked_order gone u o) (by rw [masked_trips]) rfl (by rw [hk]) rfl (.inl rfl)
      (fun _ => .inr (List.ne_nil_of_mem hmem)) (fun e => nomatch e) (.inl (by rw [hk])) (by rw [hk]; simp)
      (List.ne_nil_of_mem hmem) (by simpa using hlen) (fun o ho z hz => by
        obtain ⟨hmem, z', hz', hf⟩ := mem_readyOf ho
        have hz'' : (masked gone u).order o = some z := hz
        rw [masked_order, if_neg fun e => hgone o e hmem, hz'] at hz''
        cases hz''
        exact hf)
    rw [← hshape] at hcore hwork htrips
    rw [masked_trips] at htrips
    have hreadyList : (u.reformTrip k).readyList = u.readyList.filter fun o => !(u.readyOf x.field 6).contains o := by
      rw [hshape]
      simp
    have htrip : (u.reformTrip k).trip k = y := by rw [State.trip, htrips, look_put_self]
    have hkeep := ordersKeep_masked gone (ordersKeep_reformTrip u k)
    have hyfield : y.field = some x.field := by
      have hin : first ∈ ((masked gone (u.reformTrip k)).trip k).orders := by
        rw [masked_trip, htrip, hyorders]
        exact hmem
      obtain ⟨w, hw, hwk⟩ := (hcore.members k first).mp hin
      have hf := (hcore.stages first w k hw hwk).1
      obtain ⟨w', hw', hff⟩ := hkeep.fields w hw
      rw [masked_order, if_neg fun e => hgone first e hfirst, hx] at hw'
      cases hw'
      rw [masked_trip, htrip] at hf
      rw [hf, hff]
    refine ⟨⟨hcore, settledAt_filled (n := 6) hgone htrip hyidle ?_ hreadyList hyfield fun o z hz => hkeep.fields z hz⟩, hwork,
      fun j hj => ?_, .inr ⟨first, x, by simp, hx, by rw [hreadyList, hlist]⟩⟩
    · rw [hyorders, List.nil_append]
      omega
    · rw [State.trip, htrips, look_put_ne _ _ (Ne.symm hj)]
      rfl

/-- A trip that still gathers or is held takes ready orders of its field, and none waits that it has room for (R159). -/
theorem refillTrip_law {gone : Option OrderHandle} {u : State} {k : TripHandle} (h : TripCore (masked gone u) [])
    (hstate : (u.trip k).state = .gathering ∨ (u.trip k).state = .fieldHold) :
    (TripCore (masked gone (u.refillTrip k)) [] ∧ SettledAt (masked gone (u.refillTrip k)) k) ∧
      OrdersKeep Order.work (masked gone u) (masked gone (u.refillTrip k)) ∧
      (∀ j, j ≠ k → (u.refillTrip k).trip j = u.trip j) ∧ ∀ o ∈ (u.refillTrip k).readyList, o ∈ u.readyList := by
  have hgone := h.off_readyList
  have hcoretrip : (masked gone u).trip k = u.trip k := masked_trip gone u k
  have hlive : (u.trip k).state ≠ .idle ∧ (u.trip k).state ≠ .out := by rcases hstate with e | e <;> simp [e]
  have hidle := h.idle k
  have hfieldIff := h.field k
  have htimerIff := h.timer k
  have hsize := h.size k
  rw [hcoretrip] at hidle hfieldIff htimerIff hsize
  obtain ⟨f, hf⟩ := Option.ne_none_iff_exists'.mp (hfieldIff.not.mp hlive.1)
  have hne : (u.trip k).orders ≠ [] := hidle.not.mp hlive.1
  have hshape : u.refillTrip k = (u.withoutReady (u.readyOf f (6 - (u.trip k).orders.length))).joinTrip k
      (u.readyOf f (6 - (u.trip k).orders.length)) := by
    unfold State.refillTrip
    rw [hf]
  generalize hn : 6 - (u.trip k).orders.length = n at hshape
  have hnodup : u.readyList.Nodup := by
    have := h.readyOnce
    rwa [masked_readyList, List.append_nil] at this
  have htaken : TripCore { masked gone u with readyList := u.readyList.filter fun o => !(u.readyOf f n).contains o }
      (u.readyOf f n) :=
    h.take (fun o ho => by rw [masked_readyList]; exact (mem_readyOf ho).1) (nodup_readyOf hnodup _ _) (fun _ => rfl) rfl
      (by rw [masked_readyList])
  have hlen := u.length_readyOf_le f n
  obtain ⟨y, hcore, hwork, htrips, hyorders, hyidle⟩ := joinTrip_law (gone := gone) (k := k) (f := f)
    (u := u.withoutReady (u.readyOf f n)) (x := u.trip k) htaken
    (fun o => by rw [masked_order]; exact masked_order gone u o)
    (by rw [masked_trips]; exact (put_look u.trips k).symm) rfl (by rw [← hcoretrip]; rfl) hf hstate
    (fun e => .inl (htimerIff.mpr e)) (fun e => not_not.mp (htimerIff.not.mpr (by simp [e])))
    (.inr (by rw [← hf, ← hcoretrip]; rfl)) (fun e => hlive.2 (hcoretrip ▸ e)) (by simp [hne]) (by
      rw [List.length_append]
      omega) (fun o ho z hz => by
      obtain ⟨hmem, z', hz', hzf⟩ := mem_readyOf ho
      have hz'' : (masked gone u).order o = some z := hz
      rw [masked_order, if_neg fun e => hgone o e hmem, hz'] at hz''
      cases hz''
      exact hzf)
  rw [← hshape] at hcore hwork htrips
  rw [masked_trips] at htrips
  have hreadyList : (u.refillTrip k).readyList = u.readyList.filter fun o => !(u.readyOf f n).contains o := by
    rw [hshape]
    simp [State.withoutReady]
  have htrip : (u.refillTrip k).trip k = y := by rw [State.trip, htrips, look_put_self]
  have hkeep : OrdersKeep Order.plain (masked gone u) (masked gone (u.refillTrip k)) := by
    refine ordersKeep_masked gone ?_
    rw [hshape]
    exact ordersKeep_joinTrip (u.withoutReady _) k _
  obtain ⟨first, hfirst⟩ := List.exists_mem_of_ne_nil _ hne
  have hyfield : y.field = some f := by
    have hin : first ∈ ((masked gone (u.refillTrip k)).trip k).orders := by
      rw [masked_trip, htrip, hyorders]
      exact List.mem_append_left _ hfirst
    obtain ⟨w, hw, hwk⟩ := (hcore.members k first).mp hin
    have hwf := (hcore.stages first w k hw hwk).1
    obtain ⟨w', hw', hff⟩ := hkeep.fields w hw
    obtain ⟨z, hz, hzk⟩ := (h.members k first).mp (by rw [hcoretrip]; exact hfirst)
    rw [hw'] at hz
    cases hz
    have hzf := (h.stages first w' k hw' hzk).1
    rw [hcoretrip, hf] at hzf
    rw [masked_trip, htrip] at hwf
    rw [hwf, ← hff, Option.some.inj hzf]
  refine ⟨⟨hcore, settledAt_filled (n := n) hgone htrip hyidle ?_ hreadyList hyfield fun o z hz => hkeep.fields z hz⟩, hwork,
    fun j hj => ?_, fun o ho => ?_⟩
  · rw [hyorders, List.length_append]
    omega
  · rw [State.trip, htrips, look_put_ne _ _ (Ne.symm hj)]
    rfl
  · rw [hreadyList] at ho
    exact (List.mem_filter.mp ho).1

/-! ### An order that leaves its trip -/

/-- An order leaves its trip, its slot on its way to free: the laws stand for the others (R159, R164, R169). -/
theorem leaveTrip_law {o : OrderHandle} {x : Order} {k : TripHandle} (h : TripLaw s) (hx : s.order o = some x)
    (hk : x.trip = some k) :
    TripLaw (masked (some o) (s.leaveTrip k o)) ∧
      OrdersKeep Order.work (masked (some o) s) (masked (some o) (s.leaveTrip k o)) := by
  obtain ⟨hcore, hsettled⟩ := tripLaw_iff.mp h
  have hleft (u : State) (horders : ∀ z, u.order z = s.order z) (htrips : u.trips = put s.trips k ((s.trip k).without o))
      (hready : u.readyList = s.readyList) : TripCore (masked (some o) u) [] :=
    hcore.leave hx hk (by rw [masked_order, if_pos rfl])
      (fun z hz => by rw [masked_order, if_neg (by simpa using Ne.symm hz), horders]) (by rw [masked_trips, htrips])
      (by rw [masked_readyList, hready])
  have hsame (u : State) (horders : u.orders = s.orders) : OrdersKeep Order.work (masked (some o) s) (masked (some o) u) :=
    ordersKeep_masked _ (OrdersKeep.of_orders horders)
  have others {v : State} (hplain : OrdersKeep Order.plain s v) (hv : ∀ j, j ≠ k → v.trip j = s.trip j)
      (hsub : ∀ z ∈ v.readyList, z ∈ s.readyList) (j : TripHandle) (hj : j ≠ k) : SettledAt (masked (some o) v) j := by
    refine (hsettled j).mono (by rw [masked_trip, hv j hj]; exact ⟨rfl, rfl, rfl⟩) fun z hz => ?_
    rw [masked_readyList] at hz
    refine ⟨hsub z hz, fun w hw => ?_⟩
    rw [masked_order] at hw
    split at hw
    · cases hw
    · exact hplain.fields w hw
  have hplain := ordersKeep_leaveTrip s k o
  revert hplain
  unfold State.leaveTrip
  dsimp only
  split
  · rename_i hempty
    rw [List.isEmpty_iff] at hempty
    intro hplain
    have hu : TripCore (masked (some o) (s.setTrip k {})) [] :=
      hleft (s.setTrip k {}) (fun _ => rfl) (by rw [Trip.without, if_pos hempty]; rfl) rfl
    obtain ⟨⟨hcore', hk'⟩, hwork, htrips, hlist⟩ := reformTrip_law hu (State.trip_setTrip_self _ _ _)
    refine ⟨tripLaw_iff.mpr ⟨hcore', fun j => ?_⟩, (hsame _ rfl).trans hwork⟩
    by_cases e : j = k
    · exact e ▸ hk'
    · refine others hplain (fun i hi => (htrips i hi).trans (State.trip_setTrip_ne _ _ (Ne.symm hi))) (fun z hz => ?_) j e
      rcases hlist with ⟨-, e'⟩ | ⟨first, y, -, -, e'⟩
      · rw [e'] at hz
        exact hz
      · rw [e'] at hz
        exact (List.mem_filter.mp hz).1
  · rename_i hne
    rw [List.isEmpty_iff] at hne
    have hu : TripCore (masked (some o) (s.setTrip k { s.trip k with orders := (s.trip k).orders.erase o })) [] :=
      hleft _ (fun _ => rfl) (by rw [Trip.without, if_neg hne]; rfl) rfl
    split
    · rename_i hstate
      simp only [Bool.or_eq_true, beq_iff_eq] at hstate
      intro hplain
      have htrip : (s.setTrip k { s.trip k with orders := (s.trip k).orders.erase o }).trip k =
          { s.trip k with orders := (s.trip k).orders.erase o } := State.trip_setTrip_self _ _ _
      obtain ⟨⟨hcore', hk'⟩, hwork, htrips, hlist⟩ := refillTrip_law hu (by rw [htrip]; exact hstate.symm)
      refine ⟨tripLaw_iff.mpr ⟨hcore', fun j => ?_⟩, (hsame _ rfl).trans hwork⟩
      by_cases e : j = k
      · exact e ▸ hk'
      · exact others hplain (fun i hi => (htrips i hi).trans (State.trip_setTrip_ne _ _ (Ne.symm hi))) hlist j e
    · rename_i hstate
      simp only [Bool.or_eq_true, beq_iff_eq, not_or] at hstate
      intro hplain
      refine ⟨tripLaw_iff.mpr ⟨hu, fun j => ?_⟩, hsame _ rfl⟩
      by_cases e : j = k
      · subst e
        have htrip : (masked (some o) (s.setTrip j { s.trip j with orders := (s.trip j).orders.erase o })).trip j =
            { s.trip j with orders := (s.trip j).orders.erase o } :=
          (masked_trip _ _ _).trans (State.trip_setTrip_self _ _ _)
        refine ⟨fun _ => ?_, fun z w _ _ _ hjoin => ?_⟩
        · rw [htrip]
          exact fun e => by
            have := (hcore.members j o).mpr ⟨x, hx, hk⟩
            rw [(hcore.idle j).mp e] at this
            cases this
        · rw [htrip] at hjoin
          exact hjoin.1.elim hstate.2 hstate.1
      · exact others hplain (fun i hi => State.trip_setTrip_ne _ _ (Ne.symm hi)) (fun _ => id) j e

end Sys2Proof.Machine
end

section
/-! PROOF. The laws of the trip table through dispatch, close, placement and recall. -/

namespace Sys2Proof.Machine

variable {s t : State}

/-- A trip that takes no order and closes or goes OUT (R160, R162). -/
theorem TripLaw.closed {k : TripHandle} {y : Trip} (h : TripLaw s) (hstate : (s.trip k).state ≠ .idle)
    (hnotOut : (s.trip k).state ≠ .out) (hy : y = { s.trip k with state := y.state, timer := none })
    (hystate : y.state = .fieldHold ∨ y.state = .out) (htrips : t.trips = put s.trips k y) (hready : t.readyList = s.readyList)
    (hord : ∀ o, t.order o = gathered s k [] y o) : TripLaw t ∧ OrdersKeep Order.work s t := by
  obtain ⟨hcore, hsettled⟩ := tripLaw_iff.mp h
  have horders : y.orders = (s.trip k).orders ++ [] := by rw [hy, List.append_nil]
  have hfield : y.field = (s.trip k).field := by rw [hy]
  have htimer : y.timer = none := by rw [hy]
  obtain ⟨f, hf⟩ := Option.ne_none_iff_exists'.mp ((hcore.field k).not.mp hstate)
  have hlive : y.state ≠ .idle ∧ y.state ≠ .gathering := by rcases hystate with e | e <;> simp [e]
  refine ⟨tripLaw_iff.mpr ⟨?_, fun j => ?_⟩, hcore.gather_work horders hnotOut hord⟩
  · refine hcore.gather horders ?_ ?_ hlive.1 (by simp [htimer, hlive.2]) (hfield.trans hf) (.inr hf) hnotOut
      (fun o ho => nomatch ho) htrips hready hord
    · rw [horders, List.append_nil]
      exact (hcore.idle k).not.mp hstate
    · rw [horders, List.append_nil]
      exact hcore.size k
  · have back (o : OrderHandle) (x : Order) (hx : t.order o = some x) : ∃ z, s.order o = some z ∧ z.field = x.field := by
      obtain ⟨z, hz, e⟩ := gathered_eq_some ((hord o).symm.trans hx)
      exact ⟨z, hz, by rw [e]⟩
    have trip : t.trip j = if k = j then y else s.trip j := (congrArg (look · j) htrips).trans (look_put _ _ _ _)
    by_cases e : k = j
    · subst e
      rw [if_pos rfl] at trip
      refine ⟨fun _ => by rw [trip]; exact hlive.1, fun o x ho hx hxf hjoin => ?_⟩
      rw [trip, hfield] at hxf
      rw [trip] at hjoin
      obtain ⟨z, hz, hzf⟩ := back o x hx
      refine (hsettled k).2 o z (hready ▸ ho) hz (hzf ▸ hxf) ⟨?_, ?_⟩
      · cases hs : (s.trip k).state <;> simp [hs] at hstate hnotOut ⊢
      · have := hjoin.2
        rwa [horders, List.append_nil] at this
    · rw [if_neg e] at trip
      refine (hsettled j).mono (by rw [trip]; exact ⟨rfl, rfl, rfl⟩) fun o ho => ⟨hready ▸ ho, back o⟩

theorem dispatch_law (h : TripLaw s) {k : TripHandle} (hstate : (s.trip k).state = .gathering ∨ (s.trip k).state = .fieldHold) :
    TripLaw (s.dispatch k) ∧ OrdersKeep Order.work s (s.dispatch k) := by
  obtain ⟨horders, hshape⟩ := s.dispatch_spec k
  refine h.closed (k := k) (y := { s.trip k with state := .out, timer := none }) ?_ ?_ rfl (.inr rfl) ?_ (by simp) fun o => ?_
  · rcases hstate with e | e <;> simp [e]
  · rcases hstate with e | e <;> simp [e]
  · rw [hshape]
  · rw [horders]
    simp [gathered, joined]

theorem closeTrip_law (h : TripLaw s) {k : TripHandle} (hstate : (s.trip k).state = .gathering) :
    TripLaw (s.closeTrip k) ∧ OrdersKeep Order.work s (s.closeTrip k) := by
  unfold State.closeTrip
  split
  · exact ⟨h, OrdersKeep.refl s⟩
  · split
    · exact dispatch_law h (.inl hstate)
    · refine h.closed (k := k) (y := { s.trip k with state := .fieldHold, timer := none }) (by simp [hstate]) (by simp [hstate])
        rfl (.inl rfl) rfl rfl fun o => ?_
      simp [gathered, joined, State.order, State.setTrip]

/-- A newly READY order is placed: on a trip of its field, on a new trip, or at the end of the ready list (R158). -/
theorem placeReady_law {o : OrderHandle} {x x' : Order} (h : TripLaw s) (hx : s.order o = some x)
    (hstage : x.stage ≠ .ready ∧ x.stage ≠ .onTrip) (hx' : x'.stage = .ready ∧ x'.trip = x.trip ∧ x'.field = x.field) :
    TripLaw ((s.setOrder o (some x')).placeReady o x.field) ∧
      OrdersKeep Order.work (s.setOrder o (some x')) ((s.setOrder o (some x')).placeReady o x.field) := by
  obtain ⟨hcore, hsettled⟩ := tripLaw_iff.mp h
  obtain ⟨hready', htrip', hfield'⟩ := hx'
  obtain ⟨hloose, hnone⟩ := hcore.becomeReady (t := s.setOrder o (some x')) hx hstage ⟨hready', htrip'⟩
    (State.order_setOrder_self _ _ _) (fun z hz => State.order_setOrder_ne _ _ (Ne.symm hz)) rfl rfl
  generalize hu : s.setOrder o (some x') = u at hloose ⊢
  have huo : u.order o = some x' := by rw [← hu]; exact State.order_setOrder_self _ _ _
  have hutrip (j : TripHandle) : u.trip j = s.trip j := by rw [← hu]; rfl
  have huready : u.readyList = s.readyList := by rw [← hu]; rfl
  have hufields (z : OrderHandle) (w : Order) (hw : u.order z = some w) : ∃ w', s.order z = some w' ∧ w'.field = w.field := by
    by_cases e : z = o
    · subst e
      rw [huo] at hw
      cases hw
      exact ⟨x, hx, hfield'.symm⟩
    · rw [← hu, State.order_setOrder_ne _ _ (Ne.symm e)] at hw
      exact ⟨w, hw, rfl⟩
  have hsettledu (j : TripHandle) : SettledAt u j :=
    (hsettled j).mono (by rw [hutrip]; exact ⟨rfl, rfl, rfl⟩) fun z hz => ⟨huready ▸ hz, hufields z⟩
  have hplain := ordersKeep_placeReady u o x.field
  revert hplain
  unfold State.placeReady
  split
  · rename_i k hk
    have htakes := (lowest_spec hk).1
    simp only [Bool.and_eq_true, Trip.takesJoins, Bool.or_eq_true, beq_iff_eq, decide_eq_true_eq] at htakes
    obtain ⟨⟨hstate, hroom⟩, hf⟩ := htakes
    intro hplain
    have hlive : (u.trip k).state ≠ .out := by rcases hstate with e | e <;> simp [e]
    obtain ⟨y, hcore', hwork, htrips, hyorders, hyidle⟩ := joinTrip_law (gone := none) (u := u) (k := k) (f := x.field)
      (x := u.trip k) hloose (fun _ => rfl) (put_look _ _).symm rfl rfl hf hstate (fun _ => .inr (by simp))
      (fun e => not_not.mp ((hloose.timer k).not.mpr (by simp [e]))) (.inr hf) hlive (by simp) (by simpa using hroom)
      (fun z hz w hw => by
        rw [List.mem_singleton] at hz
        subst hz
        rw [huo] at hw
        cases hw
        exact hfield')
    refine ⟨tripLaw_iff.mpr ⟨hcore', fun j => ?_⟩, hwork⟩
    have hready : (u.joinTrip k [o]).readyList = u.readyList := by simp
    have trip : (u.joinTrip k [o]).trip j = if k = j then y else u.trip j :=
      (congrArg (look · j) htrips).trans (look_put _ _ _ _)
    by_cases e : k = j
    · subst e
      rw [if_pos rfl] at trip
      refine ⟨fun _ => by rw [trip]; exact hyidle, fun z w hz hw hwf hjoin => ?_⟩
      rw [hready] at hz
      obtain ⟨w', hw', hww⟩ := hplain.fields w hw
      refine (hsettledu k).2 z w' hz hw' ?_ ⟨hstate, hroom⟩
      have hyf : y.field = some x.field := by
        have hin : o ∈ ((u.joinTrip k [o]).trip k).orders := by
          rw [trip, hyorders]
          simp
        obtain ⟨v, hv, hvk⟩ := (hcore'.members k o).mp hin
        have hvf := (hcore'.stages o v k hv hvk).1
        have hvf' : ((u.joinTrip k [o]).trip k).field = some v.field := hvf
        obtain ⟨v', hv', hvv⟩ := hplain.fields v hv
        rw [huo] at hv'
        cases hv'
        rw [trip] at hvf'
        rw [hvf', ← hvv, hfield']
      rw [trip, hyf] at hwf
      rw [hf, hwf, hww]
    · rw [if_neg e] at trip
      exact (hsettledu j).mono (by rw [trip]; exact ⟨rfl, rfl, rfl⟩) fun z hz => ⟨hready ▸ hz, fun w hw => hplain.fields w hw⟩
  · rename_i hnojoin
    split
    · rename_i k hk
      have hidle := (lowest_spec hk).1
      rw [beq_iff_eq] at hidle
      have hempty : u.readyList = [] := by
        by_contra hne
        exact (hsettledu k).1 hne hidle
      intro hplain
      have horders := (hloose.idle k).mp hidle
      obtain ⟨y, hcore', hwork, htrips, hyorders, hyidle⟩ := joinTrip_law (gone := none) (k := k) (f := x.field)
        (u := u.setTrip k { state := .gathering, field := some x.field, orders := [], timer := none })
        (x := { state := .gathering, field := some x.field, orders := [], timer := none }) hloose (fun _ => rfl) rfl rfl
        horders.symm rfl (.inl rfl) (fun _ => .inr (by simp)) (fun e => nomatch e) (.inl hidle) (by simp [hidle]) (by simp)
        (by simp) (fun z hz w hw => by
          rw [List.mem_singleton] at hz
          subst hz
          rw [huo] at hw
          cases hw
          exact hfield')
      refine ⟨tripLaw_iff.mpr ⟨hcore', fun j => SettledAt.of_empty ?_⟩, hwork⟩
      simp [State.formTrip, hempty]
    · rename_i hnoidle
      intro hplain
      have nojoin := lowest_eq_none.mp hnojoin
      have noidle := lowest_eq_none.mp hnoidle
      refine ⟨tripLaw_iff.mpr ⟨⟨hloose.idle, hloose.field, hloose.timer, hloose.members, hloose.stages, hloose.onTrip,
        hloose.once, hloose.size, fun z => ?_, ?_⟩, fun j => ⟨fun _ => ?_, fun z w hz hw hwf hjoin => ?_⟩⟩, OrdersKeep.refl u⟩
      · refine Iff.trans ?_ (hloose.ready z)
        simp
      · rw [List.append_nil]
        exact hloose.readyOnce
      · have hj := noidle j
        rw [beq_eq_false_iff_ne] at hj
        exact hj
      · rw [List.mem_append, List.mem_singleton] at hz
        rcases hz with hz | hz
        · exact (hsettledu j).2 z w hz hw hwf hjoin
        · subst hz
          have hw' : u.order z = some w := hw
          rw [huo] at hw'
          cases hw'
          have hno := nojoin j
          have hwf' : (u.trip j).field = some x'.field := hwf
          have hjoin' : (u.trip j).Joinable := hjoin
          rw [hfield'] at hwf'
          simp only [Trip.takesJoins, hwf', beq_self_eq_true, Bool.and_true, Bool.and_eq_false_iff, Bool.or_eq_false_iff,
            beq_eq_false_iff_ne, decide_eq_false_iff_not] at hno
          rcases hno with ⟨h1, h2⟩ | h3
          · exact hjoin'.1.elim h1 h2
          · exact h3 hjoin'.2

/-! ### Recall -/

theorem insertByRank_perm {α : Type} (rank : α → Nat) (x : α) (xs : List α) : (insertByRank rank x xs).Perm (x :: xs) := by
  induction xs with
  | nil => exact List.Perm.refl _
  | cons y rest ih =>
    unfold insertByRank
    split
    · exact (ih.cons y).trans (List.Perm.swap x y rest)
    · exact List.Perm.refl _

/-- A sorted list holds the items of the list. -/
theorem sortByRank_perm {α : Type} (rank : α → Nat) (xs : List α) : (sortByRank rank xs).Perm xs := by
  have walk (acc : List α) : (xs.foldl (fun acc x => insertByRank rank x acc) acc).Perm (xs ++ acc) := by
    induction xs generalizing acc with
    | nil => exact List.Perm.refl _
    | cons x rest ih =>
      refine (ih (insertByRank rank x acc)).trans ?_
      refine ((insertByRank_perm rank x acc).append_left rest).trans ?_
      exact List.perm_middle
  simpa [sortByRank] using walk []

theorem routeOrder_perm (s : State) (k : TripHandle) : (s.routeOrder k).Perm (s.trip k).orders := sortByRank_perm _ _

/-- The orders of an OUT trip are READY again, at the head of the ready list, and the trip is IDLE (R166). -/
theorem TripCore.back (h : TripCore s []) {k : TripHandle} {route : List OrderHandle} (hroute : route.Perm (s.trip k).orders)
    (hord : ∀ o, t.order o = if o ∈ route then (s.order o).map fun x => { x with stage := .ready, trip := none } else s.order o)
    (htrips : t.trips = put s.trips k {}) (hready : t.readyList = route ++ s.readyList) : TripCore t [] := by
  have trip (j : TripHandle) : t.trip j = if k = j then {} else s.trip j := (congrArg (look · j) htrips).trans (look_put _ _ _ _)
  have hmem {o : OrderHandle} {x : Order} (hx : s.order o = some x) : o ∈ route ↔ x.trip = some k := by
    rw [hroute.mem_iff, h.members]
    refine ⟨fun ⟨x', hx', e⟩ => ?_, fun e => ⟨x, hx, e⟩⟩
    rw [hx] at hx'
    cases hx'
    exact e
  have before {o : OrderHandle} {z : Order} (hz : t.order o = some z) : ∃ x, s.order o = some x ∧
      ((x.trip = some k ∧ z = { x with stage := .ready, trip := none }) ∨ (x.trip ≠ some k ∧ z = x)) := by
    rw [hord] at hz
    split at hz
    · obtain ⟨x, hx, rfl⟩ := Option.map_eq_some_iff.mp hz
      exact ⟨x, hx, .inl ⟨(hmem hx).mp ‹_›, rfl⟩⟩
    · exact ⟨z, hz, .inr ⟨(hmem hz).not.mp ‹_›, rfl⟩⟩
  have stays {o : OrderHandle} {x : Order} (hx : s.order o = some x) (hne : x.trip ≠ some k) : t.order o = some x := by
    rw [hord, if_neg ((hmem hx).not.mpr hne), hx]
  have returns {o : OrderHandle} {x : Order} (hx : s.order o = some x) (hk : x.trip = some k) :
      t.order o = some { x with stage := .ready, trip := none } := by
    rw [hord, if_pos ((hmem hx).mpr hk), hx]
    rfl
  refine ⟨fun j => ?_, fun j => ?_, fun j => ?_, fun j o => ?_, fun o z j hz hj => ?_, fun o z hz hst => ?_, fun j => ?_,
    fun j => ?_, fun o => ?_, ?_⟩
  · rw [trip]
    split
    · simp
    · exact h.idle j
  · rw [trip]
    split
    · simp
    · exact h.field j
  · rw [trip]
    split
    · simp
    · exact h.timer j
  · rw [trip]
    split
    · rename_i e
      subst e
      simp only [List.not_mem_nil, false_iff, not_exists, not_and]
      intro z hz hk
      obtain ⟨x, -, ⟨-, rfl⟩ | ⟨hne, rfl⟩⟩ := before hz
      · cases hk
      · exact hne hk
    · rename_i e
      rw [h.members]
      constructor
      · rintro ⟨x, hx, hj⟩
        exact ⟨x, stays hx (by simp [hj, Ne.symm e]), hj⟩
      · rintro ⟨z, hz, hj⟩
        obtain ⟨x, hx, ⟨-, rfl⟩ | ⟨-, rfl⟩⟩ := before hz
        · cases hj
        · exact ⟨z, hx, hj⟩
  · obtain ⟨x, hx, ⟨-, rfl⟩ | ⟨hne, rfl⟩⟩ := before hz
    · cases hj
    · rw [trip, if_neg]
      · exact h.stages o z j hx hj
      · rintro rfl
        exact hne hj
  · obtain ⟨x, hx, ⟨-, rfl⟩ | ⟨-, rfl⟩⟩ := before hz
    · cases hst
    · exact h.onTrip o z hx hst
  · rw [trip]
    split
    · exact List.nodup_nil
    · exact h.once j
  · rw [trip]
    split
    · exact Nat.zero_le 6
    · exact h.size j
  · have hready' := h.ready o
    simp only [List.not_mem_nil, or_false] at hready' ⊢
    rw [hready, List.mem_append, hready']
    constructor
    · rintro (ho | ⟨x, hx, hst, hnone⟩)
      · obtain ⟨x, hx, hk⟩ := (h.members k o).mp (hroute.mem_iff.mp ho)
        exact ⟨_, returns hx hk, rfl, rfl⟩
      · exact ⟨x, stays hx (by simp [hnone]), hst, hnone⟩
    · rintro ⟨z, hz, hst, hnone⟩
      obtain ⟨x, hx, ⟨hk, -⟩ | ⟨-, rfl⟩⟩ := before hz
      · exact .inl ((hmem hx).mpr hk)
      · exact .inr ⟨z, hx, hst, hnone⟩
  · rw [hready, List.append_nil]
    refine (hroute.nodup_iff.mpr (h.once k)).append (by simpa using h.readyOnce) fun o ho ho' => ?_
    have hready' := h.ready o
    simp only [List.not_mem_nil, or_false] at hready'
    obtain ⟨x, hx, -, hnone⟩ := hready'.mp ho'
    have := (hmem hx).mp ho
    rw [hnone] at this
    cases this

/-- RECALL TRIP keeps the laws, and what the kitchen holds of the orders (R159, R166). -/
theorem recallTrip_law (h : TripLaw s) {k : TripHandle} (hout : (s.trip k).state = .out) :
    TripLaw (s.recallTrip k) ∧ OrdersKeep Order.work s (s.recallTrip k) := by
  obtain ⟨hcore, hsettled⟩ := tripLaw_iff.mp h
  obtain ⟨f, hf⟩ := Option.ne_none_iff_exists'.mp ((hcore.field k).not.mp (by simp [hout]))
  have hroute := routeOrder_perm s k
  obtain ⟨hback, -⟩ := s.forEach_modOrder (s.routeOrder k) (fun x => { x with stage := .ready, trip := none }) fun _ => rfl
  have hframe := s.forEach_modOrder_frame (s.routeOrder k) fun x => { x with stage := .ready, trip := none }
  have hmember {o : OrderHandle} (ho : o ∈ s.routeOrder k) : ∃ x, s.order o = some x ∧ x.field = f ∧ x.stage = .onTrip := by
    obtain ⟨x, hx, hk⟩ := (hcore.members k o).mp (hroute.mem_iff.mp ho)
    obtain ⟨hxf, hst⟩ := hcore.stages o x k hx hk
    rw [if_pos hout] at hst
    rw [hf] at hxf
    exact ⟨x, hx, (Option.some.inj hxf).symm, hst⟩
  have hshape : ∃ u : State, s.recallTrip k = u.reformTrip k ∧
      (∀ o, u.order o = if o ∈ s.routeOrder k then (s.order o).map fun x => { x with stage := .ready, trip := none }
        else s.order o) ∧ u.trips = put s.trips k {} ∧ u.readyList = s.routeOrder k ++ s.readyList := by
    refine ⟨_, rfl, hback, ?_, ?_⟩
    · obtain ⟨orders, e⟩ := hframe
      simp only [e]
      rfl
    · obtain ⟨orders, e⟩ := hframe
      simp only [e]
  obtain ⟨u, hrecall, huord, hutrips, huready⟩ := hshape
  have hu : TripCore u [] := hcore.back hroute huord hutrips huready
  obtain ⟨⟨hcore', hk'⟩, hwork, htrips, hlist⟩ := reformTrip_law (gone := none) hu (by rw [State.trip, hutrips, look_put_self])
  have huwork : OrdersKeep Order.work s u := by
    intro o
    rw [huord]
    split
    · rename_i ho
      obtain ⟨x, hx, -, hst⟩ := hmember ho
      rw [hx, Option.map_some, Option.map_some, Option.map_some]
      unfold Order.work
      rw [hst]
      rfl
    · rfl
  rw [hrecall]
  refine ⟨tripLaw_iff.mpr ⟨hcore', fun j => ?_⟩, huwork.trans hwork⟩
  by_cases e : j = k
  · exact e ▸ hk'
  · have hplain : OrdersKeep Order.plain s (u.reformTrip k) := hrecall ▸ ordersKeep_recallTrip s k
    refine (hsettled j).mono ?_ fun o ho => ⟨?_, fun w hw => hplain.fields w hw⟩
    · rw [htrips j e, State.trip, hutrips, look_put_ne _ _ (Ne.symm e)]
      exact ⟨rfl, rfl, rfl⟩
    · rcases hlist with ⟨hnil, e'⟩ | ⟨first, x, hfirst, hx, e'⟩
      · rw [e', hnil] at ho
        cases ho
      · rw [e', List.mem_filter, huready, List.mem_append] at ho
        obtain ⟨ho, hnot⟩ := ho
        refine ho.resolve_left fun hor => ?_
        have hxf : x.field = f := by
          cases hr : s.routeOrder k with
          | nil => rw [hr] at hor; cases hor
          | cons first' more =>
            have hfirst' : first = first' := by
              rw [huready, hr] at hfirst
              simpa [eq_comm] using hfirst
            have hin : first ∈ s.routeOrder k := by rw [hr, hfirst']; exact List.mem_cons_self
            obtain ⟨z, hz, hzf, -⟩ := hmember hin
            rw [huord, if_pos hin, hz] at hx
            cases hx
            exact hzf
        have hall : (s.routeOrder k).filter (fun o => (u.order o).any fun z => z.field == x.field) = s.routeOrder k := by
          refine List.filter_eq_self.mpr fun z hz => ?_
          obtain ⟨w, hw, hwf, -⟩ := hmember hz
          rw [huord, if_pos hz, hw]
          simp [hwf, hxf]
        have hlen : (s.routeOrder k).length ≤ 6 := hroute.length_eq.trans_le (hcore.size k)
        have : o ∈ u.readyOf x.field 6 := by
          unfold State.readyOf
          rw [huready, List.filter_append, hall, List.take_append, List.take_of_length_le hlen]
          exact List.mem_append_left _ hor
        simp [this] at hnot

end Sys2Proof.Machine
end

section
/-! PROOF. The laws of the parked list, the orders' records and the station queues, order by order. -/

namespace Sys2Proof.Machine

variable {s t : State}

/-! ### The laws order by order -/

/-- What one order holds at each of its stages (R131, R136, R146). -/
structure RecordLaw (x : Order) : Prop where
  due : x.due = true → x.stage = .parked
  timer : x.timer ≠ none → (x.stage = .queued ∨ x.stage = .preparing) ∧ x.cancelPending = false
  lines : 1 ≤ x.lines.length ∧ x.lines.length ≤ 6
  waiting : x.stage = .parked ∨ x.stage = .queued → x.cancelPending = false ∧ ∀ l ∈ x.lines, l.state = .waiting
  started : x.stage = .preparing → ∃ l ∈ x.lines, l.state ≠ .waiting
  finished : x.stage = .ready ∨ x.stage = .onTrip → ∀ l ∈ x.lines, l.state = .finished

/-- A line of the order stands in a station's queue (R143, R146). -/
def Order.Queued (x : Order) (n : StationNo) (k : Nat) : Prop :=
  (x.stage = .queued ∨ x.stage = .preparing) ∧ ∃ l, x.lines[k]? = some l ∧ l.station = n ∧
    (l.state = .started ∨ (l.state = .waiting ∧ x.cancelPending = false))

theorem QueueLaw.record (h : QueueLaw s) {o : OrderHandle} {x : Order} (hx : s.order o = some x) : RecordLaw x :=
  ⟨h.due o x hx, h.timer o x hx, h.lines o x hx, h.waiting o x hx, h.started o x hx, h.finished o x hx⟩

theorem QueueLaw.mem_queue (h : QueueLaw s) (n : StationNo) (o : OrderHandle) (k : Nat) :
    (o, k) ∈ (s.station n).queue ↔ ∃ x, s.order o = some x ∧ x.Queued n k := by
  rw [h.queues]
  constructor
  · rintro ⟨x, l, hx, hstage, hl, hn, hstate⟩
    exact ⟨x, hx, hstage, l, hl, hn, hstate⟩
  · rintro ⟨x, hx, hstage, l, hl, hn, hstate⟩
    exact ⟨x, l, hx, hstage, hl, hn, hstate⟩

theorem QueueLaw.of_records (parked : ∀ o, o ∈ s.parked ↔ ∃ x, s.order o = some x ∧ x.stage = .parked)
    (parkedOnce : s.parked.Nodup) (records : ∀ o x, s.order o = some x → RecordLaw x)
    (queuesOnce : ∀ n, (s.station n).queue.Nodup)
    (queues : ∀ n o k, (o, k) ∈ (s.station n).queue ↔ ∃ x, s.order o = some x ∧ x.Queued n k)
    (unfinished : ∀ o x, s.order o = some x → x.stage = .queued ∨ x.stage = .preparing → ∃ n k, x.Queued n k) :
    QueueLaw s where
  parked := parked
  parkedOnce := parkedOnce
  due o x hx := (records o x hx).due
  timer o x hx := (records o x hx).timer
  lines o x hx := (records o x hx).lines
  waiting o x hx := (records o x hx).waiting
  started o x hx := (records o x hx).started
  finished o x hx := (records o x hx).finished
  queuesOnce := queuesOnce
  queues n o k := by
    rw [queues]
    constructor
    · rintro ⟨x, hx, hstage, l, hl, hn, hstate⟩
      exact ⟨x, l, hx, hstage, hl, hn, hstate⟩
    · rintro ⟨x, l, hx, hstage, hl, hn, hstate⟩
      exact ⟨x, hx, hstage, l, hl, hn, hstate⟩
  unfinished o x hx hstage := by
    obtain ⟨n, k, hq⟩ := unfinished o x hx hstage
    exact ⟨n, k, (queues n o k).mpr ⟨x, hx, hq⟩⟩

/-! ### What they read of an order -/

theorem Stage.of_work {st st' : Stage} (h : st.work = st'.work) :
    (st = .parked ↔ st' = .parked) ∧ (st = .queued ↔ st' = .queued) ∧ (st = .preparing ↔ st' = .preparing) ∧
      ((st = .ready ∨ st = .onTrip) ↔ (st' = .ready ∨ st' = .onTrip)) := by
  cases st <;> cases st' <;> simp [Stage.work] at h ⊢

theorem Order.of_work {x y : Order} (h : y.work = x.work) : y.stage.work = x.stage.work ∧ y.due = x.due ∧
    (y.timer ≠ none ↔ x.timer ≠ none) ∧ y.cancelPending = x.cancelPending ∧ y.lines = x.lines := by
  simp only [Order.work, Prod.mk.injEq] at h
  obtain ⟨hstage, hdue, htimer, hpending, hlines⟩ := h
  refine ⟨hstage, hdue, ?_, hpending, hlines⟩
  rw [Option.ne_none_iff_isSome, Option.ne_none_iff_isSome, htimer]

theorem RecordLaw.of_work {x y : Order} (h : y.work = x.work) (hx : RecordLaw x) : RecordLaw y := by
  obtain ⟨hstage, hdue, htimer, hpending, hlines⟩ := Order.of_work h
  obtain ⟨hparked, hqueued, hpreparing, hdone⟩ := Stage.of_work hstage
  obtain ⟨h1, h2, h3, h4, h5, h6⟩ := hx
  refine ⟨?_, ?_, ?_, ?_, ?_, ?_⟩
  · rwa [hdue, hparked]
  · rwa [htimer, hqueued, hpreparing, hpending]
  · rwa [hlines]
  · rwa [hparked, hqueued, hpending, hlines]
  · rwa [hpreparing, hlines]
  · rwa [hdone, hlines]

theorem Order.queued_of_work {x y : Order} (h : y.work = x.work) (n : StationNo) (k : Nat) :
    y.Queued n k ↔ x.Queued n k := by
  obtain ⟨hstage, -, -, hpending, hlines⟩ := Order.of_work h
  obtain ⟨-, hqueued, hpreparing, -⟩ := Stage.of_work hstage
  rw [Order.Queued, Order.Queued, hqueued, hpreparing, hpending, hlines]

/-- The laws read the parked list, the queues, and of the orders what the kitchen holds. -/
theorem queueLaw_congr (horders : OrdersKeep Order.work s t) (hparked : t.parked = s.parked)
    (hqueues : ∀ n, (t.station n).queue = (s.station n).queue) (h : QueueLaw s) : QueueLaw t := by
  refine .of_records (fun o => ?_) (hparked ▸ h.parkedOnce) (fun o x hx => ?_) (fun n => hqueues n ▸ h.queuesOnce n)
    (fun n o k => ?_) fun o x hx hstage => ?_
  · rw [hparked, h.parked]
    constructor
    · rintro ⟨x, hx, hstage⟩
      obtain ⟨y, hy, e⟩ := horders.after hx
      exact ⟨y, hy, (Stage.of_work (Order.of_work e).1).1.mpr hstage⟩
    · rintro ⟨x, hx, hstage⟩
      obtain ⟨y, hy, e⟩ := horders.before hx
      exact ⟨y, hy, (Stage.of_work (Order.of_work e).1).1.mpr hstage⟩
  · obtain ⟨y, hy, e⟩ := horders.before hx
    exact (h.record hy).of_work e.symm
  · rw [hqueues, h.mem_queue]
    constructor
    · rintro ⟨x, hx, hq⟩
      obtain ⟨y, hy, e⟩ := horders.after hx
      exact ⟨y, hy, (Order.queued_of_work e n k).mpr hq⟩
    · rintro ⟨x, hx, hq⟩
      obtain ⟨y, hy, e⟩ := horders.before hx
      exact ⟨y, hy, (Order.queued_of_work e n k).mpr hq⟩
  · obtain ⟨y, hy, e⟩ := horders.before hx
    obtain ⟨-, hqueued, hpreparing, -⟩ := Stage.of_work (Order.of_work e).1
    obtain ⟨n, k, hmem⟩ := h.unfinished o y hy (by rwa [hqueued, hpreparing])
    obtain ⟨z, hz, hq⟩ := (h.mem_queue n o k).mp hmem
    rw [hy] at hz
    cases hz
    exact ⟨n, k, (Order.queued_of_work e n k).mp hq⟩

theorem queueLaw_stands (horders : OrdersKeep Order.work s t) (hparked : t.parked = s.parked)
    (hstations : t.stations = s.stations) (h : QueueLaw s) : QueueLaw t :=
  queueLaw_congr horders hparked (fun n => by rw [State.station, hstations]; rfl) h

/-- One order written: what its new record has to say for the laws to stand. -/
theorem QueueLaw.write (h : QueueLaw s) {o : OrderHandle} {x : Order}
    (hothers : ∀ z, z ≠ o → (t.order z).map Order.work = (s.order z).map Order.work) (hx : t.order o = some x)
    (hrecord : RecordLaw x) (hparkedOnce : t.parked.Nodup)
    (hparked : ∀ z, z ∈ t.parked ↔ if z = o then x.stage = .parked else z ∈ s.parked)
    (hqueuesOnce : ∀ n, (t.station n).queue.Nodup)
    (hqueues : ∀ n z k, (z, k) ∈ (t.station n).queue ↔ if z = o then x.Queued n k else (z, k) ∈ (s.station n).queue)
    (hbusy : x.stage = .queued ∨ x.stage = .preparing → ∃ n k, x.Queued n k) : QueueLaw t := by
  have before {z : OrderHandle} {w : Order} (hz : z ≠ o) (hw : t.order z = some w) :
      ∃ y, s.order z = some y ∧ y.work = w.work := by
    have e := hothers z hz
    rw [hw, Option.map_some] at e
    exact Option.map_eq_some_iff.mp e.symm
  have after {z : OrderHandle} {w : Order} (hz : z ≠ o) (hw : s.order z = some w) :
      ∃ y, t.order z = some y ∧ y.work = w.work := by
    have e := hothers z hz
    rw [hw, Option.map_some] at e
    exact Option.map_eq_some_iff.mp e
  have own {z : Order} : t.order o = some z ↔ z = x := by
    rw [hx, Option.some.injEq, eq_comm]
  refine .of_records (fun z => ?_) hparkedOnce (fun z w hw => ?_) hqueuesOnce (fun n z k => ?_) fun z w hw hstage => ?_
  · rw [hparked]
    by_cases e : z = o
    · subst e
      simp [own]
    · rw [if_neg e, h.parked]
      constructor
      · rintro ⟨w, hw, hstage⟩
        obtain ⟨y, hy, e'⟩ := after e hw
        exact ⟨y, hy, (Stage.of_work (Order.of_work e').1).1.mpr hstage⟩
      · rintro ⟨w, hw, hstage⟩
        obtain ⟨y, hy, e'⟩ := before e hw
        exact ⟨y, hy, (Stage.of_work (Order.of_work e').1).1.mpr hstage⟩
  · by_cases e : z = o
    · subst e
      exact own.mp hw ▸ hrecord
    · obtain ⟨y, hy, e'⟩ := before e hw
      exact (h.record hy).of_work e'.symm
  · rw [hqueues]
    by_cases e : z = o
    · subst e
      simp [own]
    · rw [if_neg e, h.mem_queue]
      constructor
      · rintro ⟨w, hw, hq⟩
        obtain ⟨y, hy, e'⟩ := after e hw
        exact ⟨y, hy, (Order.queued_of_work e' n k).mpr hq⟩
      · rintro ⟨w, hw, hq⟩
        obtain ⟨y, hy, e'⟩ := before e hw
        exact ⟨y, hy, (Order.queued_of_work e' n k).mpr hq⟩
  · by_cases e : z = o
    · subst e
      rw [own.mp hw] at hstage ⊢
      exact hbusy hstage
    · obtain ⟨y, hy, e'⟩ := before e hw
      obtain ⟨-, hqueued, hpreparing, -⟩ := Stage.of_work (Order.of_work e').1
      obtain ⟨n, k, hmem⟩ := h.unfinished z y hy (by rwa [hqueued, hpreparing])
      obtain ⟨v, hv, hq⟩ := (h.mem_queue n z k).mp hmem
      rw [hy] at hv
      cases hv
      exact ⟨n, k, (Order.queued_of_work e' n k).mp hq⟩

/-! ### The operations of the kitchen -/

/-- Due marks on PARKED orders (R139). -/
theorem queueLaw_marked (h : QueueLaw s)
    (horders : ∀ o, t.order o = s.order o ∨
      ∃ x, s.order o = some x ∧ x.stage = .parked ∧ t.order o = some { x with due := true })
    (hparked : t.parked = s.parked) (hstations : t.stations = s.stations) : QueueLaw t := by
  have station (n : StationNo) : t.station n = s.station n := congrArg (look · n) hstations
  have before {o : OrderHandle} {z : Order} (hz : t.order o = some z) :
      ∃ x, s.order o = some x ∧ (z = x ∨ (x.stage = .parked ∧ z = { x with due := true })) := by
    rcases horders o with e | ⟨x, hx, hstage, e⟩
    · exact ⟨z, e ▸ hz, .inl rfl⟩
    · rw [hz] at e
      exact ⟨x, hx, .inr ⟨hstage, Option.some.inj e⟩⟩
  have after {o : OrderHandle} {x : Order} (hx : s.order o = some x) :
      ∃ z, t.order o = some z ∧ z.stage = x.stage ∧ ∀ n k, z.Queued n k ↔ x.Queued n k := by
    rcases horders o with e | ⟨x', hx', -, e⟩
    · exact ⟨x, e.trans hx, rfl, fun _ _ => Iff.rfl⟩
    · rw [hx] at hx'
      cases hx'
      exact ⟨_, e, rfl, fun _ _ => Iff.rfl⟩
  refine .of_records (fun o => ?_) (hparked ▸ h.parkedOnce) (fun o z hz => ?_) (fun n => station n ▸ h.queuesOnce n)
    (fun n o k => ?_) fun o z hz hstage => ?_
  · rw [hparked, h.parked]
    constructor
    · rintro ⟨x, hx, hstage⟩
      obtain ⟨z, hz, e, -⟩ := after hx
      exact ⟨z, hz, e.trans hstage⟩
    · rintro ⟨z, hz, hstage⟩
      obtain ⟨x, hx, rfl | ⟨hp, -⟩⟩ := before hz
      · exact ⟨z, hx, hstage⟩
      · exact ⟨x, hx, hp⟩
  · obtain ⟨x, hx, rfl | ⟨hp, rfl⟩⟩ := before hz
    · exact h.record hx
    · obtain ⟨-, h2, h3, h4, h5, h6⟩ := h.record hx
      exact ⟨fun _ => hp, h2, h3, h4, h5, h6⟩
  · rw [station, h.mem_queue]
    constructor
    · rintro ⟨x, hx, hq⟩
      obtain ⟨z, hz, -, e⟩ := after hx
      exact ⟨z, hz, (e n k).mpr hq⟩
    · rintro ⟨z, hz, hq⟩
      obtain ⟨x, hx, rfl | ⟨-, rfl⟩⟩ := before hz
      · exact ⟨z, hx, hq⟩
      · exact ⟨x, hx, hq⟩
  · obtain ⟨x, hx, rfl | ⟨hp, rfl⟩⟩ := before hz
    · obtain ⟨n, k, hmem⟩ := h.unfinished o z hx hstage
      obtain ⟨v, hv, hq⟩ := (h.mem_queue n o k).mp hmem
      rw [hx] at hv
      cases hv
      exact ⟨n, k, hq⟩
    · rw [show ({ x with due := true } : Order).stage = x.stage from rfl, hp] at hstage
      rcases hstage with e | e <;> cases e

theorem queueLaw_markDue (h : QueueLaw s) (which : Order → Bool) : QueueLaw (s.markDue which) := by
  obtain ⟨-, hspec⟩ := s.markDue_spec which
  refine queueLaw_marked h (fun o => ?_) (by simp) (by simp)
  obtain ⟨hmarked, hstands⟩ := hspec o
  by_cases hfalls : ∀ ord, s.order o = some ord → o ∈ s.parked → ¬ (which ord = true ∧ ord.stage = .parked ∧
      ord.due = false ∧ (s.program ord.field).isDue ord.mode = true)
  · exact .inl (hstands hfalls)
  · push Not at hfalls
    obtain ⟨ord, hord, hparked, hf⟩ := hfalls
    exact .inr ⟨ord, hord, hf.2.1, hmarked ord hord hparked hf⟩

theorem mem_linesFor {x : Order} {o z : OrderHandle} {n : StationNo} {k : Nat} :
    (z, k) ∈ x.linesFor o n ↔ z = o ∧ ∃ l, x.lines[k]? = some l ∧ l.station = n := by
  simp only [Order.linesFor, List.mem_map, List.mem_filter, Prod.mk.injEq, beq_iff_eq]
  constructor
  · rintro ⟨⟨l, j⟩, ⟨hl, hn⟩, ho, rfl⟩
    exact ⟨ho.symm, l, List.mem_zipIdx_iff_getElem?.mp hl, hn⟩
  · rintro ⟨ho, l, hl, hn⟩
    exact ⟨(l, k), ⟨List.mem_zipIdx_iff_getElem?.mpr hl, hn⟩, ho.symm, rfl⟩

theorem nodup_linesFor (x : Order) (o : OrderHandle) (n : StationNo) : (x.linesFor o n).Nodup := by
  unfold Order.linesFor
  have hindices : (x.lines.zipIdx.map Prod.snd).Nodup := by
    rw [List.zipIdx_map_snd]
    exact List.nodup_range'
  have hfiltered : ((x.lines.zipIdx.filter fun l => l.1.station == n).map Prod.snd).Nodup :=
    hindices.sublist (List.filter_sublist.map _)
  have e : (x.lines.zipIdx.filter fun l => l.1.station == n).map (fun l => (o, l.2)) =
      ((x.lines.zipIdx.filter fun l => l.1.station == n).map Prod.snd).map fun k => (o, k) := by
    rw [List.map_map]
    rfl
  rw [e]
  exact hfiltered.map fun a b hab => (Prod.mk.inj hab).2

theorem QueueLaw.not_queued (h : QueueLaw s) {o : OrderHandle}
    (ho : ∀ x, s.order o = some x → x.stage ≠ .queued ∧ x.stage ≠ .preparing) (n : StationNo) (k : Nat) :
    (o, k) ∉ (s.station n).queue := by
  intro hmem
  obtain ⟨x, hx, hstage, -⟩ := (h.mem_queue n o k).mp hmem
  exact hstage.elim (ho x hx).1 (ho x hx).2

theorem exists_line {x : Order} (h : 1 ≤ x.lines.length) : ∃ l, x.lines[0]? = some l ∧ l ∈ x.lines := by
  cases hl : x.lines with
  | nil => simp [hl] at h
  | cons l rest => exact ⟨l, rfl, List.mem_cons_self⟩

/-- An order as its release leaves it (R142). -/
def Order.released (x : Order) (limit : Nat) : Order :=
  { x with stage := .queued, due := false, timer := some (limit * 60000) }

/-- The release of a PARKED order (R142). -/
theorem queueLaw_release (h : QueueLaw s) {o : OrderHandle} {x : Order} (hx : s.order o = some x)
    (hparked : x.stage = .parked) : QueueLaw (s.release o x) := by
  have hrecord := h.record hx
  obtain ⟨hpending, hwaiting⟩ := hrecord.waiting (.inl hparked)
  have hoff : ∀ n k, (o, k) ∉ (s.station n).queue := h.not_queued fun z hz => by
    rw [hx] at hz
    cases hz
    simp [hparked]
  have queued (n : StationNo) (k : Nat) : (x.released s.prepLimit).Queued n k ↔
      ∃ l, x.lines[k]? = some l ∧ l.station = n := by
    unfold Order.Queued
    constructor
    · rintro ⟨-, l, hl, hn, -⟩
      exact ⟨l, hl, hn⟩
    · rintro ⟨l, hl, hn⟩
      exact ⟨.inl rfl, l, hl, hn, .inr ⟨hwaiting l (List.mem_of_getElem? hl), hpending⟩⟩
  have station (n : StationNo) : ((s.release o x).station n).queue = (s.station n).queue ++ x.linesFor o n := by
    rw [State.release_eq]
    exact congrArg Station.queue (look_ofFn _ n)
  have hparkedList : (s.release o x).parked = s.parked.erase o := by rw [State.release_eq]
  have horder (z : OrderHandle) : (s.release o x).order z = if o = z then some (x.released s.prepLimit)
      else s.order z := by
    rw [State.release_eq]
    exact State.order_setOrder s o z _
  refine h.write (o := o) (x := x.released s.prepLimit) (fun z hz => ?_) ?_ ?_ (hparkedList ▸ h.parkedOnce.erase o) (fun z => ?_) (fun n => ?_) (fun n z k => ?_) fun _ => ?_
  · rw [horder, if_neg (Ne.symm hz)]
  · rw [horder, if_pos rfl]
  · exact ⟨fun e => (nomatch e), fun _ => ⟨.inl rfl, hpending⟩, hrecord.lines, fun _ => ⟨hpending, hwaiting⟩,
      fun e => (nomatch e), fun e => by rcases e with e | e <;> cases e⟩
  · rw [hparkedList, h.parkedOnce.mem_erase_iff]
    split
    · rename_i e
      simp [e, Order.released]
    · rename_i e
      simp [e]
  · rw [station]
    refine (h.queuesOnce n).append (nodup_linesFor x o n) ?_
    rintro ⟨z, k⟩ hz hz'
    obtain ⟨rfl, -⟩ := mem_linesFor.mp hz'
    exact hoff n k hz
  · rw [station, List.mem_append, mem_linesFor]
    split
    · rename_i e
      subst e
      rw [queued]
      simp [hoff]
    · rename_i e
      simp [e]
  · obtain ⟨l, hl, -⟩ := exists_line hrecord.lines.1
    exact ⟨l.station, 0, (queued _ _).mpr ⟨l, hl, rfl⟩⟩

/-- A new order, PARKED (R135). -/
theorem queueLaw_parkOrder (h : QueueLaw s) {o : OrderHandle} (hfree : s.order o = none) (k : CarHandle) (f : FieldNo)
    (mode : ReleaseMode) {lines : List OrderLine} (hcount : 1 ≤ lines.length ∧ lines.length ≤ 6)
    (hwaiting : ∀ l ∈ lines, l.state = .waiting) : QueueLaw (s.parkOrder o k f mode lines) := by
  have hnew (z : OrderHandle) : (s.parkOrder o k f mode lines).order z =
      if o = z then some (newOrder k f mode s.nextPlacement lines) else s.order z := State.order_setOrder s o z _
  have hparked : (s.parkOrder o k f mode lines).parked = s.parked ++ [o] := rfl
  have hoff : o ∉ s.parked := fun ho => by
    obtain ⟨x, hx, -⟩ := (h.parked o).mp ho
    rw [hfree] at hx
    cases hx
  have hnotQueued (n : StationNo) (j : Nat) : ¬ (newOrder k f mode s.nextPlacement lines).Queued n j := by
    rintro ⟨e | e, -⟩ <;> cases e
  refine h.write (o := o) (x := newOrder k f mode s.nextPlacement lines) (fun z hz => ?_) ?_ ?_ ?_ (fun z => ?_)
    (fun n => h.queuesOnce n) (fun n z j => ?_) fun e => ?_
  · rw [hnew, if_neg (Ne.symm hz)]
  · rw [hnew, if_pos rfl]
  · exact ⟨fun e => (nomatch e), fun e => absurd rfl e, hcount, fun _ => ⟨rfl, hwaiting⟩, fun e => (nomatch e),
      fun e => by rcases e with e | e <;> cases e⟩
  · rw [hparked]
    exact h.parkedOnce.append (List.nodup_singleton o) (by simpa using hoff)
  · rw [hparked, List.mem_append, List.mem_singleton]
    split
    · rename_i e
      simp [e, newOrder]
    · rename_i e
      simp [e]
  · refine (show _ ↔ (z, j) ∈ (s.station n).queue from Iff.rfl).trans ?_
    split
    · rename_i e
      subst e
      simp only [hnotQueued, iff_false]
      exact h.not_queued (fun x hx => by rw [hfree] at hx; cases hx) n j
    · rfl
  · rcases e with e | e <;> cases e

/-! ### Lines on the stove -/

theorem withLine_getElem? (x : Order) (k j : Nat) (st : LineState) :
    (x.withLine k st).lines[j]? = (x.lines[j]?).map fun l => if k = j then { l with state := st } else l := by
  rw [Order.withLine, List.getElem?_modify]
  split <;> cases x.lines[j]? <;> rfl

theorem withLine_length (x : Order) (k : Nat) (st : LineState) : (x.withLine k st).lines.length = x.lines.length := by
  simp [Order.withLine]

/-- The oldest WAITING line of a station stands in its queue (R144). -/
theorem oldestWaiting_spec {n : StationNo} {o : OrderHandle} {k : Nat} (h : s.oldestWaiting n = some (o, k)) :
    (o, k) ∈ (s.station n).queue ∧ ∃ x, s.order o = some x ∧ x.lineState k = some .waiting := by
  refine ⟨List.mem_of_find?_eq_some h, ?_⟩
  have hwaits := List.find?_some h
  rw [State.lineWaits] at hwaits
  obtain ⟨x, hx, e⟩ := (Option.any_eq_true _ _).mp hwaits
  exact ⟨x, hx, by simpa using e⟩

theorem lineState_eq_some {x : Order} {k : Nat} {st : LineState} (h : x.lineState k = some st) :
    ∃ l, x.lines[k]? = some l ∧ l.state = st := Option.map_eq_some_iff.mp h

/-- STATION NEXT hands out a line (R144). -/
theorem queueLaw_handOut (h : QueueLaw s) {n : StationNo} {o : OrderHandle} {k : Nat} {x : Order}
    (holdest : s.oldestWaiting n = some (o, k)) (hx : s.order o = some x) :
    QueueLaw (s.setOrder o (some (x.handOut k))) := by
  obtain ⟨hmem, x', hx', hline⟩ := oldestWaiting_spec holdest
  rw [hx] at hx'
  cases hx'
  obtain ⟨l, hl, hstate⟩ := lineState_eq_some hline
  obtain ⟨z, hz, hstage, l', hl', hn, hstood⟩ := (h.mem_queue n o k).mp hmem
  rw [hx] at hz
  cases hz
  rw [hl] at hl'
  cases hl'
  have hpending : x.cancelPending = false := hstood.elim (fun e => by rw [hstate] at e; cases e) And.right
  have hrecord := h.record hx
  have hlines (j : Nat) : (x.handOut k).lines[j]? = (x.lines[j]?).map fun l => if k = j then { l with state := .started } else l :=
    withLine_getElem? x k j .started
  have hpreparing : (x.handOut k).stage = .preparing := by
    unfold Order.handOut
    rcases hstage with e | e <;> simp [e]
  have queued (m : StationNo) (j : Nat) : (x.handOut k).Queued m j ↔ x.Queued m j := by
    unfold Order.Queued
    rw [hlines, hpreparing]
    simp only [hstage, or_true, true_and, Option.map_eq_some_iff]
    constructor
    · rintro ⟨w, ⟨w', hw', rfl⟩, hm, hw⟩
      refine ⟨w', hw', ?_⟩
      split at hm <;> rename_i e
      · subst e
        rw [hl] at hw'
        cases hw'
        exact ⟨hm, .inr ⟨hstate, hpending⟩⟩
      · simp only [e, if_false] at hw
        exact ⟨hm, hw⟩
    · rintro ⟨w, hw, hm, hstood'⟩
      refine ⟨_, ⟨w, hw, rfl⟩, ?_⟩
      split
      · exact ⟨hm, .inl rfl⟩
      · exact ⟨hm, hstood'⟩
  have horder (z : OrderHandle) := State.order_setOrder s o z (some (x.handOut k))
  refine h.write (o := o) (x := x.handOut k) (fun z hz => ?_) ?_ ?_ h.parkedOnce (fun z => ?_) h.queuesOnce (fun m z j => ?_)
    fun _ => ⟨n, k, (queued n k).mpr ⟨hstage, l, hl, hn, hstood⟩⟩
  · rw [horder, if_neg (Ne.symm hz)]
  · rw [horder, if_pos rfl]
  · refine ⟨fun e => ?_, fun e => ⟨.inr hpreparing, hpending⟩, ?_, fun e => ?_, fun _ => ?_, fun e => ?_⟩
    · have := hrecord.due e
      rcases hstage with e' | e' <;> rw [e'] at this <;> cases this
    · exact (withLine_length x k .started).symm ▸ hrecord.lines
    · rw [hpreparing] at e
      rcases e with e | e <;> cases e
    · refine ⟨{ l with state := .started }, List.mem_of_getElem? (i := k) ?_, by simp⟩
      rw [hlines, hl]
      simp
    · rw [hpreparing] at e
      rcases e with e | e <;> cases e
  · split
    · rename_i e
      subst e
      refine Iff.trans (show _ ↔ z ∈ s.parked from Iff.rfl) ?_
      rw [h.parked]
      simp only [hx, hpreparing, Option.some.injEq, exists_eq_left', reduceCtorEq, iff_false]
      rcases hstage with e | e <;> simp [e]
    · rfl
  · refine (show _ ↔ (z, j) ∈ (s.station m).queue from Iff.rfl).trans ?_
    split
    · rename_i e
      subst e
      rw [queued, h.mem_queue]
      simp [hx]
    · rfl

end Sys2Proof.Machine
end

section
/-! PROOF. The laws of the order book through retirement, cancellation, finish and placement. -/

namespace Sys2Proof.Machine

variable {s t w : State}

/-! ### The queues without an order -/

theorem ne_of_kept {o z : OrderHandle} {k : Nat} : (!((z, k).1 == o)) = true ↔ z ≠ o := by simp

/-- An order gone from the book, the parked list and the queues (R151). -/
theorem QueueLaw.remove (h : QueueLaw s) {o : OrderHandle}
    (hothers : ∀ z, z ≠ o → (t.order z).map Order.work = (s.order z).map Order.work) (hgone : t.order o = none)
    (hparked : t.parked = s.parked.erase o)
    (hqueues : ∀ n, (t.station n).queue = (s.station n).queue.filter fun e => !(e.1 == o)) : QueueLaw t := by
  have before {z : OrderHandle} {x : Order} (hx : t.order z = some x) :
      z ≠ o ∧ ∃ y, s.order z = some y ∧ y.work = x.work := by
    have hz : z ≠ o := fun e => by rw [e, hgone] at hx; cases hx
    have e := hothers z hz
    rw [hx, Option.map_some] at e
    exact ⟨hz, Option.map_eq_some_iff.mp e.symm⟩
  have after {z : OrderHandle} {x : Order} (hz : z ≠ o) (hx : s.order z = some x) :
      ∃ y, t.order z = some y ∧ y.work = x.work := by
    have e := hothers z hz
    rw [hx, Option.map_some] at e
    exact Option.map_eq_some_iff.mp e
  refine .of_records (fun z => ?_) (hparked ▸ h.parkedOnce.erase o) (fun z x hx => ?_)
    (fun n => hqueues n ▸ (h.queuesOnce n).filter _) (fun n z k => ?_) fun z x hx hstage => ?_
  · rw [hparked, h.parkedOnce.mem_erase_iff, h.parked]
    constructor
    · rintro ⟨hz, x, hx, hstage⟩
      obtain ⟨y, hy, e⟩ := after hz hx
      exact ⟨y, hy, (Stage.of_work (Order.of_work e).1).1.mpr hstage⟩
    · rintro ⟨x, hx, hstage⟩
      obtain ⟨hz, y, hy, e⟩ := before hx
      exact ⟨hz, y, hy, (Stage.of_work (Order.of_work e).1).1.mpr hstage⟩
  · obtain ⟨-, y, hy, e⟩ := before hx
    exact (h.record hy).of_work e.symm
  · rw [hqueues, List.mem_filter, ne_of_kept, h.mem_queue]
    constructor
    · rintro ⟨⟨x, hx, hq⟩, hz⟩
      obtain ⟨y, hy, e⟩ := after hz hx
      exact ⟨y, hy, (Order.queued_of_work e n k).mpr hq⟩
    · rintro ⟨x, hx, hq⟩
      obtain ⟨hz, y, hy, e⟩ := before hx
      exact ⟨⟨y, hy, (Order.queued_of_work e n k).mpr hq⟩, hz⟩
  · obtain ⟨-, y, hy, e⟩ := before hx
    obtain ⟨-, hqueued, hpreparing, -⟩ := Stage.of_work (Order.of_work e).1
    obtain ⟨n, k, hmem⟩ := h.unfinished z y hy (by rwa [hqueued, hpreparing])
    obtain ⟨v, hv, hq⟩ := (h.mem_queue n z k).mp hmem
    rw [hy] at hv
    cases hv
    exact ⟨n, k, (Order.queued_of_work e n k).mp hq⟩

/-! ### The trips of other orders -/

/-- An order on no trip, neither READY nor ON_TRIP, or a free slot. -/
def Unseated (s : State) (o : OrderHandle) : Prop := ∀ x, s.order o = some x → x.seat = (x.field, none, .parked)

theorem unseated_of_none {o : OrderHandle} (h : s.order o = none) : Unseated s o := fun x hx => by
  rw [h] at hx
  cases hx

theorem Unseated.stage {o : OrderHandle} {x : Order} (h : Unseated s o) (hx : s.order o = some x) :
    x.trip = none ∧ x.stage ≠ .ready ∧ x.stage ≠ .onTrip := by
  have e := h x hx
  simp only [Order.seat, Prod.mk.injEq, true_and] at e
  refine ⟨e.1, fun e' => ?_, fun e' => ?_⟩
  · rw [e'] at e
    cases e.2
  · rw [e'] at e
    cases e.2

/-- The laws of the trips do not read an order that is not yet READY. -/
theorem tripLaw_unseated (h : TripLaw s) {o : OrderHandle} (hs : Unseated s o) (ht : Unseated t o)
    (hothers : ∀ z, z ≠ o → t.order z = s.order z) (htrips : t.trips = s.trips) (hready : t.readyList = s.readyList) :
    TripLaw t := by
  have trip (j : TripHandle) : t.trip j = s.trip j := congrArg (look · j) htrips
  have seated {z : OrderHandle} {x : Order} (hx : x.stage = .ready ∨ x.stage = .onTrip ∨ x.trip ≠ none) :
      t.order z = some x ↔ s.order z = some x := by
    by_cases e : z = o
    · subst e
      constructor
      · intro hz
        obtain ⟨h1, h2, h3⟩ := ht.stage hz
        rcases hx with e | e | e <;> contradiction
      · intro hz
        obtain ⟨h1, h2, h3⟩ := hs.stage hz
        rcases hx with e | e | e <;> contradiction
    · rw [hothers z e]
  refine ⟨fun k => trip k ▸ h.idle k, fun k => trip k ▸ h.field k, fun k => trip k ▸ h.timer k, fun k z => ?_,
    fun z x k hx hk => ?_, fun z x hx hstage => ?_, fun k => trip k ▸ h.once k, fun k => trip k ▸ h.size k, fun z => ?_,
    hready ▸ h.readyOnce, fun hne k => ?_, fun z x hz hx k hf => ?_⟩
  · rw [trip, h.members]
    exact exists_congr fun x => and_congr_left fun hk => (seated (.inr (.inr (by simp [hk])))).symm
  · rw [trip]
    exact h.stages z x k ((seated (.inr (.inr (by simp [hk])))).mp hx) hk
  · exact h.onTrip z x ((seated (.inr (.inl hstage))).mp hx) hstage
  · rw [hready, h.ready]
    exact exists_congr fun x => and_congr_left fun hst => (seated (.inl hst.1)).symm
  · rw [trip]
    exact h.formed (hready ▸ hne) k
  · rw [trip] at hf ⊢
    obtain ⟨y, hy, hst, -⟩ := (h.ready z).mp (hready ▸ hz)
    have hy' := (seated (.inl hst)).mpr hy
    rw [hx] at hy'
    cases hy'
    exact h.joined z x (hready ▸ hz) hy k hf

/-! ### Retirement -/

/-- The laws of the order book's lists. -/
def ListsLaw (s : State) : Prop := QueueLaw s ∧ TripLaw s

theorem ordersKeep_seat_release {o : OrderHandle} {x : Order} (hx : s.order o = some x) (hparked : x.stage = .parked) :
    OrdersKeep Order.seat s (s.release o x) := by
  rw [State.release_eq]
  refine (OrdersKeep.setOrder (s := s) (o := o) ?_).trans (OrdersKeep.of_orders rfl)
  rw [hx, Option.map_some, Option.map_some, Order.seat, Order.seat, hparked]
  rfl

theorem reportable_listsLaw : Reportable ListsLaw where
  stands h := fun ⟨hq, ht⟩ => ⟨queueLaw_stands (OrdersKeep.of_orders h.orders) h.parked h.stations hq,
    tripLaw_congr (OrdersKeep.of_orders h.orders) (trips_stand h.trips) h.ready ht⟩
  marked s which := fun ⟨hq, ht⟩ => ⟨queueLaw_markDue hq which,
    tripLaw_congr (ordersKeep_markDue (fun _ => rfl) s which) (trips_stand (by simp)) (by simp) ht⟩
  released s o ord ho hdue _ := fun ⟨hq, ht⟩ => by
    have hparked := hq.due o ord ho hdue
    refine ⟨queueLaw_stands (OrdersKeep.of_orders (by simp)) (by simp) (by simp) (queueLaw_release hq ho hparked), ?_⟩
    exact tripLaw_congr ((ordersKeep_seat_release ho hparked).trans (OrdersKeep.of_orders (by simp)))
      (trips_stand (by simp)) (by simp) ht
  dispatched s k hstate := fun ⟨hq, ht⟩ => by
    obtain ⟨htrip, hwork⟩ := dispatch_law ht (.inr hstate)
    exact ⟨queueLaw_stands hwork (by simp) (by simp) hq, htrip⟩

theorem listsLaw_evaluateHoldAndDue (h : ListsLaw s) : ListsLaw s.evaluateHoldAndDue := by
  have held : ListsLaw s.evaluateHold := ⟨queueLaw_stands (OrdersKeep.of_orders (by simp)) (by simp) (by simp) h.1,
    tripLaw_congr (OrdersKeep.of_orders (by simp)) (trips_stand (by simp)) (by simp) h.2⟩
  unfold State.evaluateHoldAndDue
  dsimp only
  split
  · exact reportable_listsLaw.marked _ _ held
  · exact held

theorem listsLaw_afterFall (h : ListsLaw s) : ListsLaw s.afterFall :=
  reportable_listsLaw.releasePass (listsLaw_evaluateHoldAndDue h)

theorem listsLaw_afterThresholds (h : ListsLaw s) : ListsLaw s.afterThresholds := by
  unfold State.afterThresholds
  dsimp only
  split
  · exact reportable_listsLaw.releasePass (listsLaw_evaluateHoldAndDue h)
  · exact listsLaw_evaluateHoldAndDue h

/-- The lists and trips once an order of no trip is gone. -/
theorem tripLaw_drop {o : OrderHandle} (h : TripLaw s) (htrip : ∀ x, s.order o = some x → x.trip = none)
    (hgone : t.order o = none) (hothers : ∀ z, z ≠ o → t.order z = s.order z) (htrips : t.trips = s.trips)
    (hready : t.readyList = s.readyList.erase o) : TripLaw t := by
  obtain ⟨hcore, hsettled⟩ := tripLaw_iff.mp h
  refine tripLaw_iff.mpr ⟨hcore.drop htrip hgone hothers htrips hready, fun k => ?_⟩
  have trip : t.trip k = s.trip k := congrArg (look · k) htrips
  refine (hsettled k).mono (by rw [trip]; exact ⟨rfl, rfl, rfl⟩) fun z hz => ?_
  rw [hready, (h.readyOnce).mem_erase_iff] at hz
  exact ⟨hz.2, fun x hx => ⟨x, (hothers z hz.1).symm.trans hx, rfl⟩⟩

/-- An order off its trip, if it has one (R151). -/
def State.offTrip (s : State) (o : OrderHandle) (trip : Option TripHandle) : State :=
  match trip with
  | none => s
  | some k => s.leaveTrip k o

/-- A state without the order: its handle off the parked list and the ready list, its lines off the queues (R151). -/
def State.untold (s : State) (o : OrderHandle) : State :=
  { s with
    parked := s.parked.erase o, readyList := s.readyList.erase o
    stations := Vector.ofFn fun n => { s.station n with queue := (s.station n).queue.filter fun e => !(e.1 == o) } }

/-- The slot of an order freed, its handle off its car's list (R151). -/
def State.freed (s : State) (o : OrderHandle) (entries : Vector Entry 1024) : State :=
  { s with orders := put s.orders o none, entries := entries }

theorem retireOrder_freed {o : OrderHandle} {x : Order} (hx : s.order o = some x) : ∃ entries,
    s.retireOrder o = (((s.untold o).offTrip o x.trip).freed o entries).afterFall ∨
      s.retireOrder o = ((s.untold o).offTrip o x.trip).freed o entries := by
  obtain ⟨hfell, hstood⟩ := s.retireOrder_spec o x hx
  by_cases hf : ∃ n k, (o, k) ∈ (s.station n).queue
  · exact ⟨_, .inl (hfell hf)⟩
  · exact ⟨_, .inr (hstood hf)⟩

/-- The retirement of an order keeps the laws (R151); the law of the queues may be that of a state before, whose queues
differ in the order's own lines. -/
theorem listsLaw_retireOrder {o : OrderHandle} {x : Order} (hq : QueueLaw s) (ht : TripLaw w) (hx : w.order o = some x)
    (hothers : ∀ z, z ≠ o → (w.order z).map Order.work = (s.order z).map Order.work) (hparked : w.parked = s.parked)
    (hqueues : ∀ n, (w.station n).queue.filter (fun e => !(e.1 == o)) = (s.station n).queue.filter fun e => !(e.1 == o)) :
    ListsLaw (w.retireOrder o) := by
  obtain ⟨entries, hretired⟩ := retireOrder_freed hx
  have huorders : (w.untold o).orders = w.orders := rfl
  have hutrips : (w.untold o).trips = w.trips := rfl
  have huready : (w.untold o).readyList = w.readyList.erase o := rfl
  have hustation (n : StationNo) : ((w.untold o).station n).queue = (w.station n).queue.filter fun e => !(e.1 == o) :=
    congrArg Station.queue (look_ofFn _ n)
  have huorder (z : OrderHandle) : (w.untold o).order z = w.order z := congrArg (look · z) huorders
  have hoff : TripLaw (masked (some o) ((w.untold o).offTrip o x.trip)) ∧
      OrdersKeep Order.work (masked (some o) (w.untold o)) (masked (some o) ((w.untold o).offTrip o x.trip)) ∧
      ((w.untold o).offTrip o x.trip).parked = (w.untold o).parked ∧
      ((w.untold o).offTrip o x.trip).stations = (w.untold o).stations := by
    cases hk : x.trip with
    | none =>
      refine ⟨?_, OrdersKeep.refl _, rfl, rfl⟩
      refine tripLaw_drop (o := o) ht (fun y hy => ?_) (by rw [masked_order, if_pos rfl]) (fun z hz => ?_)
        (masked_trips _ _) (masked_readyList _ _)
      · rw [hx] at hy
        cases hy
        exact hk
      · rw [masked_order, if_neg (by simpa using Ne.symm hz)]
        rfl
    | some k =>
      have hlist : o ∉ w.readyList := fun ho => by
        obtain ⟨y, hy, -, hnone⟩ := (ht.ready o).mp ho
        rw [hx] at hy
        cases hy
        rw [hk] at hnone
        cases hnone
      have htu : TripLaw (w.untold o) := tripLaw_congr (OrdersKeep.of_orders huorders) (trips_stand hutrips)
        (by rw [huready, List.erase_of_not_mem hlist]) ht
      obtain ⟨hlaw, hwork⟩ := leaveTrip_law htu ((huorder o).trans hx) hk
      exact ⟨hlaw, hwork, by simp [State.offTrip], by simp [State.offTrip]⟩
  obtain ⟨hlaw, hwork, hoffparked, hoffstations⟩ := hoff
  generalize (w.untold o).offTrip o x.trip = off at hretired hlaw hwork hoffparked hoffstations
  have hforders : (off.freed o entries).orders = (masked (some o) off).orders := rfl
  have hforder (z : OrderHandle) : (off.freed o entries).order z = (masked (some o) off).order z := rfl
  have hfreedLaw : ListsLaw (off.freed o entries) := by
    refine ⟨hq.remove (o := o) (fun z hz => ?_) ?_ ?_ fun n => ?_, tripLaw_congr (OrdersKeep.of_orders hforders) (trips_stand ?_) ?_ hlaw⟩
    · have e := hwork z
      rw [masked_order _ (w.untold o), if_neg (by simpa using Ne.symm hz), huorder] at e
      rw [hforder, e, hothers z hz]
    · rw [hforder, masked_order, if_pos rfl]
    · rw [← hparked]
      exact hoffparked
    · rw [← hqueues, ← hustation]
      exact congrArg (fun v => (look v n).queue) hoffstations
    · rfl
    · rfl
  rcases hretired with e | e
  · rw [e]
    exact listsLaw_afterFall hfreedLaw
  · rw [e]
    exact hfreedLaw

/-- An order that the kitchen retires where both laws stand. -/
theorem ListsLaw.retireOrder (h : ListsLaw s) {o : OrderHandle} {x : Order} (hx : s.order o = some x) :
    ListsLaw (s.retireOrder o) :=
  listsLaw_retireOrder h.1 h.2 hx (fun _ _ => rfl) rfl fun _ => rfl

end Sys2Proof.Machine
end

section
/-! PROOF. The laws of the order book through cancellation, finish and placement, and through every step. -/

namespace Sys2Proof.Machine

variable {s t w : State}

/-! ### Cancellation -/

theorem inQueues_iff {o : OrderHandle} : s.inQueues o = true ↔ ∃ n k, (o, k) ∈ (s.station n).queue := by
  rw [State.inQueues, State.anyLine_iff]
  constructor
  · rintro ⟨n, z, k, hmem, e⟩
    rw [beq_iff_eq] at e
    exact ⟨n, k, e ▸ hmem⟩
  · rintro ⟨n, k, hmem⟩
    exact ⟨n, o, k, hmem, by simp⟩

theorem station_withdrawLines (s : State) (gone : OrderHandle × Nat → Bool) (n : StationNo) :
    ((s.withdrawLines gone).station n).queue = (s.station n).queue.filter fun e => !gone e := by
  rw [State.withdrawLines_eq]
  exact congrArg Station.queue (look_ofFn _ n)

theorem filter_withdrawn {o : OrderHandle} {gone : OrderHandle × Nat → Bool} (hgone : ∀ e, gone e = true → e.1 = o)
    (q : List (OrderHandle × Nat)) :
    (q.filter fun e => !gone e).filter (fun e => !(e.1 == o)) = q.filter fun e => !(e.1 == o) := by
  rw [List.filter_filter]
  refine List.filter_congr fun e _ => ?_
  by_cases h : e.1 = o
  · simp [h]
  · have : gone e = false := Bool.eq_false_iff.mpr fun hg => h (hgone e hg)
    simp [this]

/-- A cancel that settles retires its order (R146). -/
theorem listsLaw_settleCancel {o : OrderHandle} {x : Order} (hq : QueueLaw s) (ht : TripLaw w) (hx : w.order o = some x)
    (hothers : ∀ z, z ≠ o → (w.order z).map Order.work = (s.order z).map Order.work) (hparked : w.parked = s.parked)
    (hqueues : ∀ n, (w.station n).queue.filter (fun e => !(e.1 == o)) = (s.station n).queue.filter fun e => !(e.1 == o)) :
    ListsLaw (w.settleCancel o x) := by
  have told : BookStands w ((((w.count (.kitchen .cancelled)).count (.kitchen .wasteLines) x.waste).raiseOrder o
      .cancelSettled).touchCar x.car) :=
    (((bookStands_count w _ 1).trans (bookStands_count _ _ _)).trans (bookStands_raiseOrder _ o .cancelSettled)).trans
      (bookStands_touchCar _ x.car)
  have order (z : OrderHandle) := congrArg (look · z) told.orders
  refine listsLaw_retireOrder hq (tripLaw_congr (OrdersKeep.of_orders told.orders) (trips_stand told.trips) told.ready ht)
    ((order o).trans hx) (fun z hz => ?_) (told.parked.trans hparked) fun n => ?_
  · rw [← hothers z hz]
    exact congrArg (Option.map Order.work) (order z)
  · rw [← hqueues]
    exact congrArg (fun v => (look v n).queue.filter fun e => !(e.1 == o)) told.stations

/-- The cancel of a PREPARING order (R168). -/
theorem listsLaw_cancelPreparing (h : ListsLaw s) {o : OrderHandle} {x : Order} (hx : s.order o = some x)
    (hstage : x.stage = .preparing) : ListsLaw (s.cancelPreparing o x) := by
  obtain ⟨hq, ht⟩ := h
  have hrecord := hq.record hx
  have queued (n : StationNo) (k : Nat) : ({ x with cancelPending := true, timer := none } : Order).Queued n k ↔
      x.Queued n k ∧ x.lineState k ≠ some .waiting := by
    unfold Order.Queued Order.lineState
    constructor
    · rintro ⟨hs, l, hl, hn, hstate | ⟨-, e⟩⟩
      · exact ⟨⟨hs, l, hl, hn, .inl hstate⟩, by simp [hl, hstate]⟩
      · cases e
    · rintro ⟨⟨hs, l, hl, hn, hstate⟩, hnot⟩
      refine ⟨hs, l, hl, hn, .inl (hstate.resolve_right fun e => hnot ?_)⟩
      rw [hl, Option.map_some, e.1]
  unfold State.cancelPreparing
  generalize hwaits : (fun l : OrderHandle × Nat => l.1 == o && x.lineState l.2 == some .waiting) = waits
  have waits_iff (z : OrderHandle) (k : Nat) : waits (z, k) = true ↔ z = o ∧ x.lineState k = some .waiting := by
    rw [← hwaits]
    simp
  dsimp only
  generalize hm : (s.withdrawLines waits).setOrder o (some { x with cancelPending := true, timer := none }) = m
  have horder (z : OrderHandle) : m.order z =
      if o = z then some { x with cancelPending := true, timer := none } else s.order z := by
    rw [← hm, State.order_setOrder]
    split
    · rfl
    · exact congrArg (look · z) (by simp)
  have hothers (z : OrderHandle) (hz : z ≠ o) : m.order z = s.order z := by rw [horder, if_neg (Ne.symm hz)]
  have hown : m.order o = some { x with cancelPending := true, timer := none } := by rw [horder, if_pos rfl]
  have hmparked : m.parked = s.parked := by rw [← hm]; simp
  have hstation (n : StationNo) : (m.station n).queue = (s.station n).queue.filter fun e => !waits e := by
    rw [← hm]
    exact station_withdrawLines s waits n
  have hmtrips : TripLaw m := by
    refine tripLaw_congr (s := s) (fun z => ?_) (trips_stand (by rw [← hm]; simp)) (by rw [← hm]; simp) ht
    rw [horder]
    split
    · rename_i e
      rw [← e, hx]
      rfl
    · rfl
  have settled : ListsLaw (if m.inQueues o then m else m.finishOrder o) := by
    split
    · rename_i hin
      have hline (n : StationNo) (z : OrderHandle) (k : Nat) : (z, k) ∈ (m.station n).queue ↔
          if z = o then ({ x with cancelPending := true, timer := none } : Order).Queued n k
          else (z, k) ∈ (s.station n).queue := by
        rw [hstation, List.mem_filter, Bool.not_eq_true', Bool.eq_false_iff, Ne, waits_iff]
        split
        · rename_i e
          subst e
          rw [queued, hq.mem_queue]
          simp [hx]
        · rename_i e
          simp [e]
      refine ⟨hq.write (fun z hz => by rw [hothers z hz]) hown ?_ (hmparked ▸ hq.parkedOnce) (fun z => ?_)
        (fun n => by rw [hstation]; exact (hq.queuesOnce n).filter _) hline fun _ => ?_, hmtrips⟩
      · refine ⟨fun e => hrecord.due e, fun e => absurd rfl e, hrecord.lines, fun e => ?_, fun e => hrecord.started e,
          fun e => hrecord.finished e⟩
        rw [show ({ x with cancelPending := true, timer := none } : Order).stage = .preparing from hstage] at e
        rcases e with e | e <;> cases e
      · rw [hmparked]
        split
        · rename_i e
          rw [e, hq.parked]
          simp [hx]
        · rfl
      · obtain ⟨n, k, hmem⟩ := inQueues_iff.mp hin
        exact ⟨n, k, by simpa using (hline n o k).mp hmem⟩
    · have e : m.finishOrder o = m.settleCancel o { x with cancelPending := true, timer := none } := by
        rw [State.finishOrder, hown]
        rfl
      rw [e]
      refine listsLaw_settleCancel hq hmtrips hown (fun z hz => by rw [hothers z hz]) hmparked fun n => ?_
      rw [hstation, filter_withdrawn]
      rintro ⟨z, k⟩ hz
      exact ((waits_iff z k).mp hz).1
  split
  · exact listsLaw_afterFall settled
  · exact settled

/-- A law that stands over what a cancel tells aside from the book stands over the retirement too. -/
theorem listsLaw_retire_told (h : ListsLaw s) (hw : BookStands s w) {o : OrderHandle} {x : Order} (hx : s.order o = some x) :
    ListsLaw (w.retireOrder o) :=
  (reportable_listsLaw.stands hw h).retireOrder ((congrArg (look · o) hw.orders).trans hx)

/-- The cancel of an order by its stage (R167, R168, R169). -/
theorem listsLaw_cancelAtStage (h : ListsLaw s) {o : OrderHandle} {x : Order} (hx : s.order o = some x) :
    ListsLaw (s.cancelAtStage o x) := by
  have counted := bookStands_count s (.kitchen .cancelled) 1
  unfold State.cancelAtStage
  split
  · exact listsLaw_retire_told h (counted.trans (bookStands_touchCar _ x.car)) hx
  · exact listsLaw_retire_told h (counted.trans (bookStands_touchCar _ x.car)) hx
  · exact listsLaw_cancelPreparing h hx ‹_›
  · exact listsLaw_retire_told h ((counted.trans (bookStands_count _ _ _)).trans (bookStands_touchCar _ x.car)) hx
  · rename_i hstage
    obtain ⟨hq, ht⟩ := h
    have hrecord := hq.record hx
    have horder (z : OrderHandle) := State.order_setOrder s o z (some { x with cancelPending := true })
    have hnot (n : StationNo) (k : Nat) : ¬ ({ x with cancelPending := true } : Order).Queued n k := by
      rintro ⟨e, -⟩
      rw [show ({ x with cancelPending := true } : Order).stage = .onTrip from hstage] at e
      rcases e with e | e <;> cases e
    refine ⟨hq.write (o := o) (x := { x with cancelPending := true }) (fun z hz => ?_) ?_ ?_ hq.parkedOnce (fun z => ?_)
      hq.queuesOnce (fun n z k => ?_) fun e => ?_, tripLaw_congr (OrdersKeep.setOrder ?_) (trips_stand rfl) rfl ht⟩
    · rw [horder, if_neg (Ne.symm hz)]
    · rw [horder, if_pos rfl]
    · refine ⟨fun e => hrecord.due e, fun e => ?_, hrecord.lines, fun e => ?_, fun e => hrecord.started e,
        fun e => hrecord.finished e⟩
      · have := (hrecord.timer e).1
        rw [hstage] at this
        rcases this with e | e <;> cases e
      · rw [show ({ x with cancelPending := true } : Order).stage = .onTrip from hstage] at e
        rcases e with e | e <;> cases e
    · refine (show _ ↔ z ∈ s.parked from Iff.rfl).trans ?_
      split
      · rename_i e
        rw [e, hq.parked]
        simp [hx]
      · rfl
    · refine (show _ ↔ (z, k) ∈ (s.station n).queue from Iff.rfl).trans ?_
      split
      · rename_i e
        subst e
        simp only [hnot, iff_false]
        refine hq.not_queued (fun y hy => ?_) n k
        rw [hx] at hy
        cases hy
        simp [hstage]
      · rfl
    · rw [show ({ x with cancelPending := true } : Order).stage = .onTrip from hstage] at e
      rcases e with e | e <;> cases e
    · rw [hx]
      rfl

/-- What a car's retirement does to one of its orders (R170). -/
theorem listsLaw_orderLosesCar (h : ListsLaw s) (o : OrderHandle) : ListsLaw (s.orderLosesCar o) := by
  unfold State.orderLosesCar
  split
  · exact h
  · rename_i x hx
    have keep {α : Type} {π : Order → α} (hπ : π { x with car := none } = π x) :
        OrdersKeep π s (s.setOrder o (some { x with car := none })) :=
      OrdersKeep.setOrder (by rw [hx]; exact congrArg some hπ)
    have hwithout : ListsLaw (s.setOrder o (some { x with car := none })) :=
      ⟨queueLaw_stands (keep rfl) rfl rfl h.1, tripLaw_congr (keep rfl) (trips_stand rfl) rfl h.2⟩
    dsimp only
    split
    · exact hwithout
    · exact listsLaw_cancelAtStage hwithout (State.order_setOrder_self _ _ _)

/-! ### Finish -/

/-- LINE DONE (R145, R146). -/
theorem listsLaw_finishLine (h : ListsLaw s) {o : OrderHandle} {x : Order} {k : Nat} (hx : s.order o = some x)
    (hline : x.lineState k = some .started) : ListsLaw (s.finishLine o x k) := by
  obtain ⟨hq, ht⟩ := h
  have hrecord := hq.record hx
  obtain ⟨l, hl, hstarted⟩ := lineState_eq_some hline
  have hmem := List.mem_of_getElem? hl
  have hstage : x.stage = .preparing := by
    have h1 := hrecord.waiting
    have h2 := hrecord.finished
    cases hst : x.stage <;> simp only [hst, reduceCtorEq, or_self, or_true, true_or, forall_const] at h1 h2 ⊢
    · exact absurd (h1.2 l hmem) (by simp [hstarted])
    · exact absurd (h1.2 l hmem) (by simp [hstarted])
    · exact absurd (h2 l hmem) (by simp [hstarted])
    · exact absurd (h2 l hmem) (by simp [hstarted])
  have hlines (j : Nat) := withLine_getElem? x k j .finished
  have hstage' : (x.withLine k .finished).stage = .preparing := hstage
  have queued (n : StationNo) (j : Nat) : (x.withLine k .finished).Queued n j ↔ x.Queued n j ∧ j ≠ k := by
    unfold Order.Queued
    rw [hlines, hstage', hstage]
    simp only [or_true, true_and, Option.map_eq_some_iff]
    constructor
    · rintro ⟨v, ⟨v', hv', rfl⟩, hn, hv⟩
      by_cases e : k = j
      · simp [e] at hv
      · simp only [e, if_false] at hn hv
        exact ⟨⟨v', hv', hn, hv⟩, Ne.symm e⟩
    · rintro ⟨⟨v, hv, hn, hstood⟩, e⟩
      exact ⟨v, ⟨v, hv, if_neg (Ne.symm e)⟩, hn, hstood⟩
  unfold State.finishLine
  dsimp only
  refine listsLaw_afterFall ?_
  generalize hm : (s.setOrder o (some (x.withLine k .finished))).withdrawLines (fun l => l == (o, k)) = m
  have horder (z : OrderHandle) : m.order z = if o = z then some (x.withLine k .finished) else s.order z := by
    rw [← hm, ← State.order_setOrder]
    exact congrArg (look · z) (by simp)
  have hothers (z : OrderHandle) (hz : z ≠ o) : m.order z = s.order z := by rw [horder, if_neg (Ne.symm hz)]
  have hown : m.order o = some (x.withLine k .finished) := by rw [horder, if_pos rfl]
  have hmparked : m.parked = s.parked := by rw [← hm]; simp
  have hstation (n : StationNo) : (m.station n).queue = (s.station n).queue.filter fun e => !(e == (o, k)) := by
    rw [← hm]
    exact station_withdrawLines _ _ n
  have hoff : o ∉ s.parked := fun ho => by
    obtain ⟨y, hy, hp⟩ := (hq.parked o).mp ho
    rw [hx] at hy
    cases hy
    rw [hstage] at hp
    cases hp
  have hmtrips : TripLaw m := by
    refine tripLaw_congr (s := s) (fun z => ?_) (trips_stand (by rw [← hm]; simp)) (by rw [← hm]; simp) ht
    rw [horder]
    split
    · rename_i e
      rw [← e, hx]
      rfl
    · rfl
  have hqueue (n : StationNo) (z : OrderHandle) (j : Nat) : (z, j) ∈ (m.station n).queue ↔
      if z = o then (x.withLine k .finished).Queued n j else (z, j) ∈ (s.station n).queue := by
    rw [hstation, List.mem_filter]
    split
    · rename_i e
      subst e
      rw [queued, hq.mem_queue]
      simp [hx]
    · rename_i e
      simp [e]
  split
  · rename_i hin
    refine ⟨hq.write (fun z hz => by rw [hothers z hz]) hown ?_ (hmparked ▸ hq.parkedOnce) (fun z => ?_)
      (fun n => by rw [hstation]; exact (hq.queuesOnce n).filter _) hqueue fun _ => ?_, hmtrips⟩
    · refine ⟨fun e => hrecord.due e, fun e => hrecord.timer e, (withLine_length x k .finished).symm ▸ hrecord.lines,
        fun e => ?_, fun _ => ?_, fun e => ?_⟩
      · rw [hstage'] at e
        rcases e with e | e <;> cases e
      · refine ⟨{ l with state := .finished }, List.mem_of_getElem? (i := k) ?_, by simp⟩
        rw [hlines, hl]
        simp
      · rw [hstage'] at e
        rcases e with e | e <;> cases e
    · rw [hmparked]
      split
      · rename_i e
        simp [e, hoff, hstage']
      · rfl
    · obtain ⟨n, j, hj⟩ := inQueues_iff.mp hin
      exact ⟨n, j, by simpa using (hqueue n o j).mp hj⟩
  · rename_i hnone
    have hnotQueued (n : StationNo) (j : Nat) : ¬ (x.withLine k .finished).Queued n j := fun hqd =>
      hnone (inQueues_iff.mpr ⟨n, j, (hqueue n o j).mpr (by simpa using hqd)⟩)
    unfold State.finishOrder
    rw [hown]
    dsimp only
    split
    · refine listsLaw_settleCancel hq hmtrips hown (fun z hz => by rw [hothers z hz]) hmparked fun n => ?_
      rw [hstation, filter_withdrawn]
      intro e he
      exact congrArg Prod.fst (eq_of_beq he)
    · rename_i hpending
      have hpending' : x.cancelPending = false := by simpa [Order.withLine] using hpending
      obtain ⟨htrip, hwork⟩ := placeReady_law (x' := { x.withLine k .finished with stage := .ready, timer := none })
        hmtrips hown (by simp [hstage']) ⟨rfl, rfl, rfl⟩
      refine ⟨queueLaw_stands hwork (by simp) (by simp) ?_, htrip⟩
      have hnot (n : StationNo) (j : Nat) :
          ¬ ({ x.withLine k .finished with stage := .ready, timer := none } : Order).Queued n j := by
        rintro ⟨e | e, -⟩ <;> cases e
      refine hq.write (o := o) (x := { x.withLine k .finished with stage := .ready, timer := none }) (fun z hz => ?_)
        (State.order_setOrder_self _ _ _) ?_ (hmparked ▸ hq.parkedOnce) (fun z => ?_)
        (fun n => ?_) (fun n z j => ?_) fun e => ?_
      · rw [State.order_setOrder_ne _ _ (Ne.symm hz), hothers z hz]
      · refine ⟨fun e => ?_, fun e => absurd rfl e, (withLine_length x k .finished).symm ▸ hrecord.lines, fun e => ?_,
          fun e => (nomatch e), fun _ v hv => ?_⟩
        · have := hrecord.due e
          rw [hstage] at this
          cases this
        · rcases e with e | e <;> cases e
        · obtain ⟨j, hj⟩ := List.mem_iff_getElem?.mp hv
          cases hs : v.state with
          | waiting => exact absurd ⟨.inr hstage', v, hj, rfl, .inr ⟨hs, hpending'⟩⟩ (hnotQueued v.station j)
          | started => exact absurd ⟨.inr hstage', v, hj, rfl, .inl hs⟩ (hnotQueued v.station j)
          | finished => rfl
      · refine (show _ ↔ z ∈ m.parked from Iff.rfl).trans ?_
        rw [hmparked]
        split
        · rename_i e
          simp [e, hoff]
        · rfl
      · refine (show List.Nodup (m.station n).queue from ?_)
        rw [hstation]
        exact (hq.queuesOnce n).filter _
      · refine (show _ ↔ (z, j) ∈ (m.station n).queue from Iff.rfl).trans ?_
        rw [hqueue]
        split
        · simp only [hnotQueued, hnot]
        · rfl
      · rcases e with e | e <;> cases e

end Sys2Proof.Machine
end

section
/-! PROOF. The laws of the order book's lists through every step (O57). -/

namespace Sys2Proof.Machine

variable {s t : State}

/-- PLACE ORDER (R135, R139, R140). -/
theorem listsLaw_placed (h : ListsLaw s) {o : OrderHandle} (hfree : s.order o = none) (k : CarHandle) (f : FieldNo)
    (mode : ReleaseMode) {lines : List OrderLine} (hcount : 1 ≤ lines.length ∧ lines.length ≤ 6)
    (hwaiting : ∀ l ∈ lines, l.state = .waiting) : ListsLaw ((s.parkOrder o k f mode lines).placeDueCheck o f mode) := by
  obtain ⟨hq, ht⟩ := h
  have horder (z : OrderHandle) : (s.parkOrder o k f mode lines).order z =
      if o = z then some (newOrder k f mode s.nextPlacement lines) else s.order z := State.order_setOrder s o z _
  have hown : (s.parkOrder o k f mode lines).order o = some (newOrder k f mode s.nextPlacement lines) := by
    rw [horder, if_pos rfl]
  have parked : ListsLaw (s.parkOrder o k f mode lines) :=
    ⟨queueLaw_parkOrder hq hfree k f mode hcount hwaiting, tripLaw_unseated ht (unseated_of_none hfree) (fun x hx => by
      rw [hown] at hx
      cases hx
      rfl) (fun z hz => by rw [horder, if_neg (Ne.symm hz)]) rfl rfl⟩
  unfold State.placeDueCheck
  split
  · refine reportable_listsLaw.releasePass ⟨queueLaw_marked parked.1 (fun z => ?_) rfl rfl,
      tripLaw_congr (OrdersKeep.modOrder _ o fun _ => rfl) (trips_stand rfl) rfl parked.2⟩
    by_cases e : o = z
    · subst e
      refine .inr ⟨_, hown, rfl, (State.order_setOrder_self _ _ _).trans ?_⟩
      rw [hown]
      rfl
    · exact .inl (State.order_setOrder_ne _ _ e)
  · exact parked

/-- The prep timer of an order runs out (R150). -/
theorem listsLaw_late (h : ListsLaw s) {o : OrderHandle} {x : Order} (hx : s.order o = some x) :
    ListsLaw (s.setOrder o (some { x with late := true, timer := none })) := by
  obtain ⟨hq, ht⟩ := h
  have hrecord := hq.record hx
  have horder (z : OrderHandle) := State.order_setOrder s o z (some { x with late := true, timer := none })
  refine ⟨hq.write (o := o) (x := { x with late := true, timer := none }) (fun z hz => ?_) ?_ ?_ hq.parkedOnce (fun z => ?_)
    hq.queuesOnce (fun n z k => ?_) fun e => ?_, tripLaw_congr (OrdersKeep.setOrder (by rw [hx]; rfl)) (trips_stand rfl) rfl ht⟩
  · rw [horder, if_neg (Ne.symm hz)]
  · rw [horder, if_pos rfl]
  · exact ⟨fun e => hrecord.due e, fun e => absurd rfl e, hrecord.lines, fun e => hrecord.waiting e,
      fun e => hrecord.started e, fun e => hrecord.finished e⟩
  · refine (show _ ↔ z ∈ s.parked from Iff.rfl).trans ?_
    split
    · rename_i e
      rw [e, hq.parked]
      simp [hx]
    · rfl
  · refine (show _ ↔ (z, k) ∈ (s.station n).queue from Iff.rfl).trans ?_
    split
    · rename_i e
      subst e
      rw [hq.mem_queue]
      simp only [hx, Option.some.injEq, exists_eq_left']
      rfl
    · rfl
  · obtain ⟨n, k, hmem⟩ := hq.unfinished o x hx e
    obtain ⟨y, hy, hqd⟩ := (hq.mem_queue n o k).mp hmem
    rw [hx] at hy
    cases hy
    exact ⟨n, k, hqd⟩

theorem listsLaw_of_work (h : ListsLaw s) (hlaw : TripLaw t ∧ OrdersKeep Order.work s t) (hparked : t.parked = s.parked)
    (hstations : t.stations = s.stations) : ListsLaw t :=
  ⟨queueLaw_stands hlaw.2 hparked hstations h.1, hlaw.1⟩

/-- A millisecond of the timers (R1). -/
theorem listsLaw_countMillisecond (h : ListsLaw s) : ListsLaw s.countMillisecond := by
  have horder (o : OrderHandle) : s.countMillisecond.order o = (s.order o).map fun x => { x with timer := countDown x.timer } := by
    rw [State.countMillisecond_eq]
    exact look_ofFn _ _
  have keep {α : Type} {π : Order → α} (hπ : ∀ x, π { x with timer := countDown x.timer } = π x) :
      OrdersKeep π s s.countMillisecond := fun o => by
    rw [horder, Option.map_map]
    exact congrArg (Option.map · _) (funext hπ)
  have htrip (k : TripHandle) : s.countMillisecond.trip k = { s.trip k with timer := countDown (s.trip k).timer } := by
    rw [State.countMillisecond_eq]
    exact look_ofFn _ _
  refine ⟨queueLaw_stands (keep fun x => ?_) (by simp) (by simp) h.1,
    tripLaw_congr (keep fun _ => rfl) (fun k => ?_) (by simp) h.2⟩
  · cases hx : x.timer <;> simp [Order.work, countDown, hx]
  · rw [htrip]
    refine ⟨rfl, rfl, rfl, ?_⟩
    cases (s.trip k).timer <;> simp [countDown]

theorem listsLaw_setThresholds (h : ListsLaw s) (mask xoff xon prepLimit : Nat) :
    ListsLaw { s.setThresholds mask xoff xon with prepLimit := prepLimit } := by
  have hqueues (n : StationNo) : ((s.setThresholds mask xoff xon).station n).queue = (s.station n).queue := by
    unfold State.setThresholds
    refine State.forEach_induct (fun u => (u.station n).queue = (s.station n).queue) s _ _ (fun m u _ hu => ?_) rfl
    split
    · rw [State.station_setStation]
      split
      · rename_i e
        rw [← hu, e]
      · exact hu
    · exact hu
  exact ⟨queueLaw_congr (OrdersKeep.of_orders (by simp)) (by simp) hqueues h.1,
    tripLaw_congr (OrdersKeep.of_orders (by simp)) (trips_stand (by simp)) (by simp) h.2⟩

theorem bookLaw_listsLaw : BookLaw ListsLaw where
  toReportable := reportable_listsLaw
  told s k c _ h := by
    have hemptied : ListsLaw (s.modCar k fun x => { x with lent := none, orders := [] }) :=
      ⟨queueLaw_stands (OrdersKeep.of_orders (by simp)) (by simp) (by simp) h.1,
        tripLaw_congr (OrdersKeep.of_orders (by simp)) (trips_stand (by simp)) (by simp) h.2⟩
    exact State.forEach_induct ListsLaw _ c.orders _ (fun o _ _ ht => listsLaw_orderLosesCar ht o) hemptied
  placed _ k c _ mode _ _ _ hfree hcount hwaiting h :=
    listsLaw_placed h (by simpa using (lowest_spec hfree).1) k c.field mode hcount hwaiting
  cancelled _ _ _ ho _ h := listsLaw_cancelAtStage h ho
  handedOut _ _ _ k ord _ holdest ho _ h := by
    refine ⟨queueLaw_handOut h.1 holdest ho, tripLaw_congr (OrdersKeep.setOrder ?_) (trips_stand rfl) rfl h.2⟩
    rw [ho]
    refine congrArg some ?_
    unfold Order.handOut Order.seat Order.withLine
    cases ord.stage <;> rfl
  finished _ _ _ _ ho hline h := listsLaw_finishLine h ho hline
  thresholds _ mask xoff xon prepLimit _ h := listsLaw_afterThresholds (listsLaw_setThresholds h mask xoff xon prepLimit)
  settled _ _ _ ho _ h := h.retireOrder ho
  recalled _ _ hout h := listsLaw_of_work h (recallTrip_law h.2 hout) (by simp) (by simp)
  late _ _ _ ho h := listsLaw_late h ho
  closed _ _ hstate h := listsLaw_of_work h (closeTrip_law h.2 hstate) (by simp) (by simp)
  millisecond _ h := listsLaw_countMillisecond h

theorem listsLaw_partReset (s : State) (select : SelectLine) : ListsLaw (s.partReset select) := by
  rw [State.partReset_eq]
  constructor <;> constructor <;> simp [State.reset, State.order, State.station, State.trip]

theorem orderListLaw_dayClosed (h : OrderListLaw s) : OrderListLaw s.dayClosed :=
  ((OrdersKeep.of_orders (s := s) (t := s.dayClosed) rfl).refsStand rfl).orderListLaw h

theorem listsLaw_dayClosed (h : ListsLaw s) : ListsLaw s.dayClosed :=
  ⟨queueLaw_stands (s := s) (t := s.dayClosed) (OrdersKeep.of_orders rfl) rfl rfl h.1,
    tripLaw_congr (s := s) (t := s.dayClosed) (OrdersKeep.of_orders rfl) (trips_stand rfl) rfl h.2⟩

/-- Settles O57: the cars' lists by the references they answer, the parked list and the queues by the one order that an
operation writes or removes, the trips and the ready list by the orders that gather in a trip or leave it. -/
theorem orderListsAgreeWithTheBook : Obligations.OrderListsAgreeWithTheBook := fun _ _ he =>
  ⟨fun h => bookLaw_orderListLaw.kept.everyStep (fun _ => orderListLaw_dayClosed)
      (fun s select _ => orderListLaw_partReset s select) he h,
    fun hq ht => bookLaw_listsLaw.kept.everyStep (fun _ => listsLaw_dayClosed)
      (fun s select _ => listsLaw_partReset s select) he ⟨hq, ht⟩⟩

end Sys2Proof.Machine
end

section
/-! PROOF. The queue through every row (O1, O2), and the laws of the machine after part reset (O10). -/

namespace Sys2Proof.Machine

variable {s t : State}

/-! ### The queue through every row (O1, O2) -/

/-- Settles O1: a step is the meaning of the command at the front of the queue, by its definition. -/
theorem stepRunsTheFrontCommand : Obligations.StepRunsTheFrontCommand := fun _ _ _ => rfl

theorem Change.pending (h : Change s t) : t.pending = s.pending := by
  cases h with
  | admission => simp [State.admitInto]
  | writeClosedRows f closed =>
    unfold State.writeClosedRows State.evaluateSignIfLit
    dsimp only [State.ok]
    split <;> simp
  | _ => simp

theorem Event.pending (h : Event s t) : t.pending = s.pending := by
  cases h <;> simp

theorem workOf_pending (i : Instr) (s : State) : (workOf i s).state.pending = s.pending := by
  by_cases hi : i = .closeDay
  · subst hi
    obtain e | e : (workCloseDay s).state = s ∨ (workCloseDay s).state = s.dayClosed := workCloseDay_state s
    · exact congrArg State.pending e
    · have hpending := congrArg State.pending e
      exact hpending
  · obtain e | h := worked_workOf s i hi
    · exact congrArg State.pending e
    · exact h.pending

theorem discardReply_pending (s : State) : s.discardReply.pending = s.pending := by
  obtain ⟨-, e⟩ | ⟨-, e⟩ := s.discardReply_spec <;> rw [e]
  rfl

theorem selectPeriod_pending {effect : State → State} (h : (effect s).pending = s.pending) :
    (s.selectPeriod effect).pending = s.pending := by
  unfold State.selectPeriod
  split
  exacts [h, rfl, rfl, rfl]

theorem judgeFrame_pending (s : State) (bytes : List Nat) (off busy : Bool) :
    (s.judgeFrame bytes off busy).pending = s.pending := by
  obtain ⟨port, attention, n, e⟩ := s.judgeFrame_spec bytes off busy
  rw [e]

theorem command_pending (s : State) (i : Instr) : (s.command i (workOf i)).pending = s.pending := by
  refine selectPeriod_pending ?_
  dsimp only
  split
  · rfl
  · exact (workOf_pending i _).trans (discardReply_pending _)

theorem wholePeriod_pending (s : State) (bytes : List Nat) (off : Bool) : (s.wholePeriod bytes off).pending = s.pending := by
  unfold State.wholePeriod
  split
  · rfl
  · split
    · rfl
    · split
      · rfl
      · exact judgeFrame_pending _ _ _ _

theorem clockEdges_pending (s : State) (edges : List SckEdge) : (s.clockEdges edges).pending = s.pending := by
  obtain ⟨select, sdo, e⟩ := s.clockEdges_spec edges
  rw [e]

theorem commandFrameJudged_pending (s : State) (bytes : List Nat) (after : PeriodEnd) :
    ∃ t, execCommandFrameJudged bytes after s = .next t ∧ t.pending = s.pending := by
  refine ⟨_, rfl, ?_⟩
  split
  · exact wholePeriod_pending s bytes _
  · obtain ⟨port, attention, n, e⟩ := (s.clockEdges (edgesOfBytes bytes)).selRises_spec ‹_›
    rw [e]
    exact clockEdges_pending s _
  · rw [clockEdges_pending]
    obtain ⟨-, e⟩ | ⟨-, e⟩ := s.selFalls_spec <;> rw [e]

/-- Settles O2: a command's row by its frame at the port, every other row by its own definition. -/
theorem everyRowAnswersANextState : Obligations.EveryRowAnswersANextState := by
  intro i s
  by_cases hframe : i.isFrame = true
  · exact ⟨_, exec_frame s i hframe, command_pending s i⟩
  cases i with
  | readStatus n => exact ⟨_, rfl, selectPeriod_pending rfl⟩
  | fetchReply n => exact ⟨_, rfl, selectPeriod_pending rfl⟩
  | commandFrameJudged bytes after => exact commandFrameJudged_pending s bytes after
  | partReset part =>
    refine ⟨_, rfl, ?_⟩
    cases part with
    | rises selLow =>
      dsimp only
      split
      exacts [rfl, rfl]
    | _ => rfl
  | loopRawChange l loop level => cases loop <;> exact ⟨_, rfl, by simp⟩
  | arrivalOccupied l =>
    refine ⟨_, rfl, ?_⟩
    split
    exacts [rfl, (Event.arrivalOccupied l).pending]
  | passOccupied l =>
    refine ⟨_, rfl, ?_⟩
    split
    exacts [rfl, (Event.passOccupied l).pending]
  | arrivalCleared l => exact ⟨_, rfl, (Event.arrivalCleared l).pending⟩
  | passCleared l => exact ⟨_, rfl, (Event.passCleared l).pending⟩
  | entryPassTimerExpiry l => exact ⟨_, rfl, (Event.entryExpiry _ l.isLt).pending⟩
  | exitPassTimerExpiry l => exact ⟨_, rfl, (Event.exitExpiry _ (Nat.le_add_right 4 l.val)).pending⟩
  | framePulse f => exact ⟨_, rfl, (Event.framePulse f).pending⟩
  | pulseOverdue f => exact ⟨_, rfl, (Event.overdue f).pending⟩
  | holdoverExpiry f => exact ⟨_, rfl, (Event.holdover f).pending⟩
  | referenceDropped f => exact ⟨_, rfl, (Event.reference f).pending⟩
  | wordStrobe f => exact ⟨_, rfl, (Event.strobe f).pending⟩
  | wordClockFall f => exact ⟨_, rfl, (Event.fall f).pending⟩
  | carrierLoss f => exact ⟨_, rfl, (Event.carrierLoss f).pending⟩
  | carrierRise f => exact ⟨_, rfl, (Event.carrierRise f).pending⟩
  | issueTimerExpiry n => exact ⟨_, rfl, (Event.issueExpiry n).pending⟩
  | prepTimerExpiry o => exact ⟨_, rfl, (Event.prepExpiry o).pending⟩
  | gatherTimerExpiry k => exact ⟨_, rfl, (Event.gatherExpiry k).pending⟩
  | _ => exact absurd rfl hframe

/-! ### The laws after part reset (O10) -/

/-- The machine after part reset, its input pins low, is that of a part reset with SEL high. -/
theorem reset_eq_partReset : State.reset = State.reset.partReset .high := by
  rw [State.partReset_eq]
  have hlanes : State.reset.lanes = Vector.ofFn fun l => (State.reset.lane l).afterReset := by
    apply table_ext
    intro l
    rw [look_ofFn]
    simp [State.reset, State.lane, Lane.afterReset, LoopInput.afterReset]
  have hprograms : State.reset.programs = Vector.ofFn fun f => (State.reset.program f).afterReset := by
    apply table_ext
    intro f
    rw [look_ofFn]
    simp [State.reset, State.program, ProgramUnit.afterReset]
  rw [← hlanes, ← hprograms]
  rfl

/-- Settles O10: each law by what part reset makes of it. -/
theorem resetKeepsEveryLaw : Obligations.ResetKeepsEveryLaw := by
  have hprogram (f : FieldNo) : State.reset.program f = { carrier := false } := look_replicate _ f
  have htimebase (f : FieldNo) : State.reset.timebase f = {} := look_replicate _ f
  have stands {P : State → Prop} (h : ∀ select, P (State.reset.partReset select)) : P State.reset :=
    reset_eq_partReset ▸ h .high
  refine ⟨fun f => htimebase f ▸ bounds_reset, fun f => ?_, stands (stallLaw_partReset _), stands (setLaw_partReset _),
    stands (holdLaw_partReset _), ?_, stands (orderListLaw_partReset _), (stands (listsLaw_partReset _)).1,
    (stands (listsLaw_partReset _)).2, stands (gateLaw_partReset _), fun f => ?_, fun f => ?_⟩
  · rw [hprogram, htimebase]
    exact showOf_reset false
  · exact (capacityLaw_iff _).mpr ⟨stands (bookCapacity_partReset _), fun f => by rw [hprogram]; exact Nat.zero_le 24,
      Nat.zero_le _, Nat.zero_le _⟩
  · rw [hprogram, htimebase]
    exact ranges_reset false
  · rw [hprogram]
    exact position_reset false

end Sys2Proof.Machine
end

section
/-! PROOF. Commands that read (O12): what a command at a free port answers, in the records of the state before it. -/

namespace Sys2Proof.Machine

variable {s : State} {i : Instr}

/-! ### The state that a command's work finds -/

/-- The records of a state, with another port and attention unit. -/
abbrev State.facing (s : State) (port : Port) (attention : Attention) : State :=
  { s with port := port, attention := attention }

/-- The state that a command finds differs from the state before it in the port and the attention unit alone (R172, R175). -/
theorem State.atWork_shape (s : State) (i : Instr) :
    ∃ port attention, s.atWork i = s.facing port attention := by
  unfold State.atWork
  obtain ⟨-, e⟩ | ⟨-, e⟩ := (s.clockStatus i.frame.length).discardReply_spec
  · exact ⟨_, s.attention, e⟩
  · exact ⟨_, _, e⟩

/-- A command refused on every state with these records is refused at a free port. -/
theorem denied_of_records (hi : i.isFrame = true) (hp : PortFree s) {code : ResultCode}
    (h : ∀ port attention, workOf i (s.facing port attention) = (s.facing port attention).deny code) : Denied i s code := by
  obtain ⟨port, attention, e⟩ := s.atWork_shape i
  refine denied_of_work_eq_deny hi hp ?_
  rw [e]
  exact h port attention

/-- A command answered on every state with these records is answered so at a free port. -/
theorem answered_of_records (hi : i.isFrame = true) (hp : PortFree s) {g : State → State} {bytes : List Nat}
    (h : ∀ port attention, workOf i (s.facing port attention) = (g (s.facing port attention)).ok bytes) :
    exec i s = .next ((g (s.atWork i)).answered .ok bytes) := by
  obtain ⟨port, attention, e⟩ := s.atWork_shape i
  refine exec_of_work_eq_ok hi hp ?_
  rw [e]
  exact h port attention

/-- A command that only reads, answered with the record on every state with these records. -/
theorem read_of_records (hi : i.isFrame = true) (hp : PortFree s) {bytes : List Nat}
    (h : ∀ port attention, workOf i (s.facing port attention) =
      (s.facing port attention).ok bytes) :
    exec i s = .next ((s.atWork i).answered .ok bytes) :=
  answered_of_records (g := id) hi hp h

/-! ### Handles -/

theorem State.withHandle_fin (s : State) {n : Nat} (k : Fin n) (work : Fin n → Answer) : s.withHandle n k work = work k :=
  s.withHandle_of_lt k.isLt work

theorem State.withOrder_of_ge (s : State) {order : Nat} (h : 256 ≤ order) (work : OrderHandle → Order → Answer) :
    s.withOrder order work = s.deny .badArg := s.withHandle_of_ge h _

theorem State.withOrder_of_none (s : State) {o : OrderHandle} (h : s.order o = none) (work : OrderHandle → Order → Answer) :
    s.withOrder o work = s.deny .notFound := by
  rw [State.withOrder, s.withHandle_fin]
  simp only [h]

theorem State.withOrder_of_some (s : State) {o : OrderHandle} {ord : Order} (h : s.order o = some ord)
    (work : OrderHandle → Order → Answer) : s.withOrder o work = work o ord := by
  rw [State.withOrder, s.withHandle_fin]
  simp only [h]

/-! ### READ FIELD, READ PROGRAM, READ SET, READ TALLIES -/

theorem workReadField_of_no_row (s : State) (f : FieldNo) {row : Nat} (hrow : row ≠ 0) (h : 16 < row ∨ (s.unit f).rows < row) :
    workReadField f row s = s.deny .badArg := by
  rw [workReadField, s.withHandle_fin, if_neg hrow]
  by_cases hlt : row - 1 < 16
  · rw [s.withHandle_of_lt hlt]
    refine s.checked_of_some ?_ _
    have hfalse : ((s.unit f).configured && decide (row ≤ (s.unit f).rows)) = false := by
      rw [Bool.and_eq_false_iff, decide_eq_false_iff_not]
      exact .inr (by omega)
    rw [hfalse, firstFailure_false]
  · exact s.withHandle_of_ge (not_lt.mp hlt) _

theorem workReadField_of_row (s : State) (f : FieldNo) {r : Fin 16} (h : r.val + 1 ≤ (s.unit f).rows) :
    workReadField f (r.val + 1) s = s.ok (s.fieldRecord f ++ (s.unit f).rowBytes r) := by
  rw [workReadField, s.withHandle_fin, if_neg (Nat.succ_ne_zero _), Nat.add_sub_cancel, s.withHandle_fin]
  refine s.checked_of_none ?_ _
  have htrue : ((s.unit f).configured && decide (r.val + 1 ≤ (s.unit f).rows)) = true := by
    simp only [FieldUnit.configured, Bool.and_eq_true, bne_iff_ne, decide_eq_true_eq]
    exact ⟨by omega, h⟩
  rw [htrue, firstFailure_true, firstFailure_nil]

theorem workReadProgram_of_no_segment (s : State) (f : FieldNo) {n : Nat} (hn : n ≠ 0xFF)
    (h : (s.program f).record.segments.length ≤ n) : workReadProgram f n s = s.deny .badArg := by
  rw [workReadProgram, s.withHandle_fin, sentinel, if_neg hn]
  simp only [List.getElem?_eq_none h]

theorem workReadProgram_of_segment (s : State) (f : FieldNo) {n : Nat} {seg : Segment} (hn : n ≠ 0xFF)
    (h : (s.program f).record.segments[n]? = some seg) :
    workReadProgram f n s = s.ok ((s.program f).bytes ++ seg.bytes) := by
  rw [workReadProgram, s.withHandle_fin, sentinel, if_neg hn]
  simp only [h]

theorem workReadSet_of_out_of_range (s : State) {selector number : Nat} (h : 1 < selector ∨ 128 ≤ number) :
    workReadSet selector number s = s.deny .badArg := by
  unfold workReadSet
  split
  · exact s.withHandle_of_ge (h.resolve_left (by omega)) _
  · exact State.withBay_of_ge (h.resolve_left (by omega)) _
  · rfl

theorem workReadTallies_of_ge (s : State) {group : Nat} (h : 7 ≤ group) : workReadTallies group s = s.deny .badArg := by
  have hnone : tallyGroup group = none := by
    unfold tallyGroup
    split
    · omega
    · omega
    · omega
    · rw [handle?_of_ge (by omega)]
      rfl
  rw [workReadTallies, hnone]

theorem workReadTallies_of_group (s : State) {group : Nat} {ts : List Tally} (h : tallyGroup group = some ts) :
    workReadTallies group s = s.ok (ts.flatMap fun t => be2 (s.tally t)) := by
  rw [workReadTallies, h]

/-- The tallies of the six lanes, then the unidentified exits (R62, R190). -/
theorem workReadTallies_lanes (s : State) : workReadTallies 4 s = s.ok
    ((List.finRange 6).flatMap (fun l =>
        be2 (s.tally (.lane l .balks)) ++ be2 (s.tally (.lane l .tailgates)) ++ be2 (s.tally (.lane l .noPass))) ++
      be2 (s.tally (.unidentifiedExits 0)) ++ be2 (s.tally (.unidentifiedExits 1))) := by
  rw [workReadTallies_of_group s (group := 4) rfl, List.flatMap_append, List.flatMap_assoc]
  simp only [List.flatMap_cons, List.flatMap_nil, List.append_nil, List.append_assoc]

theorem tallyGroup_field (f : FieldNo) : tallyGroup f = some
    ([FieldTally.carsAdmitted, .personsAdmitted, .departed, .withdrawn, .lockLosses, .reacquireFailures,
      .pulseGlitches, .carrierLosses].map (.field f)) := by
  fin_cases f <;> rfl

/-- Settles O12: each READ by the record that its number names; the record is that of the state before the command. -/
theorem readsAnswerTheRecordAndChangeNothing : Obligations.ReadsAnswerTheRecordAndChangeNothing := by
  intro s hp answers
  have denied {i : Instr} (hi : i.isFrame = true) {code : ResultCode} (h : ∀ t : State, workOf i t = t.deny code) :
      Denied i s code := denied_of_records hi hp fun _ _ => h _
  have reads {i : Instr} (hi : i.isFrame = true) {bytes : List Nat} (h : ∀ port attention,
      workOf i (s.facing port attention) =
        (s.facing port attention).ok bytes) : answers i bytes := read_of_records hi hp h
  refine ⟨fun n x => ⟨fun h => ⟨?_, ?_, ?_⟩, fun h => ?_, fun h => ?_, fun h => ?_, fun h => ?_, fun h => ?_, fun h => ?_⟩,
    fun f row hrow h => ?_, fun f n hn h => ?_, fun b h => ?_, fun o h => ?_, fun f => ?_, fun f r h => ?_, fun f => ?_,
    fun f => ?_, fun f n seg hn h => ?_, fun l => ?_, fun h => ?_, fun n => ?_, fun b n h => ?_, fun o ord h => ?_,
    fun t => ?_, ?_, ?_, fun f => ?_, ?_, ?_, ?_⟩
  · exact denied rfl fun t => t.withHandle_of_ge h _
  · exact denied rfl fun t => t.withHandle_of_ge h _
  · exact denied rfl fun t => t.withHandle_of_ge h _
  · exact denied rfl fun t => t.withHandle_of_ge h _
  · exact denied rfl fun t => workReadTallies_of_ge t h
  · exact denied rfl fun t => t.withHandle_of_ge h _
  · exact denied rfl fun t => t.withOrder_of_ge h _
  · exact denied rfl fun t => t.withHandle_of_ge h _
  · exact denied rfl fun t => workReadSet_of_out_of_range t h
  · exact denied_of_records rfl hp fun _ _ => workReadField_of_no_row _ f hrow h
  · exact denied_of_records rfl hp fun _ _ => workReadProgram_of_no_segment _ f hn h
  · exact denied_of_records rfl hp fun port attention => State.withBay_of_empty (s := s.facing port attention) h _
  · exact denied_of_records rfl hp fun port attention => State.withOrder_of_none (s.facing port attention) h _
  · exact reads rfl fun _ _ => State.withHandle_fin _ f _
  · exact reads rfl fun _ _ => workReadField_of_row _ f h
  · exact reads rfl fun _ _ => State.withHandle_fin _ f _
  · exact reads rfl fun _ _ => State.withHandle_fin _ f _
  · exact reads rfl fun _ _ => workReadProgram_of_segment _ f hn h
  · exact reads rfl fun _ _ => State.withHandle_fin _ l _
  · exact reads rfl fun _ _ => State.withHandle_fin _ h _
  · exact reads rfl fun _ _ => State.withHandle_fin _ n _
  · exact reads rfl fun port attention => State.withBay_of_standing (s := s.facing port attention) h _
  · exact reads rfl fun port attention => State.withOrder_of_some (s.facing port attention) h _
  · exact reads rfl fun _ _ => State.withHandle_fin _ t _
  · exact reads rfl fun _ _ => rfl
  · exact exec_of_work_eq_ok rfl hp rfl
  · exact reads rfl fun _ _ => workReadTallies_of_group _ (tallyGroup_field f)
  · exact reads rfl fun _ _ => workReadTallies_lanes _
  · exact reads rfl fun _ _ => workReadTallies_of_group _ (group := 5) rfl
  · exact reads rfl fun _ _ => workReadTallies_of_group _ (group := 6) rfl

end Sys2Proof.Machine
end

section
/-! PROOF. Commands that write settings: CLOSE ROWS and OPEN ROWS (O20), the configuration commands (O22). -/

namespace Sys2Proof.Machine

variable {s : State} {i : Instr}

/-! ### Checks one by one -/

/-- A check that fails answers. -/
theorem State.checked_fails (s : State) {b : Bool} (h : b = false) (code : ResultCode) (rest : List (Bool × ResultCode))
    (work : Answer) : s.checked ((b, code) :: rest) work = s.deny code := by
  subst h
  exact s.checked_of_some (firstFailure_false _ _) work

/-- Behind a check that holds stand the others. -/
theorem State.checked_holds (s : State) {b : Bool} (h : b = true) (code : ResultCode) (rest : List (Bool × ResultCode))
    (work : Answer) : s.checked ((b, code) :: rest) work = s.checked rest work := by
  subst h
  rfl

theorem State.checked_nil (s : State) (work : Answer) : s.checked [] work = work := rfl

/-! ### CLOSE ROWS and OPEN ROWS (R5, R6) -/

theorem State.evaluateSignIfLit_dark (s : State) {f : FieldNo} (h : (s.program f).state = .dark) :
    s.evaluateSignIfLit f = s := if_pos (beq_iff_eq.mpr h)

theorem State.evaluateSignIfLit_lit (s : State) {f : FieldNo} (h : (s.program f).state ≠ .dark) :
    s.evaluateSignIfLit f = s.evaluateSign f := if_neg (mt beq_iff_eq.mp h)

/-- The field unit with other closed rows, its full sign evaluated where the field is lit (R5, R6, R16). -/
theorem writeClosedRows_eq (s : State) (f : FieldNo) (closed : BitVec 16) :
    let u := { s.unit f with closed := closed }
    let full :=
      if (s.program f).state = .dark then u.full
      else if u.standardFree ≤ u.signOn then true
      else if u.signOff ≤ u.standardFree then false
      else u.full
    s.writeClosedRows f closed =
      State.ok { s with fieldUnits := put s.fieldUnits f { u with full := full } } (be2 closed.toNat) := by
  intro u full
  refine congrArg (State.ok · (be2 closed.toNat)) (show (s.setUnit f u).evaluateSignIfLit f = _ from ?_)
  by_cases hdark : (s.program f).state = .dark
  · rw [(s.setUnit f u).evaluateSignIfLit_dark (f := f) hdark, show full = u.full from if_pos hdark]
    rfl
  · rw [(s.setUnit f u).evaluateSignIfLit_lit (f := f) hdark, State.evaluateSign, State.unit_setUnit_self,
      show full = u.evaluateSign.full from if_neg hdark]
    exact congrArg (fun v : Vector FieldUnit 4 => { s with fieldUnits := v }) (put_put _ _ _ _)

/-- Settles O20: both commands write the closed rows in one way. -/
theorem rowsCloseAndOpen : Obligations.RowsCloseAndOpen := by
  refine ⟨fun s field mask hp hfield => ⟨?_, ?_⟩, fun s f mask hp => ⟨?_, ?_⟩⟩
  · exact denied_of_records rfl hp fun _ _ => State.withHandle_of_ge _ hfield _
  · exact denied_of_records rfl hp fun _ _ => State.withHandle_of_ge _ hfield _
  · refine answered_of_records rfl hp (g := fun t => { t with fieldUnits := _ }) fun port attention => ?_
    exact (State.withHandle_fin _ f _).trans (writeClosedRows_eq (s.facing port attention) f _)
  · refine answered_of_records rfl hp (g := fun t => { t with fieldUnits := _ }) fun port attention => ?_
    exact (State.withHandle_fin _ f _).trans (writeClosedRows_eq (s.facing port attention) f _)

/-! ### The configuration commands (R59, R109, R115, R157) -/

theorem setPassTimes_eq (s : State) (mask passTime : Nat) : s.setPassTimes mask passTime = { s with
    lanes := Vector.ofFn fun l => { s.lane l with
      passTime := if mask.testBit l.val then passTime else (s.lane l).passTime } } := by
  refine State.forEach_table (fun v => { s with lanes := v })
    (fun l x => { x with passTime := if mask.testBit l.val then passTime else x.passTime }) _ (fun l v => ?_) s.lanes
  by_cases h : mask.testBit l.val = true
  · simp only [maskBit, h, if_true]
    rfl
  · simp only [maskBit, h, Bool.false_eq_true, if_false]
    exact congrArg (fun w : Vector Lane 6 => { s with lanes := w }) (put_look v l).symm

section
variable (s : State) (f : FieldNo) (w g j h r : Nat)

/-- The work of CONFIGURE TIMEBASE for a field that there is (R109). -/
theorem workConfigureTimebase_of_field :
    workConfigureTimebase f w g j h r s =
      s.checked
        [((s.program f).state == .dark || (s.program f).state == .opened, .state),
         (within 1 64 w && decide (g ≤ 64) && within 1 4096 j && within 1 48 h && within 24 480 r, .badArg)]
        (State.ok { s with timebases := put s.timebases f { s.timebase f with settings := ⟨w, g, j, h, r⟩ } }
          ([w, g] ++ be2 j ++ [h] ++ be2 r)) :=
  State.withHandle_fin s f _

end

/-- Settles O22: each command by its checks, in the order of its rule, and the one write behind them. -/
theorem settingsAreWrittenAndAnswered : Obligations.SettingsAreWrittenAndAnswered := by
  intro s hp
  have lit {f : FieldNo} : (s.program f).state = .dark ∨ (s.program f).state = .opened ↔
      ((s.program f).state == .dark || (s.program f).state == .opened) = true := by simp
  refine ⟨fun field w g j h r => ⟨fun hfield => ?_, ?_⟩, fun a b => ⟨fun hab => ?_, fun hab => ?_, fun ha => ?_⟩,
    fun f w g j h r hstate hw hw' hg hj hj' hh hh' hr hr' => ?_, fun mask time hmask hlow hhigh => ?_,
    fun level time h1 h2 h3 h4 => ?_, fun window hlow hhigh => ?_⟩
  · exact denied_of_records rfl hp fun _ _ => State.withHandle_of_ge _ hfield _
  · rintro f rfl
    refine ⟨fun hdark hopened => ?_, fun hstate hrange => ?_⟩
    · refine denied_of_records rfl hp fun port attention =>
        (workConfigureTimebase_of_field (s.facing port attention) f w g j h r).trans (State.checked_fails _ ?_ _ _ _)
      exact Bool.eq_false_iff.mpr (lit.not.mp (by simp [hdark, hopened]))
    · refine denied_of_records rfl hp fun port attention =>
        (workConfigureTimebase_of_field (s.facing port attention) f w g j h r).trans
          ((State.checked_holds _ (lit.mp hstate) _ _ _).trans (State.checked_fails _ ?_ _ _ _))
      simp only [Bool.and_eq_false_iff, decide_eq_false_iff_not]
      omega
  · refine denied_of_records rfl hp fun _ _ => ?_
    by_cases ha : a < 64
    · refine (State.checked_holds _ (decide_eq_true ha) _ _ _).trans (State.checked_fails _ ?_ _ _ _)
      simp only [Bool.and_eq_false_iff, decide_eq_false_iff_not]
      omega
    · exact State.checked_fails _ (decide_eq_false ha) _ _ _
  · refine denied_of_records rfl hp fun _ _ => State.checked_fails _ ?_ _ _ _
    simp only [Bool.and_eq_false_iff, decide_eq_false_iff_not]
    omega
  · refine denied_of_records rfl hp fun _ _ => State.checked_fails _ ?_ _ _ _
    simp only [Bool.and_eq_false_iff, decide_eq_false_iff_not]
    omega
  · refine answered_of_records rfl hp (g := fun t => { t with timebases := _ }) fun port attention =>
      (workConfigureTimebase_of_field (s.facing port attention) f w g j h r).trans
        ((State.checked_holds _ (lit.mp hstate) _ _ _).trans (State.checked_holds _ ?_ _ _ _))
    simp only [Bool.and_eq_true, decide_eq_true_eq]
    omega
  · refine answered_of_records rfl hp (g := fun t => { t with lanes := _ }) fun port attention =>
      (State.checked_holds _ (decide_eq_true hmask) _ _ _).trans ((State.checked_holds _ ?_ _ _ _).trans ?_)
    · simp only [Bool.and_eq_true, decide_eq_true_eq]
      omega
    · rw [State.checked_nil, setPassTimes_eq]
      refine congrArg (State.ok _ ·) (List.map_congr_left fun l _ => ?_)
      exact congrArg Lane.passTime (look_ofFn _ l)
  · refine answered_of_records rfl hp (g := fun t => { t with readyLevel := level, issueTime := time }) fun _ _ =>
      State.checked_holds _ ?_ _ _ _
    simp only [Bool.and_eq_true, decide_eq_true_eq]
    omega
  · refine answered_of_records rfl hp (g := fun t => { t with window := window }) fun _ _ =>
      State.checked_holds _ ?_ _ _ _
    simp only [Bool.and_eq_true, decide_eq_true_eq]
    omega

end Sys2Proof.Machine
end

section
/-! PROOF. The draft of a program: BEGIN PROGRAM and ADD SEGMENT (O28). -/

namespace Sys2Proof.Machine

section
variable (s : State) (f : FieldNo)

/-- The work of BEGIN PROGRAM for a field that there is (R68). -/
theorem workBeginProgram_of_field (ns cutoffSegment cutoffFrames leadGiven lead openCues endCues : Nat) :
    workBeginProgram f ns cutoffSegment cutoffFrames leadGiven lead openCues endCues s =
      s.checked
        [((s.program f).state == .dark, .state),
         ((decide (cutoffSegment ≤ 23) || cutoffSegment == 0xFF) && decide (cutoffFrames ≤ 1048575) &&
            isFlag leadGiven && (leadGiven == 0 || decide (lead ≤ 65535)) && decide (openCues < 16) &&
            decide (endCues < 16), .badArg)]
        (State.ok
          { s with
            programs := put s.programs f
              { s.program f with
                record := .draft
                  { ns := ns
                    cutoffSegment := if cutoffSegment = 0xFF then none else some cutoffSegment
                    cutoffFrames := cutoffFrames
                    lead := if leadGiven = 1 then lead else 8640
                    openCues := BitVec.ofNat 4 openCues
                    endCues := BitVec.ofNat 4 endCues } [] } }) :=
  State.withHandle_fin s f _

theorem beginProgram_inRange {cutoffSegment cutoffFrames leadGiven lead openCues endCues : Nat} :
    ((decide (cutoffSegment ≤ 23) || cutoffSegment == 0xFF) && decide (cutoffFrames ≤ 1048575) &&
      isFlag leadGiven && (leadGiven == 0 || decide (lead ≤ 65535)) && decide (openCues < 16) &&
      decide (endCues < 16)) = true ↔
    (cutoffSegment ≤ 23 ∨ cutoffSegment = 0xFF) ∧ cutoffFrames ≤ 1048575 ∧ leadGiven ≤ 1 ∧
      (leadGiven = 1 → lead ≤ 65535) ∧ openCues < 16 ∧ endCues < 16 := by
  simp only [Bool.and_eq_true, Bool.or_eq_true, decide_eq_true_eq, beq_iff_eq]
  omega

theorem workAddSegment_of_lit (h : (s.program f).state ≠ .dark) (kind length title cues runners : Nat) :
    workAddSegment f kind length title cues runners s = s.deny .state :=
  (State.withHandle_fin s f _).trans (s.checked_fails (beq_eq_false_iff_ne.mpr h) _ _ _)

theorem workAddSegment_of_no_draft (hdark : (s.program f).state = .dark)
    (h : ∀ header segs, (s.program f).record ≠ .draft header segs) (kind length title cues runners : Nat) :
    workAddSegment f kind length title cues runners s = s.deny .state := by
  refine (State.withHandle_fin s f _).trans ((s.checked_holds (beq_iff_eq.mpr hdark) _ _ _).trans ?_)
  rw [State.checked_nil]
  split
  · exact absurd ‹_› (h _ _)
  · rfl
  · rfl

theorem workAddSegment_of_no_kind {header : Header} {segs : List Segment} (hdark : (s.program f).state = .dark)
    (h : (s.program f).record = .draft header segs) {kind : Nat} (hkind : 1 < kind) (length title cues runners : Nat) :
    workAddSegment f kind length title cues runners s = s.deny .badArg := by
  refine (State.withHandle_fin s f _).trans ((s.checked_holds (beq_iff_eq.mpr hdark) _ _ _).trans ?_)
  have hnone : segmentKindOf kind = none := by
    match kind, hkind with
    | n + 2, _ => rfl
  simp only [State.checked_nil, h, hnone]

/-- The work of ADD SEGMENT on a draft, of a kind that there is (R69). -/
theorem workAddSegment_of_draft {header : Header} {segs : List Segment} (hdark : (s.program f).state = .dark)
    (h : (s.program f).record = .draft header segs) {kind : Nat} (hkind : kind ≤ 1) (length title cues runners : Nat) :
    workAddSegment f kind length title cues runners s = s.checked
      [(within 1 1048575 length && decide (title ≤ 255) && decide (cues < 16) && isFlag runners, .badArg),
       (decide (segs.length < 24), .full)]
      (State.ok
        { s with
          programs := put s.programs f
            { s.program f with
              record := .draft header (segs ++
                [{ kind := if kind = 0 then .picture else .intermission, length := length, title := title
                   cues := BitVec.ofNat 4 cues, runners := decide (runners = 1) }]) } } [segs.length + 1]) := by
  refine (State.withHandle_fin s f _).trans ((s.checked_holds (beq_iff_eq.mpr hdark) _ _ _).trans ?_)
  have hsome : segmentKindOf kind = some (if kind = 0 then .picture else .intermission) := by
    match kind, hkind with
    | 0, _ => rfl
    | 1, _ => rfl
  simp only [State.checked_nil, h, hsome]
  rfl

theorem addSegment_inRange {length title cues runners : Nat} :
    (within 1 1048575 length && decide (title ≤ 255) && decide (cues < 16) && isFlag runners) = true ↔
      1 ≤ length ∧ length ≤ 1048575 ∧ title ≤ 255 ∧ cues < 16 ∧ runners ≤ 1 := by
  simp only [Bool.and_eq_true, decide_eq_true_eq]
  omega

end

/-- Settles O28: the checks of both commands in the order of their rules, and the draft that each writes. -/
theorem programsAreBuiltInDraft : Obligations.ProgramsAreBuiltInDraft := by
  refine ⟨fun s field ns cutoffSegment cutoffFrames leadGiven lead openCues endCues kind length title cues runners hp =>
    ⟨fun hfield => ⟨?_, ?_⟩, ?_⟩, fun s f hp hdark => ⟨fun ns cutoffSegment cutoffFrames leadGiven lead openCues endCues =>
      ⟨fun hrange => ?_, fun hrange => ?_⟩, fun header segs kind length title cues runners hdraft hkind h1 h2 h3 h4 h5 =>
      ⟨fun hfull => ?_, fun hroom => ?_⟩⟩⟩
  · exact denied_of_records rfl hp fun _ _ => State.withHandle_of_ge _ hfield _
  · exact denied_of_records rfl hp fun _ _ => State.withHandle_of_ge _ hfield _
  · rintro f rfl
    refine ⟨fun hlit => ⟨?_, ?_⟩, fun hdark hrecord => ?_, fun header segs hdark hdraft hrange => ?_⟩
    · exact denied_of_records rfl hp fun port attention =>
        (workBeginProgram_of_field (s.facing port attention) f ns cutoffSegment cutoffFrames leadGiven lead openCues
          endCues).trans (State.checked_fails _ (beq_eq_false_iff_ne.mpr hlit) _ _ _)
    · exact denied_of_records rfl hp fun port attention => workAddSegment_of_lit (s.facing port attention) f hlit ..
    · exact denied_of_records rfl hp fun port attention =>
        workAddSegment_of_no_draft (s.facing port attention) f hdark hrecord ..
    · by_cases hkind : 1 < kind
      · exact denied_of_records rfl hp fun port attention =>
          workAddSegment_of_no_kind (s.facing port attention) f hdark hdraft hkind ..
      · refine denied_of_records rfl hp fun port attention =>
          (workAddSegment_of_draft (s.facing port attention) f hdark hdraft (not_lt.mp hkind) ..).trans
            (State.checked_fails _ ?_ _ _ _)
        exact Bool.eq_false_iff.mpr fun e => by
          have := addSegment_inRange.mp e
          omega
  · exact denied_of_records rfl hp fun port attention =>
      (workBeginProgram_of_field (s.facing port attention) f ns cutoffSegment cutoffFrames leadGiven lead openCues
        endCues).trans ((State.checked_holds _ (beq_iff_eq.mpr hdark) _ _ _).trans
          (State.checked_fails _ (Bool.eq_false_iff.mpr (mt beginProgram_inRange.mp hrange)) _ _ _))
  · exact answered_of_records rfl hp (g := fun t => { t with programs := _ }) fun port attention =>
      (workBeginProgram_of_field (s.facing port attention) f ns cutoffSegment cutoffFrames leadGiven lead openCues
        endCues).trans ((State.checked_holds _ (beq_iff_eq.mpr hdark) _ _ _).trans
          (State.checked_holds _ (beginProgram_inRange.mpr hrange) _ _ _))
  · exact denied_of_records rfl hp fun port attention =>
      (workAddSegment_of_draft (s.facing port attention) f hdark hdraft hkind ..).trans
        ((State.checked_holds _ (addSegment_inRange.mpr ⟨h1, h2, h3, h4, h5⟩) _ _ _).trans
          (State.checked_fails _ (decide_eq_false hfull.not_gt) _ _ _))
  · exact answered_of_records rfl hp (g := fun t => { t with programs := _ }) fun port attention =>
      (workAddSegment_of_draft (s.facing port attention) f hdark hdraft hkind ..).trans
        ((State.checked_holds _ (addSegment_inRange.mpr ⟨h1, h2, h3, h4, h5⟩) _ _ _).trans
          (State.checked_holds _ (decide_eq_true hroom) _ _ _))

end Sys2Proof.Machine
end

section
/-! PROOF. Rows of single inputs: the carrier (O33), the loops by lane state (O35); the editing of an entry (O40). -/

namespace Sys2Proof.Machine

variable {s : State}

/-! ### The carrier (R81) -/

/-- Settles O33: a fall of CAROKn by the carrier's level before it and TXENn. -/
theorem carrierIsWatchedWhileTransmitting : Obligations.CarrierIsWatchedWhileTransmitting := by
  intro s f level
  have loses : exec (.carrierLoss f) s = .next (s.loseCarrier f) := rfl
  refine ⟨rfl, fun hlow => ?_, fun hhigh hoff => ?_, fun hhigh hon => ?_⟩ <;> rw [loses, State.loseCarrier] <;> dsimp only
  · rw [if_neg (by simp [hlow])]
  · rw [if_pos hhigh, if_neg (by simp [hoff])]
    rfl
  · rw [if_pos hhigh, if_pos hon]
    rfl

/-! ### The loops (R45, R47, R53) -/

/-- Of two writes of one lane the second stands. -/
theorem State.setLane_setLane (s : State) (l : LaneNo) (x y : Lane) : (s.setLane l x).setLane l y = s.setLane l y :=
  congrArg (fun v => ({ s with lanes := v } : State)) (put_put s.lanes l x y)

theorem LoopLevel.ne_occupied {level : LoopLevel} (h : level = .clear) : ¬ (level == .occupied) = true := by
  subst h
  decide

theorem LoopLevel.ne_clear {level : LoopLevel} (h : level = .occupied) : ¬ (level == .clear) = true := by
  subst h
  decide

theorem rawChange_eq (x : LoopInput) (level : LoopLevel) : x.rawChange level =
    if x.raw = level then x else { x with raw := level, filter := if x.level = level then none else some 50 } := by
  simp only [LoopInput.rawChange, beq_iff_eq]

/-- Settles O35: each event by the loop's level and the lane's state. -/
theorem loopEventsByLaneState : Obligations.LoopEventsByLaneState := by
  intro s l awake x with' raw up down
  have arrives (h : awake) : exec (.arrivalOccupied l) s = .next (s.arrivalOccupied l) :=
    congrArg Host.Outcome.next (if_neg (mt beq_iff_eq.mp h))
  have passes (h : awake) : exec (.passOccupied l) s = .next (s.passOccupied l) :=
    congrArg Host.Outcome.next (if_neg (mt beq_iff_eq.mp h))
  have clears : exec (.arrivalCleared l) s = .next (s.arrivalCleared l) := rfl
  have ends : exec (.passCleared l) s = .next (s.passCleared l) := rfl
  have hlane (y : Lane) : (s.setLane l y).lane l = y := State.lane_setLane_self s l y
  refine ⟨fun level => ⟨?_, ?_⟩, fun h => ?_, fun h => ⟨?_, ?_⟩, fun hawake hlevel hstate => ?_, fun hawake hlevel hstate => ?_,
    fun h => ?_, fun hlevel hstate => ?_, fun hlevel hstate => ?_, fun h => ?_, fun hawake hlevel hstate => ?_,
    fun hawake hlevel hstate => ?_, fun h => ?_, fun hlevel hstate => ?_⟩
  · exact congrArg (fun y => Host.Outcome.next (with' { x with arrival := y })) (rawChange_eq x.arrival level)
  · exact congrArg (fun y => Host.Outcome.next (with' { x with pass := y })) (rawChange_eq x.pass level)
  · have hstays : s.arrivalOccupied l = s := if_pos (beq_iff_eq.mpr h)
    by_cases hawake : awake
    · rw [arrives hawake, hstays]
    · exact congrArg Host.Outcome.next (if_pos (beq_iff_eq.mpr (not_not.mp hawake)))
  · exact congrArg Host.Outcome.next (if_pos (beq_iff_eq.mpr h))
  · exact congrArg Host.Outcome.next (if_pos (beq_iff_eq.mpr h))
  · rw [arrives hawake, State.arrivalOccupied, if_neg (LoopLevel.ne_occupied hlevel)]
    dsimp only
    rw [if_pos (beq_iff_eq.mpr hstate), State.laneWaits, State.setArrival, hlane, State.setLane_setLane]
    rfl
  · rw [arrives hawake, State.arrivalOccupied, if_neg (LoopLevel.ne_occupied hlevel)]
    dsimp only
    rw [if_neg (mt beq_iff_eq.mp hstate)]
    rfl
  · exact congrArg Host.Outcome.next (if_pos (beq_iff_eq.mpr h))
  · rw [clears, State.arrivalCleared, if_neg (LoopLevel.ne_clear hlevel)]
    simp only [show (s.lane l).state = .waiting from hstate, State.setArrival, hlane, State.setLane_setLane]
    rfl
  · rw [clears, State.arrivalCleared, if_neg (LoopLevel.ne_clear hlevel)]
    have stays (hrefused : x.state ≠ .refused) : with' { x with arrival := down } =
        with' { x with arrival := down, state := if x.state = .refused then .idle else x.state } := by
      rw [if_neg hrefused]
    cases hs : x.state with
    | waiting => exact absurd hs hstate
    | refused =>
      simp only [show (s.lane l).state = .refused from hs, State.setArrival, hlane, State.setLane_setLane, if_true]
      rfl
    | idle =>
      dsimp only
      exact congrArg Host.Outcome.next (hs ▸ stays (by simp [hs]))
    | opened =>
      dsimp only
      exact congrArg Host.Outcome.next (hs ▸ stays (by simp [hs]))
  · have hstays : s.passOccupied l = s := if_pos (beq_iff_eq.mpr h)
    by_cases hawake : awake
    · rw [passes hawake, hstays]
    · exact congrArg Host.Outcome.next (if_pos (beq_iff_eq.mpr (not_not.mp hawake)))
  · rw [passes hawake, State.passOccupied, if_neg (LoopLevel.ne_occupied hlevel)]
    dsimp only
    rw [if_pos (beq_iff_eq.mpr hstate), State.setPass, hlane, State.setLane_setLane]
    rfl
  · rw [passes hawake, State.passOccupied, if_neg (LoopLevel.ne_occupied hlevel)]
    dsimp only
    rw [if_neg (mt beq_iff_eq.mp hstate)]
    rfl
  · exact congrArg Host.Outcome.next (if_pos (beq_iff_eq.mpr h))
  · rw [ends, State.passCleared, if_neg (LoopLevel.ne_clear hlevel)]
    dsimp only
    rw [if_neg]
    · rfl
    · simp only [Bool.and_eq_true, beq_iff_eq, not_and_or, Bool.not_eq_true]
      exact hstate

/-! ### Amendments (R24, R35) -/

theorem platePosOf_eq_none_iff {n : Nat} : platePosOf n = none ↔ 38 < n := by
  unfold platePosOf
  split
  · simp
    omega
  · split
    · simp
      omega
    · split
      · simp
        omega
      · simp
        omega

theorem mapM_platePosOf_eq_none_iff {codes : List Nat} : codes.mapM platePosOf = none ↔ ∃ code ∈ codes, 38 < code := by
  induction codes with
  | nil => simp
  | cons code rest ih =>
    rw [List.mapM_cons, List.exists_mem_cons_iff, ← ih, ← platePosOf_eq_none_iff]
    cases platePosOf code <;> cases rest.mapM platePosOf <;> simp

theorem plateOf_eq_none_iff {codes : List Nat} : plateOf codes = none ↔ codes.length ≠ 8 ∨ ∃ code ∈ codes, 38 < code := by
  unfold plateOf
  split
  · rename_i h
    simp [h, mapM_platePosOf_eq_none_iff]
  · rename_i h
    simp [h]

theorem classOf_eq_none_iff {n : Nat} : classOf n = none ↔ 2 < n := by
  match n with
  | 0 => decide
  | 1 => decide
  | 2 => decide
  | n + 3 => simp [classOf]

theorem flaggedItem_eq_none_iff {α : Type} {flagged : Bool} {value : Option α} :
    flaggedItem flagged value = none ↔ flagged = true ∧ value = none := by
  cases flagged <;> simp [flaggedItem]

/-- The items of AMEND ENTRY are refused where a flag is undefined or a flagged item out of its range (R35). -/
theorem amendment_eq_none_iff {flags : Nat} {codes : List Nat} {cls party : Nat} :
    amendment? flags codes cls party = none ↔ 8 ≤ flags ∨
      (flags.testBit 0 = true ∧ (codes.length ≠ 8 ∨ ∃ code ∈ codes, 38 < code)) ∨
      (flags.testBit 1 = true ∧ 2 < cls) ∨ (flags.testBit 2 = true ∧ (party = 0 ∨ 15 < party)) := by
  have hparty : (if within 1 15 party then some party else none) = none ↔ party = 0 ∨ 15 < party := by
    simp
    omega
  rw [← plateOf_eq_none_iff, ← classOf_eq_none_iff, ← hparty, ← flaggedItem_eq_none_iff, ← flaggedItem_eq_none_iff,
    ← flaggedItem_eq_none_iff]
  unfold amendment?
  cases flaggedItem (maskBit flags 0) (plateOf codes) <;> cases flaggedItem (maskBit flags 1) (classOf cls) <;>
    cases flaggedItem (maskBit flags 2) (if within 1 15 party then some party else none) <;> simp

/-- The items of AMEND ENTRY in their ranges (R35). -/
theorem amendment_eq_some {flags : Nat} {codes : List Nat} {cls party : Nat} {plate : List PlatePos} {k : StallClass}
    (hflags : flags < 8) (hplate : flags.testBit 0 = true → plateOf codes = some plate)
    (hcls : flags.testBit 1 = true → classOf cls = some k)
    (hparty : flags.testBit 2 = true → 1 ≤ party ∧ party ≤ 15) :
    amendment? flags codes cls party = some
      { plate := if flags.testBit 0 then some plate else none
        cls := if flags.testBit 1 then some k else none
        party := if flags.testBit 2 then some party else none } := by
  have item {α : Type} {flagged : Bool} {value : Option α} {x : α} (h : flagged = true → value = some x) :
      flaggedItem flagged value = some (if flagged then some x else none) := by
    cases flagged with
    | false => rfl
    | true => simp [flaggedItem, h]
  have hvalue (h : flags.testBit 2 = true) : (if within 1 15 party then some party else none) = some party := by
    simp [hparty h]
  simp only [amendment?, maskBit, item hplate, item hcls, item hvalue, if_pos hflags]

/-! ### The edited entry (R30, R35, R36) -/

section
variable {s : State} {h : CarHandle} {c : Car}

theorem State.withCar_of_none (s : State) {h : CarHandle} (hcar : s.car h = none) (work : Car → Answer) :
    s.withCar h work = s.deny .state := by
  simp only [State.withCar, hcar]

theorem State.withCar_of_some (s : State) {h : CarHandle} {c : Car} (hcar : s.car h = some c) (work : Car → Answer) :
    s.withCar h work = work c := by
  simp only [State.withCar, hcar]

theorem workHoldEntry_of_car (s : State) {h : CarHandle} {c : Car} (hcar : s.car h = some c) : workHoldEntry h s =
    s.checked [(c.state == .present, .state), (!c.held, .editing)]
      ((s.setCar h (some { c with held := true })).ok ((s.setCar h (some { c with held := true })).entryRecord h)) :=
  (State.withHandle_fin s h _).trans (s.withCar_of_some hcar _)

theorem workReleaseEntry_of_car (s : State) {h : CarHandle} {c : Car} (hcar : s.car h = some c) : workReleaseEntry h s =
    s.checked [(c.held, .state)] ((s.setCar h (some { c with held := false })).ok) :=
  (State.withHandle_fin s h _).trans (s.withCar_of_some hcar _)

theorem workAmendEntry_of_car (s : State) {h : CarHandle} {c : Car} (hcar : s.car h = some c) {flags : Nat} {codes : List Nat}
    {cls party : Nat} {x : Amendment} (hx : amendment? flags codes cls party = some x) :
    workAmendEntry h flags codes cls party s =
      s.checked [(c.held, .state), (x.cls.all (fun k => (s.unit c.field).fits k c.stall), .badStall)]
        ((s.setCar h (some (x.apply c))).ok ((s.setCar h (some (x.apply c))).entryRecord h)) := by
  simp only [workAmendEntry, hx, handle?_of_lt h.isLt]
  exact s.withCar_of_some hcar _

end

/-- A command that answers with a record of the state it leaves. -/
theorem answered_with_record {s : State} {i : Instr} (hi : i.isFrame = true) (hp : PortFree s) {g : State → State}
    {record : State → List Nat} (h : ∀ port attention, workOf i (s.facing port attention) =
      (g (s.facing port attention)).ok (record (g (s.facing port attention)))) :
    exec i s = .next ((g (s.atWork i)).answered .ok (record (g (s.atWork i)))) := by
  obtain ⟨port, attention, e⟩ := s.atWork_shape i
  refine exec_of_work_eq_ok hi hp ?_
  rw [e]
  exact h port attention

theorem Amendment.apply_flagged (flags : Nat) (plate : List PlatePos) (k : StallClass) (party : Nat) (c : Car) :
    ({ plate := if flags.testBit 0 then some plate else none
       cls := if flags.testBit 1 then some k else none
       party := if flags.testBit 2 then some party else none } : Amendment).apply c =
      { c with
        plate := if flags.testBit 0 then (if plate.all (· == .unread) then none else some plate) else c.plate
        cls := if flags.testBit 1 then k else c.cls
        party := if flags.testBit 2 then party else c.party } := by
  unfold Amendment.apply
  cases flags.testBit 0 <;> cases flags.testBit 1 <;> cases flags.testBit 2 <;> rfl

/-- A handle in its range with no live entry. -/
theorem exists_vacant {s : State} {car : Nat} (hcar : car < 1024) (hvacant : ∀ h : CarHandle, h.val = car → s.car h = none) :
    ∃ h : CarHandle, h.val = car ∧ s.car h = none := ⟨⟨car, hcar⟩, rfl, hvacant _ rfl⟩

/-- Settles O40: each command by its checks, in the order of its rule, and the one write of the entry. -/
theorem heldEntriesAreEdited : Obligations.HeldEntriesAreEdited := by
  refine ⟨fun s car hp => ⟨fun hcar => ⟨?_, ?_⟩, fun hcar hvacant => ?_, fun flags codes cls party =>
    ⟨fun hrange => ?_, fun hcar hvacant hrange => ?_⟩⟩, fun s h c hp hcar => ⟨⟨fun hstate => ?_, fun hstate hheld => ?_,
    fun hstate hheld => ?_⟩, ⟨fun hheld => ?_, fun hheld => ?_⟩, fun flags codes cls party plate k hflags hplate hcls hparty =>
    ⟨fun hheld => ?_, fun hheld hflag hfits => ?_, fun hheld hfits => ?_⟩⟩⟩
  · exact denied_of_records rfl hp fun _ _ => State.withHandle_of_ge _ hcar _
  · exact denied_of_records rfl hp fun _ _ => State.withHandle_of_ge _ hcar _
  · obtain ⟨h, rfl, hnone⟩ := exists_vacant hcar hvacant
    exact ⟨denied_of_records rfl hp fun port attention =>
        (State.withHandle_fin _ h _).trans ((s.facing port attention).withCar_of_none hnone _),
      denied_of_records rfl hp fun port attention =>
        (State.withHandle_fin _ h _).trans ((s.facing port attention).withCar_of_none hnone _)⟩
  · refine denied_of_records rfl hp fun port attention => show workAmendEntry _ _ _ _ _ _ = _ from ?_
    unfold workAmendEntry
    rcases hrange with hcar | hrange
    · rw [handle?_of_ge hcar]
    · rw [amendment_eq_none_iff.mpr hrange]
      cases handle? 1024 car <;> rfl
  · obtain ⟨h, rfl, hnone⟩ := exists_vacant hcar hvacant
    refine denied_of_records rfl hp fun port attention => show workAmendEntry _ _ _ _ _ _ = _ from ?_
    unfold workAmendEntry
    obtain ⟨x, hx⟩ := Option.ne_none_iff_exists'.mp (mt amendment_eq_none_iff.mp hrange)
    simp only [handle?_of_lt h.isLt, hx]
    exact (s.facing port attention).withCar_of_none hnone _
  · exact denied_of_records rfl hp fun port attention => (workHoldEntry_of_car (s.facing port attention) hcar).trans
      (State.checked_fails _ (beq_eq_false_iff_ne.mpr hstate) _ _ _)
  · exact denied_of_records rfl hp fun port attention => (workHoldEntry_of_car (s.facing port attention) hcar).trans
      ((State.checked_holds _ (beq_iff_eq.mpr hstate) _ _ _).trans (State.checked_fails _ (by simp [hheld]) _ _ _))
  · exact answered_with_record rfl hp (g := fun t => { t with entries := _ }) (record := fun t => t.entryRecord h)
      fun port attention => (workHoldEntry_of_car (s.facing port attention) hcar).trans
        ((State.checked_holds _ (beq_iff_eq.mpr hstate) _ _ _).trans (State.checked_holds _ (by simp [hheld]) _ _ _))
  · exact denied_of_records rfl hp fun port attention => (workReleaseEntry_of_car (s.facing port attention) hcar).trans
      (State.checked_fails _ hheld _ _ _)
  · exact answered_of_records rfl hp (g := fun t => { t with entries := _ }) fun port attention =>
      (workReleaseEntry_of_car (s.facing port attention) hcar).trans (State.checked_holds _ hheld _ _ _)
  all_goals
    have hx := amendment_eq_some hflags hplate hcls hparty
    have hwork (port : Port) (attention : Attention) := workAmendEntry_of_car (s.facing port attention) hcar hx
  · exact denied_of_records rfl hp fun port attention => (hwork port attention).trans (State.checked_fails _ hheld _ _ _)
  · refine denied_of_records rfl hp fun port attention => (hwork port attention).trans
      ((State.checked_holds _ hheld _ _ _).trans (State.checked_fails _ ?_ _ _ _))
    rw [if_pos hflag]
    exact hfits
  · refine answered_with_record rfl hp (g := fun t => { t with entries := _ }) (record := fun t => t.entryRecord h)
      fun port attention => (hwork port attention).trans
        ((State.checked_holds _ hheld _ _ _).trans ((State.checked_holds _ ?_ _ _ _).trans ?_))
    · cases hflag : flags.testBit 1 with
      | false => rfl
      | true => exact hfits hflag
    · rw [Amendment.apply_flagged]
      rfl

end Sys2Proof.Machine
end

section
/-! PROOF. Lookups in the lot register: by ticket and by stall (O14), by plate (O15). -/

namespace Sys2Proof.Machine

variable {s : State}

/-! ### The entries that a lookup finds -/

theorem mem_findable (s : State) (p : Car → Bool) (h : CarHandle) (c : Car) :
    (h, c) ∈ s.findable p ↔ s.car h = some c ∧ c.held = false ∧ p c = true := by
  unfold State.findable
  rw [List.mem_filterMap]
  constructor
  · rintro ⟨k, -, hk⟩
    split at hk
    · cases hk
    · rename_i c' hcar
      split at hk
      · rename_i hp
        cases hk
        simp only [Bool.and_eq_true, Bool.not_eq_true'] at hp
        exact ⟨hcar, hp⟩
      · cases hk
  · rintro ⟨hcar, hheld, hp⟩
    exact ⟨h, List.mem_finRange h, by simp [hcar, hheld, hp]⟩

/-- They are found in handle order. -/
theorem findable_pairwise (s : State) (p : Car → Bool) : (s.findable p).Pairwise fun x y => x.1 < y.1 := by
  unfold State.findable
  refine List.Pairwise.filterMap _ ?_ (List.pairwise_lt_finRange 1024)
  intro h h' hlt x hx y hy
  have fst {k : CarHandle} {z : CarHandle × Car} (hz : z ∈ (match s.car k with
      | none => none
      | some c => if !c.held && p c then some (k, c) else none)) : z.1 = k := by
    split at hz
    · cases hz
    · split at hz
      · cases hz
        rfl
      · cases hz
  rw [fst hx, fst hy]
  exact hlt

/-- An item that no other of a sorted list stands before is its first. -/
theorem head?_eq_some_of_first {α : Type} {R : α → α → Prop} {l : List α} (hl : l.Pairwise R) {x : α} (hx : x ∈ l)
    (hfirst : ∀ y ∈ l, ¬ R y x) : l.head? = some x := by
  cases l with
  | nil => cases hx
  | cons y rest =>
    rcases List.mem_cons.mp hx with rfl | hx
    · rfl
    · exact absurd (List.rel_of_pairwise_cons hl hx) (hfirst y List.mem_cons_self)

/-! ### LOOKUP TICKET and LOOKUP STALL (R26, R27) -/

theorem workLookupTicket_found (s : State) {ticket : Nat} {h : CarHandle} {c : Car} (hticket : ticket ≠ 0)
    (hcar : s.car h = some c) (hc : c.ticket = ticket) (hheld : c.held = false)
    (hbelow : ∀ h' c', h' < h → s.car h' = some c' → c'.ticket = ticket → c'.held = true) :
    workLookupTicket ticket s = s.ok (be2 h.val ++ [carStateCode c.state, c.field.val, c.stall.row, c.stall.post]) := by
  have hhead : (s.findable fun c => c.ticket == ticket).head? = some (h, c) := by
    refine head?_eq_some_of_first (findable_pairwise s _) ((mem_findable s _ h c).mpr ⟨hcar, hheld, beq_iff_eq.mpr hc⟩) ?_
    rintro ⟨h', c'⟩ hmem hlt
    obtain ⟨hcar', hheld', hp⟩ := (mem_findable s _ h' c').mp hmem
    rw [hbelow h' c' hlt hcar' (beq_iff_eq.mp hp)] at hheld'
    cases hheld'
  refine (s.checked_holds (by simpa using hticket) _ _ _).trans ?_
  rw [State.checked_nil]
  simp only [hhead]

theorem workLookupTicket_none (s : State) {ticket : Nat} (hticket : ticket ≠ 0)
    (hnone : ∀ h c, s.car h = some c → c.ticket = ticket → c.held = true) :
    workLookupTicket ticket s = s.deny .notFound := by
  have hempty : s.findable (fun c => c.ticket == ticket) = [] := by
    rw [List.eq_nil_iff_forall_not_mem]
    rintro ⟨h, c⟩ hmem
    obtain ⟨hcar, hheld, hp⟩ := (mem_findable s _ h c).mp hmem
    rw [hnone h c hcar (beq_iff_eq.mp hp)] at hheld
    cases hheld
  refine (s.checked_holds (by simpa using hticket) _ _ _).trans ?_
  rw [State.checked_nil]
  simp only [hempty, List.head?_nil]

theorem stallOf_eq_none {row post : Nat} (h : row = 0 ∨ 16 < row ∨ post = 0 ∨ 32 < post) : stallOf row post = none := by
  rw [← Option.not_isSome_iff_eq_none, Option.isSome_iff_exists]
  rintro ⟨st, hst⟩
  obtain ⟨hrow, hpost⟩ := stallOf_eq_some_iff.mp hst
  have hr := st.rowIx.isLt
  have hp := st.postIx.isLt
  simp only [Stall.row, Stall.post] at hrow hpost
  omega

theorem workLookupStall_of_out_of_range (s : State) {field row post : Nat}
    (h : 4 ≤ field ∨ row = 0 ∨ 16 < row ∨ post = 0 ∨ 32 < post) : workLookupStall field row post s = s.deny .badArg := by
  unfold workLookupStall
  rcases h with h | h
  · rw [handle?_of_ge h]
  · rw [stallOf_eq_none h]
    cases handle? 4 field <;> rfl

theorem stallOf_self (st : Stall) : stallOf st.row st.post = some st := stallOf_eq_some_iff.mpr ⟨rfl, rfl⟩

theorem parkedAt_eq_some_iff (u : FieldUnit) (st : Stall) (h : CarHandle) : u.parkedAt st = some h ↔
    u.rows ≠ 0 ∧ st.row ≤ u.rows ∧ st.post ≤ u.posts ∧ u.at st = some h := by
  unfold FieldUnit.parkedAt
  split
  · rename_i hin
    simp only [FieldUnit.configured, FieldUnit.has, Bool.and_eq_true, bne_iff_ne, decide_eq_true_eq] at hin
    simp [hin]
  · rename_i hout
    simp only [FieldUnit.configured, FieldUnit.has, Bool.and_eq_true, bne_iff_ne, decide_eq_true_eq] at hout
    simp only [reduceCtorEq, false_iff]
    rintro ⟨h1, h2, h3, -⟩
    exact hout ⟨h1, h2, h3⟩

/-- LOOKUP STALL of a stall that an entry, not held, stands in (R27). -/
theorem workLookupStall_found (s : State) {f : FieldNo} {st : Stall} {h : CarHandle} {c : Car}
    (hparked : (s.unit f).parkedAt st = some h) (hcar : s.car h = some c) (hheld : c.held = false) :
    workLookupStall f st.row st.post s = s.ok (be2 h.val ++ [carStateCode c.state, classCode c.cls] ++ be4 c.ticket) := by
  simp only [workLookupStall, handle?_of_lt f.isLt, stallOf_self, hparked, hcar, hheld, Bool.false_eq_true, if_false]

theorem workLookupStall_none (s : State) {f : FieldNo} {st : Stall}
    (hnone : ∀ h c, (s.unit f).parkedAt st = some h → s.car h = some c → c.held = true) :
    workLookupStall f st.row st.post s = s.deny .notFound := by
  simp only [workLookupStall, handle?_of_lt f.isLt, stallOf_self, Fin.eta]
  cases hparked : (s.unit f).parkedAt st with
  | none => rfl
  | some h =>
    cases hcar : s.car h with
    | none => simp only [hcar]
    | some c => simp only [hcar, hnone h c hparked hcar, if_true]

/-- Settles O14: the first entry found in handle order, and the entry in the named stall. -/
theorem lookupsByTicketAndStall : Obligations.LookupsByTicketAndStall := by
  intro s hp
  refine ⟨fun ticket h c hticket hcar hc hheld hbelow => ?_, fun ticket hticket hnone => ?_, ?_, fun field row post h => ?_,
    fun f st => ⟨fun h c hrows hrow hpost hat hcar hheld => ?_, fun hnone => ?_⟩⟩
  · refine read_of_records rfl hp fun port attention => ?_
    exact workLookupTicket_found (s.facing port attention) (ticket := ticket) hticket (h := h) (c := c) hcar hc hheld hbelow
  · exact denied_of_records rfl hp fun port attention => workLookupTicket_none (s.facing port attention)
      (ticket := ticket) hticket hnone
  · exact denied_of_records rfl hp fun _ _ => rfl
  · exact denied_of_records rfl hp fun _ _ => workLookupStall_of_out_of_range _ h
  · refine read_of_records rfl hp fun port attention => ?_
    exact workLookupStall_found (s.facing port attention)
      ((parkedAt_eq_some_iff (s.unit f) st h).mpr ⟨hrows, hrow, hpost, hat⟩) (h := h) (c := c) hcar hheld
  · refine denied_of_records rfl hp fun port attention => workLookupStall_none (s.facing port attention) fun h c hparked hcar => ?_
    obtain ⟨h1, h2, h3, h4⟩ := (parkedAt_eq_some_iff (s.unit f) st h).mp hparked
    rcases hnone with e | e | e | e | ⟨k, c', hat, hcar', hheld⟩
    · exact absurd e h1
    · exact absurd h2 e.not_ge
    · exact absurd h3 e.not_ge
    · rw [e] at h4
      cases h4
    · have hk : k = h := Option.some.inj (hat.symm.trans h4)
      have hc : c' = c := Option.some.inj (hcar'.symm.trans (hk ▸ hcar))
      exact hc ▸ hheld

/-! ### LOOKUP PLATE (R28, R29) -/

/-- Ranked, items stand in ascending rank, and those of one rank in the order they had. -/
def Ranked {α : Type} (rank : α → Nat) (R : α → α → Prop) (x y : α) : Prop :=
  rank x < rank y ∨ (rank x = rank y ∧ R x y)

theorem insertByRank_pairwise {α : Type} {rank : α → Nat} {R : α → α → Prop} {x : α} {xs : List α}
    (hxs : xs.Pairwise (Ranked rank R)) (hlast : ∀ y ∈ xs, R y x) : (insertByRank rank x xs).Pairwise (Ranked rank R) := by
  induction xs with
  | nil => exact List.pairwise_singleton _ _
  | cons y rest ih =>
    obtain ⟨hy, hrest⟩ := List.pairwise_cons.mp hxs
    unfold insertByRank
    split
    · rename_i hle
      refine List.pairwise_cons.mpr ⟨fun z hz => ?_, ih hrest fun z hz => hlast z (List.mem_cons_of_mem _ hz)⟩
      rcases List.mem_cons.mp ((insertByRank_perm rank x rest).mem_iff.mp hz) with rfl | hz
      · rcases Nat.lt_or_eq_of_le hle with hlt | heq
        · exact .inl hlt
        · exact .inr ⟨heq, hlast y List.mem_cons_self⟩
      · exact hy z hz
    · rename_i hlt
      refine List.pairwise_cons.mpr ⟨fun z hz => .inl ?_, hxs⟩
      rcases List.mem_cons.mp hz with rfl | hz
      · exact not_le.mp hlt
      · have := hy z hz
        unfold Ranked at this
        omega

/-- A list sorted by rank keeps the order of what it ranks equal. -/
theorem sortByRank_pairwise {α : Type} (rank : α → Nat) {R : α → α → Prop} {xs : List α} (hxs : xs.Pairwise R) :
    (sortByRank rank xs).Pairwise (Ranked rank R) := by
  have walk (acc : List α) (hacc : acc.Pairwise (Ranked rank R)) (hbefore : ∀ y ∈ acc, ∀ x ∈ xs, R y x) :
      (xs.foldl (fun acc x => insertByRank rank x acc) acc).Pairwise (Ranked rank R) := by
    induction xs generalizing acc with
    | nil => exact hacc
    | cons x rest ih =>
      obtain ⟨hx, hrest⟩ := List.pairwise_cons.mp hxs
      refine ih hrest _ (insertByRank_pairwise hacc fun y hy => hbefore y hy x List.mem_cons_self) fun y hy z hz => ?_
      rcases List.mem_cons.mp ((insertByRank_perm rank x acc).mem_iff.mp hy) with rfl | hy
      · exact hx z hz
      · exact hbefore y hy z (List.mem_cons_of_mem _ hz)
  exact walk [] List.Pairwise.nil fun y hy => nomatch hy

theorem platePosOf_ne_unread {n : Nat} {p : PlatePos} (h : platePosOf n = some p) : (p != .unread) = decide (n < 38) := by
  unfold platePosOf at h
  split at h
  · cases h
    rw [decide_eq_true (by omega)]
    rfl
  · split at h
    · cases h
      rw [decide_eq_true (by omega)]
      rfl
    · split at h
      · cases h
        rw [decide_eq_false (by omega)]
        rfl
      · cases h

theorem mapM_platePosOf_spec {codes : List Nat} {query : List PlatePos} (h : codes.mapM platePosOf = some query) :
    query.length = codes.length ∧ query.countP (· != .unread) = codes.countP (· < 38) := by
  induction codes generalizing query with
  | nil =>
    cases h
    exact ⟨rfl, rfl⟩
  | cons code rest ih =>
    simp only [List.mapM_cons, Option.bind_eq_bind, Option.bind_eq_some_iff, Option.pure_def, Option.some.injEq] at h
    obtain ⟨p, hp, ps, hps, rfl⟩ := h
    obtain ⟨hlength, hcount⟩ := ih hps
    exact ⟨congrArg (· + 1) hlength, by rw [List.countP_cons, List.countP_cons, hcount, platePosOf_ne_unread hp]⟩

theorem plateOf_spec {codes : List Nat} {query : List PlatePos} (h : plateOf codes = some query) :
    query.length = 8 ∧ query.countP (· != .unread) = codes.countP (· < 38) := by
  unfold plateOf at h
  split at h
  · obtain ⟨hlength, hcount⟩ := mapM_platePosOf_spec h
    exact ⟨hlength.trans ‹_›, hcount⟩
  · cases h

theorem compared_eq (c : Car) (query : List PlatePos) : c.compared query = comparedCount query (c.plate.getD []) := by
  unfold Car.compared
  cases c.plate with
  | none => simp [comparedCount]
  | some plate => rfl

theorem compared_le (c : Car) {query : List PlatePos} (h : query.length = 8) : c.compared query ≤ 8 := by
  rw [compared_eq, comparedCount]
  refine List.countP_le_length.trans ?_
  rw [List.length_zip]
  omega

/-- A plate that matches a query (R28). -/
theorem plateMatches_iff (query plate : List PlatePos) : plateMatches query plate = true ↔
    4 ≤ comparedCount query plate ∧ ∀ pr ∈ query.zip plate, pr.1 ≠ .unread → pr.2 ≠ .unread → pr.1 = pr.2 := by
  simp only [plateMatches, Bool.and_eq_true, decide_eq_true_eq, List.all_eq_true, Bool.or_eq_true, Bool.not_eq_true',
    beq_iff_eq, isCompared, Bool.and_eq_false_iff, bne_eq_false_iff_eq]
  refine and_congr_right fun _ => forall₂_congr fun pr _ => ?_
  tauto

theorem mem_plateRanking (s : State) (query : List PlatePos) (h : CarHandle) (c : Car) :
    (h, c) ∈ s.plateRanking query ↔ s.car h = some c ∧ c.held = false ∧ c.plate.any (plateMatches query) = true := by
  rw [State.plateRanking, (sortByRank_perm _ _).mem_iff, (sortByRank_perm _ _).mem_iff, mem_findable]

/-- The ranking: larger compared count, then smaller serial, then smaller handle (R29). -/
theorem plateRanking_pairwise (s : State) {query : List PlatePos} (hquery : query.length = 8) :
    (s.plateRanking query).Pairwise fun x y => y.2.compared query < x.2.compared query ∨
      (x.2.compared query = y.2.compared query ∧ (x.2.serial < y.2.serial ∨ (x.2.serial = y.2.serial ∧ x.1 < y.1))) := by
  have hranked := sortByRank_pairwise (fun x : CarHandle × Car => 8 - x.2.compared query)
    (sortByRank_pairwise (fun x : CarHandle × Car => x.2.serial)
      (findable_pairwise s fun c => c.plate.any (plateMatches query)))
  refine hranked.imp fun {x y} h => ?_
  have hx := compared_le x.2 hquery
  have hy := compared_le y.2 hquery
  unfold Ranked at h
  dsimp only at h
  rcases h with h | ⟨h, h'⟩
  · exact .inl (by omega)
  · exact .inr ⟨by omega, h'⟩

theorem workLookupPlate_of_query (s : State) {codes : List Nat} {query : List PlatePos} (h : plateOf codes = some query)
    (hcount : 4 ≤ query.countP (· != .unread)) : workLookupPlate codes s =
      if s.plateRanking query = [] then ⟨s, .notFound, [0]⟩ else s.ok (plateReply query (s.plateRanking query)) := by
  simp only [workLookupPlate, h]
  refine (s.checked_holds (decide_eq_true hcount) _ _ _).trans ?_
  rw [State.checked_nil]
  simp only [List.isEmpty_iff]

/-- Settles O15: the two sorts rank the entries found, each keeping the order of what it ranks equal. -/
theorem lookupByPlateRanksTheMatches : Obligations.LookupByPlateRanksTheMatches := by
  refine ⟨fun s codes hp hrange => ?_, ?_⟩
  · refine denied_of_records rfl hp fun port attention => show workLookupPlate _ _ = _ from ?_
    cases hquery : plateOf codes with
    | none => simp only [workLookupPlate, hquery]
    | some query =>
      have hfew : ¬ 4 ≤ query.countP (· != .unread) := by
        rcases hrange with h | h | h
        · exact absurd (plateOf_eq_none_iff.mpr (.inl h)) (by simp [hquery])
        · exact absurd (plateOf_eq_none_iff.mpr (.inr h)) (by simp [hquery])
        · rw [(plateOf_spec hquery).2]
          omega
      simp only [workLookupPlate, hquery]
      exact State.checked_fails _ (decide_eq_false hfew) _ _ _
  · intro s codes query hp hquery hcount i compared matching count
    have hcompared (c : Car) : count c = c.compared query := (compared_eq c query).symm
    refine ⟨s.plateRanking query, fun h c => ?_, ?_, ?_⟩
    · rw [mem_plateRanking]
      refine and_congr_right fun _ => ?_
      rw [Option.any_eq_true]
      constructor
      · rintro ⟨hheld, plate, hplate, hm⟩
        obtain ⟨hfour, hequal⟩ := (plateMatches_iff query plate).mp hm
        exact ⟨plate, hheld, hplate, hfour, hequal⟩
      · rintro ⟨plate, hheld, hplate, hfour, hequal⟩
        exact ⟨hheld, plate, hplate, (plateMatches_iff query plate).mpr ⟨hfour, hequal⟩⟩
    · simpa only [hcompared] using plateRanking_pairwise s (plateOf_spec hquery).1
    · obtain ⟨port, attention, e⟩ := s.atWork_shape i
      have hranking : (s.atWork i).plateRanking query = s.plateRanking query := by
        rw [e]
        rfl
      have hw : workOf i (s.atWork i) = workLookupPlate codes (s.atWork i) := rfl
      rw [exec_free i rfl hp, hw, workLookupPlate_of_query _ hquery hcount, hranking]
      simp only [hcompared]
      by_cases hempty : s.plateRanking query = []
      · rw [if_pos hempty, if_pos hempty]
        rfl
      · rw [if_neg hempty, if_neg hempty, Answer.complete_ok, plateReply, List.singleton_append]

end Sys2Proof.Machine
end

section
/-! PROOF. The stall that a request gets (O21): the order of each class as a sorted list, and its first candidate. -/

namespace Sys2Proof.Machine

variable {u : FieldUnit} {st st' : Stall}

/-! ### Stalls in order (R10) -/

theorem Stall.eq_of_row_post (hrow : st.row = st'.row) (hpost : st.post = st'.post) : st = st' := by
  obtain ⟨r, p⟩ := st
  obtain ⟨r', p'⟩ := st'
  simp only [Stall.row, Stall.post] at hrow hpost
  rw [Stall.mk.injEq]
  exact ⟨Fin.ext (by omega), Fin.ext (by omega)⟩

/-- A post stands before another in the centre-out order of a row (R10). -/
def PostBefore (posts : Nat) (p p' : Nat) : Prop :=
  postKey posts p < postKey posts p' ∨ (postKey posts p = postKey posts p' ∧ p < p')

/-- A stall stands before another: front row first, centre-out within the row (R10). -/
def FieldUnit.StallBefore (u : FieldUnit) (st st' : Stall) : Prop :=
  st.row < st'.row ∨ (st.row = st'.row ∧ PostBefore u.posts st.post st'.post)

theorem FieldUnit.StallBefore.asymm (h : u.StallBefore st st') : ¬ u.StallBefore st' st := by
  unfold FieldUnit.StallBefore PostBefore at *
  omega

theorem centreOut_pairwise (posts : Nat) : (centreOut posts).Pairwise (PostBefore posts) := by
  unfold centreOut
  refine List.pairwise_flatMap.mpr ⟨fun key _ => ?_, ?_⟩
  · refine ((List.pairwise_lt_range' (s := 1) (n := posts)).filter _).imp_of_mem fun {p p'} hp hp' hlt => .inr ⟨?_, hlt⟩
    rw [beq_iff_eq.mp (List.mem_filter.mp hp).2, beq_iff_eq.mp (List.mem_filter.mp hp').2]
  · refine List.pairwise_lt_range.imp fun {key key'} hlt p hp p' hp' => .inl ?_
    rw [beq_iff_eq.mp (List.mem_filter.mp hp).2, beq_iff_eq.mp (List.mem_filter.mp hp').2]
    exact hlt

theorem rowsInOrder_pairwise (u : FieldUnit) (first last : Nat) : (u.rowsInOrder first last).Pairwise u.StallBefore := by
  unfold FieldUnit.rowsInOrder
  have place {row : Nat} {st : Stall} (h : st ∈ (centreOut u.posts).filterMap fun post => stallOf row post) : st.row = row := by
    obtain ⟨post, -, h⟩ := List.mem_filterMap.mp h
    exact (stallOf_eq_some_iff.mp h).1
  refine List.pairwise_flatMap.mpr ⟨fun row _ => ?_, ?_⟩
  · refine (centreOut_pairwise u.posts).filterMap _ fun p p' hp st hst st' hst' => .inr ?_
    obtain ⟨hrow, hpost⟩ := stallOf_eq_some_iff.mp hst
    obtain ⟨hrow', hpost'⟩ := stallOf_eq_some_iff.mp hst'
    exact ⟨hrow.trans hrow'.symm, by rw [hpost, hpost']; exact hp⟩
  · refine (List.pairwise_lt_range' (s := first) (n := last + 1 - first)).imp fun {row row'} hlt st hst st' hst' => .inl ?_
    rw [place hst, place hst']
    exact hlt

theorem standardOffers_pairwise (u : FieldUnit) : u.standardOffers.Pairwise u.StallBefore := by
  refine List.Pairwise.filter _ (List.pairwise_append.mpr
    ⟨rowsInOrder_pairwise u 1 _, rowsInOrder_pairwise u _ _, fun st hst st' hst' => .inl ?_⟩)
  have h := mem_rowsInOrder.mp hst
  have h' := mem_rowsInOrder.mp hst'
  omega

theorem tallOffers_pairwise (u : FieldUnit) : u.tallOffers.Pairwise u.StallBefore :=
  (rowsInOrder_pairwise u _ _).filter _

theorem accessibleOffers_pairwise (u : FieldUnit) : u.accessibleOffers.Pairwise fun st st' => st.post < st'.post := by
  refine List.Pairwise.filter _ ((List.pairwise_lt_range' (s := 1) (n := u.accessible)).filterMap _
    fun p p' hp st hst st' hst' => ?_)
  rw [(stallOf_eq_some_iff.mp hst).2, (stallOf_eq_some_iff.mp hst').2]
  exact hp

/-- The first item of a sorted list is the one that every other stands behind. -/
theorem head?_eq_some_iff_first {α : Type} {R : α → α → Prop} {l : List α} (hl : l.Pairwise R)
    (hasymm : ∀ x y, R x y → ¬ R y x) {x : α} : l.head? = some x ↔ x ∈ l ∧ ∀ y ∈ l, y = x ∨ R x y := by
  constructor
  · intro h
    refine ⟨List.mem_of_head? h, fun y hy => ?_⟩
    cases l with
    | nil => cases hy
    | cons z rest =>
      cases h
      exact (List.mem_cons.mp hy).imp_right (List.rel_of_pairwise_cons hl)
  · rintro ⟨hx, hfirst⟩
    cases l with
    | nil => cases hx
    | cons z rest =>
      rcases List.mem_cons.mp hx with rfl | hx
      · rfl
      · have hzx := List.rel_of_pairwise_cons hl hx
        exact ((hfirst z List.mem_cons_self).imp_right (hasymm z x hzx ·)).elim (congrArg some) False.elim

/-! ### The stalls offered (R11 to R13) -/

/-- A stall that exists, is free and stands in an open row. -/
def FieldUnit.Offered (u : FieldUnit) (st : Stall) : Prop :=
  u.at st = none ∧ u.closed.getLsbD st.rowIx.val = false ∧ st.row ≤ u.rows ∧ st.post ≤ u.posts

/-- A stall that is kept for ACCESSIBLE cars (R4). -/
def FieldUnit.Reserved (u : FieldUnit) (st : Stall) : Prop := st.row = 1 ∧ st.post ≤ u.accessible

theorem isCandidate_iff : u.isCandidate st = true ↔
    u.at st = none ∧ u.closed.getLsbD st.rowIx.val = false ∧ ¬ u.Reserved st := by
  simp only [FieldUnit.isCandidate, FieldUnit.isFree, FieldUnit.rowOpen, FieldUnit.isAccessible, FieldUnit.Reserved,
    Bool.and_eq_true, Option.isNone_iff_eq_none, Bool.not_eq_true', ← Bool.not_eq_true, beq_iff_eq, decide_eq_true_eq, and_assoc]

theorem mem_standardOffers (hu : u.Configuration) : st ∈ u.standardOffers ↔ u.Offered st ∧ ¬ u.Reserved st := by
  have hrow : 1 ≤ st.row := Nat.succ_le_succ (Nat.zero_le _)
  rw [FieldUnit.standardOffers, List.mem_filter, List.mem_append, mem_rowsInOrder, mem_rowsInOrder, isCandidate_iff]
  have hrows : (1 ≤ st.row ∧ st.row ≤ u.tall - 1 ∧ st.post ≤ u.posts) ∨ (u.tall ≤ st.row ∧ st.row ≤ u.rows ∧ st.post ≤ u.posts) ↔
      st.row ≤ u.rows ∧ st.post ≤ u.posts := by
    rcases hu with hu | hu <;> omega
  rw [hrows]
  unfold FieldUnit.Offered
  tauto

theorem mem_tallOffers : st ∈ u.tallOffers ↔ u.Offered st ∧ ¬ u.Reserved st ∧ u.tall ≤ st.row := by
  rw [FieldUnit.tallOffers, List.mem_filter, mem_rowsInOrder, isCandidate_iff]
  unfold FieldUnit.Offered
  tauto

theorem mem_accessibleOffers (hu : u.Configuration) : st ∈ u.accessibleOffers ↔ u.Offered st ∧ u.Reserved st := by
  have hpost : 1 ≤ st.post := Nat.succ_le_succ (Nat.zero_le _)
  simp only [FieldUnit.accessibleOffers, List.mem_filter, List.mem_filterMap, List.mem_range'_1, stallOf_eq_some_iff,
    FieldUnit.isFree, FieldUnit.rowOpen, Bool.and_eq_true, Option.isNone_iff_eq_none, Bool.not_eq_true',
    FieldUnit.Offered, FieldUnit.Reserved]
  constructor
  · rintro ⟨⟨post, hp, hrow, rfl⟩, hfree, hopen⟩
    refine ⟨⟨hfree, hopen, ?_⟩, hrow, by omega⟩
    rcases hu with hu | hu <;> omega
  · rintro ⟨⟨hfree, hopen, hexists⟩, hrow, hacc⟩
    exact ⟨⟨st.post, by omega, hrow, rfl⟩, hfree, hopen⟩

/-! ### The choice (R10 to R14) -/

theorem choose_eq_ok_iff (u : FieldUnit) (cls : StallClass) (st : Stall) :
    u.choose cls none = .ok st ↔ (u.offers cls).head? = some st := by
  unfold FieldUnit.choose
  dsimp only
  cases (u.offers cls).head? <;> simp

theorem choose_eq_noStall_iff (u : FieldUnit) (cls : StallClass) :
    u.choose cls none = .error .noStall ↔ u.offers cls = [] := by
  unfold FieldUnit.choose
  dsimp only
  cases h : u.offers cls <;> simp

theorem choose_named (u : FieldUnit) (cls : StallClass) (st : Stall) :
    u.choose cls (some st) = if u.takesNamed cls st then .ok st else .error .badStall := rfl

theorem fits_standard : u.fits .standard st = true ↔ ¬ u.Reserved st := by
  simp only [FieldUnit.fits, FieldUnit.isAccessible, FieldUnit.Reserved, Bool.not_eq_true', ← Bool.not_eq_true,
    Bool.and_eq_true, beq_iff_eq, decide_eq_true_eq]

theorem fits_tall : u.fits .tall st = true ↔ ¬ u.Reserved st ∧ u.tall ≤ st.row := by
  rw [← fits_standard]
  simp only [FieldUnit.fits, FieldUnit.inTallRow, Bool.and_eq_true, decide_eq_true_eq]

theorem takesNamed_iff {cls : StallClass} : u.takesNamed cls st = true ↔ u.Offered st ∧ u.fits cls st = true := by
  simp only [FieldUnit.takesNamed, FieldUnit.has, FieldUnit.rowOpen, FieldUnit.isFree, FieldUnit.Offered, Bool.and_eq_true,
    Bool.not_eq_true', Option.isNone_iff_eq_none, decide_eq_true_eq]
  tauto

/-- A stall that a car without a named one may get before the accessible stalls come in (R11, R12). -/
def FieldUnit.Candidate (u : FieldUnit) (cls : StallClass) (st : Stall) : Prop :=
  u.Offered st ∧ ¬ u.Reserved st ∧ (cls = .tall → u.tall ≤ st.row)

theorem mem_offers_iff (hu : u.Configuration) {cls : StallClass} (hcls : cls ≠ .accessible) :
    st ∈ u.offers cls ↔ u.Candidate cls st := by
  cases cls with
  | standard => exact (mem_standardOffers hu).trans (and_congr_right fun _ => (and_iff_left fun e => nomatch e).symm)
  | tall => exact mem_tallOffers.trans (and_congr_right fun _ => and_congr_right fun _ => ⟨fun h _ => h, fun h => h rfl⟩)
  | accessible => exact absurd rfl hcls

theorem offers_pairwise {cls : StallClass} (hcls : cls ≠ .accessible) : (u.offers cls).Pairwise u.StallBefore := by
  cases cls with
  | standard => exact standardOffers_pairwise u
  | tall => exact tallOffers_pairwise u
  | accessible => exact absurd rfl hcls

/-- The stall of a class is the candidate that stands before all others. -/
theorem choose_first (hu : u.Configuration) {cls : StallClass} (hcls : cls ≠ .accessible) :
    u.choose cls none = .ok st ↔
      u.Candidate cls st ∧ ∀ st', u.Candidate cls st' → st' = st ∨ u.StallBefore st st' := by
  rw [choose_eq_ok_iff, head?_eq_some_iff_first (offers_pairwise hcls) fun _ _ => FieldUnit.StallBefore.asymm]
  simp only [mem_offers_iff hu hcls]

theorem choose_noStall (hu : u.Configuration) {cls : StallClass} (hcls : cls ≠ .accessible) :
    u.choose cls none = .error .noStall ↔ ∀ st, ¬ u.Candidate cls st := by
  rw [choose_eq_noStall_iff, List.eq_nil_iff_forall_not_mem]
  simp only [mem_offers_iff hu hcls]

/-- The first of the accessible stalls stands at the lowest post (R13). -/
theorem accessibleOffers_head? (hu : u.Configuration) : u.accessibleOffers.head? = some st ↔
    u.Offered st ∧ u.Reserved st ∧ ∀ st', u.Offered st' → u.Reserved st' → st.post ≤ st'.post := by
  rw [head?_eq_some_iff_first (accessibleOffers_pairwise u) fun _ _ h h' => absurd h (Nat.lt_asymm h')]
  simp only [mem_accessibleOffers hu, and_assoc, and_imp]
  refine and_congr_right fun _ => and_congr_right fun hst => forall_congr' fun st' => imp_congr_right fun _ =>
    imp_congr_right fun hst' => ⟨?_, fun h => ?_⟩
  · rintro (rfl | h) <;> omega
  · exact (Nat.lt_or_eq_of_le h).elim .inr fun e => .inl (Stall.eq_of_row_post (hst'.1.trans hst.1.symm) e.symm)

theorem accessibleOffers_eq_nil (hu : u.Configuration) :
    u.accessibleOffers = [] ↔ ∀ st, ¬ (u.Offered st ∧ u.Reserved st) := by
  rw [List.eq_nil_iff_forall_not_mem]
  simp only [mem_accessibleOffers hu]

theorem choose_accessible : u.choose .accessible none = .ok st ↔
    u.accessibleOffers.head? = some st ∨ (u.accessibleOffers = [] ∧ u.choose .standard none = .ok st) := by
  rw [choose_eq_ok_iff, choose_eq_ok_iff]
  simp only [FieldUnit.offers]
  cases u.accessibleOffers <;> simp

theorem choose_accessible_noStall : u.choose .accessible none = .error .noStall ↔
    u.accessibleOffers = [] ∧ u.choose .standard none = .error .noStall := by
  rw [choose_eq_noStall_iff, choose_eq_noStall_iff]
  exact List.append_eq_nil_iff

/-- A stall stands before another or is it, as the obligation writes it. -/
theorem eq_or_stallBefore_iff : (st' = st ∨ u.StallBefore st st') ↔
    st.row < st'.row ∨ (st.row = st'.row ∧ (postKey u.posts st.post < postKey u.posts st'.post ∨
      (postKey u.posts st.post = postKey u.posts st'.post ∧ st.post ≤ st'.post))) := by
  unfold FieldUnit.StallBefore PostBefore
  constructor
  · rintro (rfl | h)
    · exact .inr ⟨rfl, .inr ⟨rfl, Nat.le_refl _⟩⟩
    · omega
  · intro h
    by_cases e : st.row = st'.row ∧ st.post = st'.post
    · exact .inl (Stall.eq_of_row_post e.1 e.2).symm
    · omega

/-- Settles O21: each class is offered a sorted list of the stalls that it may have. -/
theorem theChosenStallIsTheFirstCandidate : Obligations.TheChosenStallIsTheFirstCandidate := by
  intro u hu offered reserved candidate key before
  refine ⟨fun cls hcls => ⟨fun st => (choose_first hu hcls).trans (and_congr_right fun _ => forall_congr' fun st' =>
      imp_congr_right fun _ => eq_or_stallBefore_iff), choose_noStall hu hcls⟩,
    fun st => choose_accessible.trans (or_congr (accessibleOffers_head? hu)
      (and_congr_left fun _ => accessibleOffers_eq_nil hu)),
    choose_accessible_noStall.trans (and_congr (accessibleOffers_eq_nil hu) (choose_noStall hu fun e => nomatch e)), ?_⟩
  intro cls st fits
  have hfits : u.fits cls st = true ↔ fits := by
    cases cls with
    | standard => exact fits_standard
    | tall => exact fits_tall
    | accessible => exact iff_of_true rfl trivial
  have htakes : u.takesNamed cls st = true ↔ offered st ∧ fits := takesNamed_iff.trans (and_congr_right fun _ => hfits)
  rw [choose_named]
  exact ⟨fun h => if_pos (htakes.mpr h), fun h => if_neg fun e => h (htakes.mp e)⟩

end Sys2Proof.Machine
end

section
/-! PROOF. The reply records, byte by byte (O13). -/

namespace Sys2Proof.Machine

/-! ### The parts of a record that need a case split -/

theorem length_flatMap_of_const {α : Type} {f : α → List Nat} {k : Nat} (h : ∀ x, (f x).length = k) (l : List α) :
    (l.flatMap f).length = k * l.length := by
  rw [List.length_flatMap, List.map_congr_left fun x _ => h x, List.map_const', List.sum_replicate_nat, Nat.mul_comm]

theorem flag_configured (u : FieldUnit) : flag u.configured = if u.rows = 0 then 0 else 1 := by
  unfold flag FieldUnit.configured
  by_cases h : u.rows = 0 <;> simp [h]

theorem flag_isExit (l : LaneNo) : flag (!isEntryLane l) = if l.val < 4 then 0 else 1 := by
  unfold flag isEntryLane
  by_cases h : l.val < 4 <;> simp [h]

theorem rowBytes_length (u : FieldUnit) (r : Fin 16) : (u.rowBytes r).length = 64 :=
  length_flatMap_of_const (k := 2) (fun p => by split <;> rfl) (List.finRange 32)

theorem rowBytes_eq (u : FieldUnit) (r : Fin 16) : u.rowBytes r =
    (List.finRange 32).flatMap fun p => if u.posts ≤ p.val then be2 0xFFFE else optCar (u.at ⟨r, p⟩) :=
  congrArg (List.flatMap · _) (funext fun _ => if_congr Nat.lt_succ_iff rfl rfl)

theorem plateBytes_eq (plate : Option (List PlatePos)) : plateBytes plate =
    be6 ((plate.getD (List.replicate 8 .unread)).foldl (fun n x => n * 64 + platePosCode x) 0) := by
  unfold plateBytes packPlate
  rw [List.foldl_map]

theorem headerBytes_length (h : Option Header) : (headerBytes h).length = 10 := by
  cases h <;> rfl

theorem programBytes_length (p : ProgramUnit) : p.bytes.length = 20 := by
  simp only [ProgramUnit.bytes, List.length_append, headerBytes_length]
  rfl

theorem entryRecord_vacant {s : State} {h : CarHandle} (hcar : s.car h = none) :
    s.entryRecord h = be2 s.serialCounter ++ be2 s.liveCount ++ [0] := by
  unfold State.entryRecord
  rw [hcar]

theorem entryRecord_live {s : State} {h : CarHandle} {c : Car} (hcar : s.car h = some c) :
    s.entryRecord h = be2 s.serialCounter ++ be2 s.liveCount ++ liveBytes c (s.entry h).touched := by
  unfold State.entryRecord
  rw [hcar]

theorem entryRecord_length (s : State) (h : CarHandle) :
    (s.entryRecord h).length = if (s.car h).isSome then 31 else 5 := by
  cases hcar : s.car h with
  | none => exact congrArg List.length (entryRecord_vacant hcar)
  | some c => exact congrArg List.length (entryRecord_live hcar)

theorem setRecord_enrolled {s : State} {n : SetHandle} (h : (s.slot n).state ≠ .unenrolled) : s.setRecord n =
    setStates.map s.slotsIn ++ [s.issuingCount, s.readyLevel, s.issueTime, setStateCode (s.slot n).state] ++
      (be6 (s.slot n).serial ++ [(s.slot n).charge, optByte ((s.slot n).bay.map Fin.val)] ++ optCar (s.slot n).car ++
        [optByte (s.slot n).channel] ++ timeBytes3 (s.slot n).timer) :=
  congrArg (_ ++ ·) (if_neg fun e => h (beq_iff_eq.mp e))

theorem setRecord_unenrolled {s : State} {n : SetHandle} (h : (s.slot n).state = .unenrolled) : s.setRecord n =
    setStates.map s.slotsIn ++ [s.issuingCount, s.readyLevel, s.issueTime, setStateCode (s.slot n).state] ++ [] :=
  congrArg (_ ++ ·) (if_pos (beq_iff_eq.mpr h))

theorem orderBytes_length (ord : Order) : ord.bytes.length = 15 + 4 * ord.lines.length := by
  simp only [Order.bytes, List.length_append, length_flatMap_of_const fun l : OrderLine => show l.bytes.length = 4 from rfl]
  rfl

theorem routeBytes_length (s : State) (o : OrderHandle) : (s.routeBytes o).length = 7 := by
  unfold State.routeBytes
  cases s.stallOfOrder o <;> rfl

/-- An order's place is the stall of its car. -/
theorem stallOfOrder_eq_map (s : State) (o : OrderHandle) : s.stallOfOrder o =
    (((s.order o).bind fun ord => ord.car.bind s.car)).map fun c => (c.field, c.stall) := by
  unfold State.stallOfOrder
  rcases s.order o with _ | ord
  · rfl
  rcases h : ord.car with _ | car <;> simp [h]

theorem tripRecord_length (s : State) (t : TripHandle) :
    (s.tripRecord t).length = 13 + 7 * (s.trip t).orders.length := by
  simp only [State.tripRecord, List.length_append, length_flatMap_of_const (routeBytes_length s), (routeOrder_perm s t).length_eq]
  rfl

theorem queuedIn_eq (s : State) (n : StationNo) (st : LineState) : s.queuedIn n st = (s.station n).queue.countP fun e =>
    ((s.order e.1).bind fun ord => ord.lines[e.2]?.map OrderLine.state) == some st :=
  congrArg (List.countP · _) (funext fun e => by cases s.order e.1 <;> rfl)

theorem ordersWith_true (s : State) : s.ordersWith (fun _ => true) = countOf fun o => (s.order o).isSome :=
  congrArg countOf (funext fun o => by cases s.order o <;> rfl)

theorem kitchenRecord_length (s : State) : s.kitchenRecord.length = 46 := by
  simp only [State.kitchenRecord, List.length_append, length_flatMap_of_const (k := 5) fun n => show (s.stationBytes n).length = 5 from rfl,
    length_flatMap_of_const (k := 2) fun st : Stage => show (be2 (s.ordersWith fun ord => ord.stage == st)).length = 2 from rfl]
  rfl

theorem causesRecord_length (s : State) : s.causesRecord.length = 13 + 2 * s.attention.notes.length := by
  simp only [State.causesRecord, List.length_append,
    length_flatMap_of_const fun note : OrderHandle × NoteKind => show [note.1.val, noteKindCode note.2].length = 2 from rfl]
  rfl

/-- Settles O13: record by record. -/
theorem recordsHaveTheirLengths : Obligations.RecordsHaveTheirLengths := by
  unfold Obligations.RecordsHaveTheirLengths
  intro two three four six orFF orFFFF left3 bit bits number position plate codes
  have hplate (p : Option (List PlatePos)) : plateBytes p = plate p := by
    rw [plateBytes_eq]
    refine congrArg be6 (congrArg (List.foldl · 0 _) (funext fun n => funext fun x => congrArg (n * 64 + ·) ?_))
    cases x <;> rfl
  refine ⟨⟨rfl, rfl, rfl, rfl, rfl, fun st hst => ?_, rfl, rfl, rfl, rfl, rfl, rfl, rfl, rfl, rfl, rfl⟩, fun s => ?_⟩
  · cases st with
    | paused r => exact absurd rfl (hst r)
    | _ => rfl
  refine ⟨fun f => ⟨rfl, ?_⟩, fun f r => ⟨rowBytes_length _ r, rowBytes_eq _ r⟩, fun x ns => ⟨rfl, rfl⟩,
    fun p => ⟨programBytes_length p, ?_⟩, fun seg => ⟨rfl, rfl⟩, fun l => ⟨rfl, ?_⟩,
    fun h => ⟨entryRecord_length s h, ?_, ?_⟩, fun n => ⟨?_, ?_⟩, fun ord => ⟨orderBytes_length ord, rfl⟩,
    fun t => ⟨tripRecord_length s t, ?_⟩, ⟨kitchenRecord_length s, ?_⟩, ⟨causesRecord_length s, rfl⟩⟩
  · intro u
    rw [← flag_configured]
    rfl
  · intro head header
    have hbytes : p.bytes = [p.record.code, p.record.segments.length] ++ headerBytes p.record.header? ++ _ ++ _ ++ _ := rfl
    cases h : p.record <;> rw [h] at hbytes <;> exact hbytes
  · intro x
    rw [← flag_isExit]
    rfl
  · intro hcar
    exact entryRecord_vacant hcar
  · intro c hcar
    rw [entryRecord_live hcar, liveBytes, hplate]
    rfl
  · by_cases h : (s.slot n).state = .unenrolled
    · rw [if_pos h, setRecord_unenrolled h]
      rfl
    · rw [if_neg h, setRecord_enrolled h]
      rfl
  · intro x inState
    by_cases h : x.state = .unenrolled
    · rw [if_pos h]
      exact setRecord_unenrolled h
    · rw [if_neg h]
      exact setRecord_enrolled h
  · intro x inState place
    refine congrArg (_ ++ ·) (congrArg (List.flatMap · _) (funext fun o => ?_))
    unfold State.routeBytes
    rw [stallOfOrder_eq_map]
    dsimp only [place]
    cases (s.order o).bind fun ord => ord.car.bind s.car <;> rfl
  · intro having queued
    have hstation : s.stationBytes = fun n => [(s.station n).queue.length, queued n .waiting, queued n .started,
        (s.station n).xoff, (s.station n).xon] :=
      funext fun n => by rw [State.stationBytes, queuedIn_eq, queuedIn_eq]; rfl
    rw [State.kitchenRecord, ordersWith_true, hstation]
    rfl

end Sys2Proof.Machine
end

section
/-! PROOF. The commands of the lanes: ADMIT (O38), its refusals, REFUSE, LET OUT and DEPART (O39). -/

namespace Sys2Proof.Machine

variable {s : State}

/-! ### The request of ADMIT -/

theorem classOf_classCode (cls : StallClass) : classOf (classCode cls) = some cls := by
  cases cls <;> rfl

theorem namedStallOf_map (named : Option Stall) : namedStallOf (named.map fun n => (n.row, n.post)) = some named := by
  cases named with
  | none => rfl
  | some st => exact congrArg (Option.map some) (stallOf_self st)

theorem namedStallOf_eq_none {named : Option (Nat × Nat)}
    (h : ∃ row post, named = some (row, post) ∧ (row = 0 ∨ 16 < row ∨ post = 0 ∨ 32 < post)) : namedStallOf named = none := by
  obtain ⟨row, post, rfl, h⟩ := h
  exact congrArg (Option.map some) (stallOf_eq_none h)

theorem handle?_fin {n : Nat} (k : Fin n) : handle? n k = some k := handle?_of_lt k.isLt

theorem within_eq_true {lo hi n : Nat} : within lo hi n = true ↔ lo ≤ n ∧ n ≤ hi := by
  simp [within]

theorem admitRequest_eq_some (q : AdmitRequest) {codes : List Nat} (hplate : plateOf codes = some q.plate)
    (hticket : 1 ≤ q.ticket ∧ q.ticket ≤ 4294967295) (hparty : 1 ≤ q.party ∧ q.party ≤ 15) :
    admitRequest? q.lane q.field (classCode q.cls) q.party q.ticket codes (q.named.map fun n => (n.row, n.post)) = some q := by
  unfold admitRequest?
  simp only [handle?_fin, classOf_classCode, hplate, namedStallOf_map, within_eq_true.mpr hticket, within_eq_true.mpr hparty,
    Bool.and_self, if_true]

theorem admitRequest_eq_none {lane field cls party ticket : Nat} {codes : List Nat} {named : Option (Nat × Nat)}
    (h : 4 ≤ lane ∨ 4 ≤ field ∨ 2 < cls ∨ party = 0 ∨ 15 < party ∨ ticket = 0 ∨ 4294967295 < ticket ∨
      codes.length ≠ 8 ∨ (∃ code ∈ codes, 38 < code) ∨
      (∃ row post, named = some (row, post) ∧ (row = 0 ∨ 16 < row ∨ post = 0 ∨ 32 < post))) :
    admitRequest? lane field cls party ticket codes named = none := by
  unfold admitRequest?
  split
  · rename_i hlane hfield hcls hplate hnamed
    refine if_neg fun hin => ?_
    rw [Bool.and_eq_true, within_eq_true, within_eq_true] at hin
    have hclass := mt classOf_eq_none_iff.mpr (by rw [hcls]; exact Option.some_ne_none _)
    have hcodes := mt plateOf_eq_none_iff.mpr (by rw [hplate]; exact Option.some_ne_none _)
    have hstall := mt namedStallOf_eq_none (by rw [hnamed]; exact Option.some_ne_none _)
    have hl : ¬ 4 ≤ lane := fun e => nomatch hlane.symm.trans (handle?_of_ge e)
    have hf : ¬ 4 ≤ field := fun e => nomatch hfield.symm.trans (handle?_of_ge e)
    rcases h with h | h | h | h | h | h | h | h | h | h
    · exact hl h
    · exact hf h
    · exact hclass h
    · omega
    · omega
    · omega
    · omega
    · exact hcodes (.inl h)
    · exact hcodes (.inr h)
    · exact hstall h
  · rfl

/-! ### ADMIT (R48, R49) -/

theorem ticketInUse_iff (s : State) (ticket : Nat) :
    s.ticketInUse ticket = true ↔ ∃ h, (s.car h).map Car.ticket = some ticket := by
  simp [State.ticketInUse, List.any_eq_true, Option.any_eq_true]

theorem ticketInUse_eq_false_of_unique (s : State) {ticket : Nat} (h : ∀ k c, s.car k = some c → c.ticket ≠ ticket) :
    s.ticketInUse ticket = false := by
  rw [← Bool.not_eq_true, ticketInUse_iff]
  rintro ⟨k, hk⟩
  obtain ⟨c, hc, e⟩ := Option.map_eq_some_iff.mp hk
  exact h k c hc e

theorem vacantEntry_eq_some_iff (s : State) (h : CarHandle) :
    s.vacantEntry = some h ↔ s.car h = none ∧ ∀ h', h' < h → s.car h' ≠ none := by
  rw [State.vacantEntry, lowest_eq_some_iff]
  simp only [Option.isNone_iff_eq_none, ← Bool.not_eq_true, Ne]

theorem vacantEntry_eq_none_iff (s : State) : s.vacantEntry = none ↔ ∀ h, s.car h ≠ none := by
  rw [State.vacantEntry, lowest_eq_none]
  simp only [Option.isNone_iff_eq_none, ← Bool.not_eq_true, Ne]

theorem admits_iff (x : FieldState) : x.admits = true ↔ x ≠ .dark ∧ x ≠ .ended := by
  cases x <;> simp [FieldState.admits]

/-- One stall written and the full sign evaluated: the field unit's own work (R15, R16). -/
theorem evaluateSign_setStall (s : State) (f : FieldNo) (st : Stall) (h : Option CarHandle) :
    (s.setStall f st h).evaluateSign f =
      { s with fieldUnits := put s.fieldUnits f ((s.unit f).setStall st h).evaluateSign } := by
  rw [State.evaluateSign, State.setStall, State.unit_setUnit_self]
  exact congrArg (fun v : Vector FieldUnit 4 => { s with fieldUnits := v }) (put_put _ _ _ _)

theorem admitInto_eq (s : State) (q : AdmitRequest) (h : CarHandle) (st : Stall) : s.admitInto q h st =
    { s with
      entries := put s.entries h { s.entry h with car := some (q.car st s.nextSerial) }
      serialCounter := s.nextSerial
      fieldUnits := put s.fieldUnits q.field ((s.unit q.field).setStall st (some h)).evaluateSign
      lanes := put s.lanes (entryLane q.lane) ((s.lane (entryLane q.lane)).openFor (some h)) } :=
  congrArg (fun t : State => t.setLane (entryLane q.lane) ((t.lane (entryLane q.lane)).openFor (some h)))
    (evaluateSign_setStall _ q.field st (some h))

/-- ADMIT behind its five checks on lane, field and ticket: the entry, then the stall (R48). -/
def State.admitPlaced (s : State) (q : AdmitRequest) : Answer :=
  match s.vacantEntry with
  | none => s.deny .full
  | some h =>
    match (s.unit q.field).choose q.cls q.named with
    | .error code => s.deny code
    | .ok st => (s.admitInto q h st).ok (be2 h.val ++ [st.row, st.post])

theorem admitChecked_of_checks (s : State) (q : AdmitRequest) (hlane : (s.lane (entryLane q.lane)).state = .waiting)
    (hfield : (s.program q.field).state.admits = true) (hcutoff : (s.program q.field).pastCutoff = false)
    (hticket : s.ticketInUse q.ticket = false) : s.admitChecked q = s.admitPlaced q := by
  have hchecks (work : Answer) := s.checked_of_none (checks := [((s.lane (entryLane q.lane)).state == .waiting, .state),
    ((s.program q.field).state != .ended, .showOver), ((s.program q.field).state.admits, .state),
    (!(s.program q.field).pastCutoff, .cutoff), (!s.ticketInUse q.ticket, .duplicate)])
    (by rw [hfield, hcutoff, hticket, hlane, bne_iff_ne.mpr ((admits_iff _).mp hfield).2]; rfl) work
  unfold State.admitChecked State.admitPlaced
  cases s.vacantEntry with
  | none => exact hchecks _
  | some h => cases (s.unit q.field).choose q.cls q.named <;> exact hchecks _

theorem admitPlaced_of_stall {q : AdmitRequest} {h : CarHandle} {st : Stall} (hentry : s.vacantEntry = some h)
    (hstall : (s.unit q.field).choose q.cls q.named = .ok st) :
    s.admitPlaced q = (s.admitInto q h st).ok (be2 h.val ++ [st.row, st.post]) := by
  unfold State.admitPlaced
  rw [hentry]
  dsimp only
  rw [hstall]

theorem workAdmit_of_request (s : State) (q : AdmitRequest) {codes : List Nat} (hplate : plateOf codes = some q.plate)
    (hticket : 1 ≤ q.ticket ∧ q.ticket ≤ 4294967295) (hparty : 1 ≤ q.party ∧ q.party ≤ 15) :
    workAdmit q.lane q.field (classCode q.cls) q.party q.ticket codes (q.named.map fun n => (n.row, n.post)) s =
      s.admitChecked q := by
  rw [workAdmit, admitRequest_eq_some q hplate hticket hparty]

/-- Settles O38: the request is read back, its checks hold, and the changes touch four tables. -/
theorem admitMakesTheEntryAndOpensTheLane : Obligations.AdmitMakesTheEntryAndOpensTheLane := by
  intro s l f cls ticket party codes plate named h st hp i x hticket hticket' hplate hparty hparty' hwaiting hadmits hcutoff
    hunique hvacant hlowest hchosen serial
  let q : AdmitRequest := { lane := l, field := f, cls := cls, ticket := ticket, plate := plate, party := party, named := named }
  have hlit : (s.program f).state.admits = true := by
    rcases hadmits with e | e | e | e <;> rw [e] <;> rfl
  refine answered_of_records rfl hp (g := fun t => { t with entries := _, serialCounter := _, fieldUnits := _, lanes := _ })
    fun port attention => ?_
  refine (workAdmit_of_request (s.facing port attention) q hplate ⟨hticket, hticket'⟩ ⟨hparty, hparty'⟩).trans ?_
  refine (admitChecked_of_checks (s.facing port attention) q hwaiting hlit hcutoff
    (ticketInUse_eq_false_of_unique (s.facing port attention) (ticket := ticket) hunique)).trans ?_
  refine (admitPlaced_of_stall (s := s.facing port attention) (q := q)
    ((vacantEntry_eq_some_iff (s.facing port attention) h).mpr ⟨hvacant, hlowest⟩) hchosen).trans ?_
  exact congrArg (State.ok · _) (admitInto_eq (s.facing port attention) q h st)

/-! ### Refusals of ADMIT (R48) -/

/-- The code with which ADMIT is refused, if it is: that of the first check that fails (R48). -/
theorem admitChecked_refused (s : State) (q : AdmitRequest) {code : ResultCode}
    (h : (s.lane (entryLane q.lane)).state ≠ .waiting ∧ code = .state ∨
      (s.lane (entryLane q.lane)).state = .waiting ∧ (
        (s.program q.field).state = .ended ∧ code = .showOver ∨
        (s.program q.field).state = .dark ∧ code = .state ∨
        (s.program q.field).state ≠ .ended ∧ (s.program q.field).state ≠ .dark ∧ (
          (s.program q.field).pastCutoff = true ∧ code = .cutoff ∨
          (s.program q.field).pastCutoff = false ∧ (
            s.ticketInUse q.ticket = true ∧ code = .duplicate ∨
            s.ticketInUse q.ticket = false ∧ s.admitPlaced q = s.deny code)))) :
    s.admitChecked q = s.deny code := by
  rcases h with ⟨hlane, rfl⟩ | ⟨hlane, ⟨hfield, rfl⟩ | ⟨hfield, rfl⟩ | ⟨hended, hdark, ⟨hcutoff, rfl⟩ | ⟨hcutoff, ⟨hticket, rfl⟩ |
    ⟨hticket, hplaced⟩⟩⟩⟩
  · exact s.checked_of_some (by rw [beq_eq_false_iff_ne.mpr hlane]; rfl) _
  · exact s.checked_of_some (by rw [hlane, hfield]; rfl) _
  · exact s.checked_of_some (by rw [hlane, hfield]; rfl) _
  · exact s.checked_of_some (by rw [hlane, bne_iff_ne.mpr hended, (admits_iff _).mpr ⟨hdark, hended⟩, hcutoff]; rfl) _
  · exact s.checked_of_some
      (by rw [hlane, bne_iff_ne.mpr hended, (admits_iff _).mpr ⟨hdark, hended⟩, hcutoff, hticket]; rfl) _
  · exact (admitChecked_of_checks s q hlane ((admits_iff _).mpr ⟨hdark, hended⟩) hcutoff hticket).trans hplaced

theorem admitPlaced_of_full {q : AdmitRequest} (hentry : s.vacantEntry = none) : s.admitPlaced q = s.deny .full := by
  unfold State.admitPlaced
  rw [hentry]

theorem admitPlaced_of_no_stall {q : AdmitRequest} {code : ResultCode} (hentry : s.vacantEntry ≠ none)
    (hstall : (s.unit q.field).choose q.cls q.named = .error code) : s.admitPlaced q = s.deny code := by
  obtain ⟨h, hentry⟩ := Option.ne_none_iff_exists'.mp hentry
  unfold State.admitPlaced
  rw [hentry]
  dsimp only
  rw [hstall]

/-- A check in front of a refusal with the same code. -/
theorem State.checked_same (s : State) (b : Bool) (code : ResultCode) : s.checked [(b, code)] (s.deny code) = s.deny code := by
  cases b
  · exact s.checked_fails rfl _ _ _
  · exact s.checked_holds rfl _ _ _

/-! ### REFUSE, LET OUT, DEPART (R50, R54, R57) -/

theorem exitLaneOf_exitLane (e : Fin 2) : exitLaneOf (4 + e) = some (exitLane e) := by
  fin_cases e <;> rfl

theorem exitLaneOf_eq_none {lane : Nat} (h : ¬ (lane = 4 ∨ lane = 5)) : exitLaneOf lane = none := by
  unfold exitLaneOf
  split
  · rfl
  · exact handle?_of_ge (by omega)

theorem exists_exitLane {lane : Nat} (h : lane = 4 ∨ lane = 5) : ∃ l, exitLaneOf lane = some l := by
  rcases h with rfl | rfl
  · exact ⟨_, exitLaneOf_exitLane 0⟩
  · exact ⟨_, exitLaneOf_exitLane 1⟩

/-- The table of entries with one live entry's car rewritten. -/
theorem modCar_eq {h : CarHandle} {c : Car} (hcar : s.car h = some c) (g : Car → Car) :
    s.modCar h g = { s with entries := put s.entries h { s.entry h with car := some (g c) } } := by
  rw [State.modCar, hcar]
  rfl

/-- An issue cancelled for the car that the set names: the set by charge, the car without a set (R120). -/
theorem cancelIssue_eq {n : SetHandle} {h : CarHandle} {c : Car} (hset : (s.slot n).car = some h) (hcar : s.car h = some c) :
    s.cancelIssue n = { s with
      sets := put s.sets n { s.slot n with state := s.byCharge (s.slot n).charge, car := none, timer := none }
      entries := put s.entries h { s.entry h with car := some { c with lent := none } } } := by
  unfold State.cancelIssue State.setCarSet
  dsimp only
  rw [hset]
  exact modCar_eq (s := s.setSlot n _) hcar _

/-- The entry LEAVING without a set and the lane open for it: what DEPART leaves apart from the set pool (R54). -/
def State.leaving (s : State) (l : LaneNo) (h : CarHandle) (c : Car) : State :=
  { s with
    entries := put s.entries h { s.entry h with car := some { c with state := .leaving, lent := none } }
    lanes := put s.lanes l ((s.lane l).openFor (some h)) }

theorem departCar_of_no_set {l : LaneNo} {h : CarHandle} {c : Car} (hcar : s.car h = some c) (hset : c.lent = none) :
    s.departCar l h c = s.leaving l h c := by
  unfold State.departCar
  rw [hset]
  exact congrArg (fun t : State => t.setLane l ((t.lane l).openFor (some h))) (modCar_eq hcar _)

theorem departCar_of_issue {l : LaneNo} {h : CarHandle} {c : Car} {n : SetHandle} (hcar : s.car h = some c)
    (hset : c.lent = some (n, .issuing)) (hslot : (s.slot n).car = some h) :
    s.departCar l h c = { s.leaving l h c with
      sets := put s.sets n { s.slot n with state := s.byCharge (s.slot n).charge, car := none, timer := none } } := by
  unfold State.departCar
  rw [hset]
  dsimp only
  have hleft : (s.cancelIssue n).car h = some { c with lent := none } := by
    rw [cancelIssue_eq hslot hcar]
    exact State.car_setCar_self _ h _
  rw [modCar_eq hleft, cancelIssue_eq hslot hcar]
  refine congrArg (fun v : Vector Entry 1024 => ({ s with entries := v, sets := _, lanes := _ } : State)) ?_
  refine (put_put _ h _ _).trans (congrArg (put s.entries h) ?_)
  rw [Entry.mk.injEq]
  exact ⟨rfl, s.touched_setCar h h _⟩

theorem workDepart_of_car (s : State) (e : Fin 2) {h : CarHandle} {c : Car} (hcar : s.car h = some c) :
    workDepart (4 + e) h s = s.checked [((s.lane (exitLane e)).state == .waiting, .state)] (s.checked (departChecks c)
      ((s.departCar (exitLane e) h c).ok [c.orders.length, flag (c.lent.any fun x => x.2 == .issuing)])) := by
  unfold workDepart
  rw [exitLaneOf_exitLane, handle?_fin]
  dsimp only
  rw [hcar]

theorem workDepart_of_vacant (s : State) {lane : Nat} {h : CarHandle} (hlane : lane = 4 ∨ lane = 5) (hcar : s.car h = none) :
    workDepart lane h s = s.deny .state := by
  obtain ⟨l, hl⟩ := exists_exitLane hlane
  unfold workDepart
  rw [hl, handle?_fin]
  dsimp only
  rw [hcar]
  exact s.checked_same _ .state

theorem workDepart_of_out_of_range (s : State) {lane car : Nat} (h : ¬ (lane = 4 ∨ lane = 5) ∨ 1024 ≤ car) :
    workDepart lane car s = s.deny .badArg := by
  unfold workDepart
  rcases h with h | h
  · rw [exitLaneOf_eq_none h]
  · rw [handle?_of_ge h]
    cases exitLaneOf lane <;> rfl

/-- Settles O39: each command by the first of its checks that fails, DEPART by the set of its car. -/
theorem lanesOpenForTheWaitingAlone : Obligations.LanesOpenForTheWaitingAlone := by
  refine ⟨fun s lane field cls party ticket car codes named hp => ?_, fun s f l e hp => ⟨?_, ?_, ?_⟩, fun s e h c hp => ?_⟩
  · intro exits
    refine ⟨fun h => denied_of_records rfl hp fun _ _ => ?_, fun h => denied_of_records rfl hp fun _ _ => ?_,
      fun h => denied_of_records rfl hp fun _ _ => ?_, fun h => denied_of_records rfl hp fun _ _ => ?_,
      fun h hh hlane hcar => ?_⟩
    · show workAdmit lane field cls party ticket codes named _ = _
      rw [workAdmit, admitRequest_eq_none h]
    · exact State.withHandle_of_ge _ h _
    · show workLetOut lane _ = _
      rw [workLetOut, exitLaneOf_eq_none h]
    · exact workDepart_of_out_of_range _ h
    · subst hh
      exact denied_of_records rfl hp fun port attention => workDepart_of_vacant (s.facing port attention) hlane hcar
  · intro q codes hplate hticket hticket' hparty hparty' hlane hfield i p code hcode
    subst hlane hfield
    refine denied_of_records rfl hp fun port attention => ?_
    refine (workAdmit_of_request (s.facing port attention) q hplate ⟨hticket, hticket'⟩ ⟨hparty, hparty'⟩).trans
      (admitChecked_refused (s.facing port attention) q ?_)
    split at hcode
    · exact .inl ⟨‹_›, (Option.some.inj hcode).symm⟩
    refine .inr ⟨not_not.mp ‹_›, ?_⟩
    split at hcode
    · exact .inl ⟨‹_›, (Option.some.inj hcode).symm⟩
    split at hcode
    · exact .inr (.inl ⟨‹_›, (Option.some.inj hcode).symm⟩)
    refine .inr (.inr ⟨‹_›, ‹_›, ?_⟩)
    split at hcode
    · exact .inl ⟨‹_›, (Option.some.inj hcode).symm⟩
    refine .inr ⟨Bool.not_eq_true _ ▸ ‹_›, ?_⟩
    have hused := ticketInUse_iff (s.facing port attention) q.ticket
    split at hcode
    · exact .inl ⟨hused.mpr ‹_›, (Option.some.inj hcode).symm⟩
    refine .inr ⟨Bool.not_eq_true _ ▸ mt hused.mp ‹_›, ?_⟩
    have hfull := vacantEntry_eq_none_iff (s.facing port attention)
    split at hcode
    · exact Option.some.inj hcode ▸ admitPlaced_of_full (s := s.facing port attention) (hfull.mpr ‹_›)
    · cases hchosen : (s.unit q.field).choose q.cls q.named with
      | ok st =>
        rw [hchosen] at hcode
        cases hcode
      | error code' =>
        rw [hchosen] at hcode
        cases hcode
        exact admitPlaced_of_no_stall (s := s.facing port attention) (mt hfull.mp ‹_›) hchosen
  · intro x
    refine ⟨fun h => denied_of_records rfl hp fun _ _ => ?_,
      fun h => answered_of_records rfl hp (g := fun t => { t with lanes := _ }) fun port attention => ?_⟩
    · exact (State.withHandle_fin _ l _).trans (State.checked_fails _ (beq_eq_false_iff_ne.mpr h) _ _ _)
    · exact (State.withHandle_fin _ l _).trans (State.checked_holds _ (beq_iff_eq.mpr h) _ _ _)
  · intro x i
    have hwork (t : State) : workLetOut (4 + e) t = t.checked [((t.lane (exitLane e)).state == .waiting, .state)]
        ((t.setLane (exitLane e) ((t.lane (exitLane e)).openFor none)).ok) := by
      rw [workLetOut, exitLaneOf_exitLane]
    refine ⟨fun h => denied_of_records rfl hp fun port attention => ?_,
      fun h => answered_of_records rfl hp (g := fun t => { t with lanes := _ }) fun port attention => ?_⟩
    · exact (hwork _).trans (State.checked_fails (s.facing port attention) (beq_eq_false_iff_ne.mpr h) _ _ _)
    · exact (hwork _).trans (State.checked_holds (s.facing port attention) (beq_iff_eq.mpr h) _ _ _)
  · intro i x hcar
    have hwork (port : Port) (attention : Attention) := workDepart_of_car (s.facing port attention) e hcar
    have behind (hwaiting : x.state = .waiting) (port : Port) (attention : Attention) :
        workDepart (4 + e) h (s.facing port attention) = (s.facing port attention).checked (departChecks c)
          (((s.facing port attention).departCar (exitLane e) h c).ok
            [c.orders.length, flag (c.lent.any fun x => x.2 == .issuing)]) :=
      (hwork port attention).trans (State.checked_holds _ (beq_iff_eq.mpr hwaiting) _ _ _)
    refine ⟨fun h => denied_of_records rfl hp fun port attention => ?_,
      fun h hc => denied_of_records rfl hp fun port attention => ?_,
      fun h hc hh => denied_of_records rfl hp fun port attention => ?_,
      fun h hc hh hn => denied_of_records rfl hp fun port attention => ?_, fun h hc hh => ?_⟩
    · exact (hwork port attention).trans (State.checked_fails _ (beq_eq_false_iff_ne.mpr h) _ _ _)
    · exact (behind h port attention).trans (State.checked_fails _ (beq_eq_false_iff_ne.mpr hc) _ _ _)
    · refine (behind h port attention).trans (State.checked_of_some _ ?_ _)
      simp [departChecks, hc, hh]
    · obtain ⟨n, hn⟩ := hn
      refine (behind h port attention).trans (State.checked_of_some _ ?_ _)
      simp [departChecks, hc, hh, hn]
    · intro opened
      refine ⟨fun hn => answered_of_records rfl hp (g := fun t => { t with entries := _, lanes := _ }) fun port attention => ?_,
        fun n hn hslot => answered_of_records rfl hp (g := fun t => { t with entries := _, lanes := _, sets := _ })
          fun port attention => ?_⟩
      · refine (behind h port attention).trans ((State.checked_of_none _ ?_ _).trans ?_)
        · rw [departChecks, hc, hh, hn]
          rfl
        · rw [departCar_of_no_set (s := s.facing port attention) hcar hn, hn]
          rfl
      · refine (behind h port attention).trans ((State.checked_of_none _ ?_ _).trans ?_)
        · rw [departChecks, hc, hh, hn]
          rfl
        · rw [departCar_of_issue (s := s.facing port attention) hcar hn hslot, hn]
          rfl

end Sys2Proof.Machine
end

section
/-! PROOF. MOVE ENTRY (O41). -/

namespace Sys2Proof.Machine

variable {s : State}

/-! ### The arguments of MOVE ENTRY (R32, R187) -/

theorem targetOf_fin (f : FieldNo) : targetOf f.val = some (some f) := by
  fin_cases f <;> rfl

theorem targetOf_eq_none_iff {target : Nat} : targetOf target = none ↔ 4 ≤ target ∧ target ≠ 0xFF := by
  unfold targetOf sentinel
  by_cases h : target = 0xFF
  · simp [h]
  · simp [h, handle?]

theorem moveStallOf_self (st : Stall) : moveStallOf st.row st.post = some (some st) :=
  (if_neg (Nat.succ_ne_zero _)).trans (congrArg (Option.map some) (stallOf_self st))

theorem stallOf_eq_none_iff {row post : Nat} : stallOf row post = none ↔ row = 0 ∨ 16 < row ∨ post = 0 ∨ 32 < post := by
  refine ⟨fun h => ?_, stallOf_eq_none⟩
  by_contra hin
  have e : stallOf row post = some ⟨⟨row - 1, by omega⟩, ⟨post - 1, by omega⟩⟩ :=
    stallOf_eq_some_iff.mpr ⟨by simp only [Stall.row]; omega, by simp only [Stall.post]; omega⟩
  exact nomatch h.symm.trans e

theorem moveStallOf_eq_none_iff {row post : Nat} :
    moveStallOf row post = none ↔ row ≠ 0 ∧ (16 < row ∨ post = 0 ∨ 32 < post) := by
  unfold moveStallOf
  by_cases h : row = 0
  · simp [h]
  · simp [h, stallOf_eq_none_iff]

theorem workMoveEntry_of_out_of_range (s : State) {car target row post : Nat}
    (h : 1024 ≤ car ∨ (4 ≤ target ∧ target ≠ 0xFF) ∨ (row ≠ 0 ∧ (16 < row ∨ post = 0 ∨ 32 < post))) :
    workMoveEntry car target row post s = s.deny .badArg := by
  rw [← targetOf_eq_none_iff, ← moveStallOf_eq_none_iff] at h
  unfold workMoveEntry
  split
  · rename_i hcar htarget hstall
    rcases h with h | h | h
    · exact nomatch hcar.symm.trans (handle?_of_ge h)
    · exact nomatch htarget.symm.trans h
    · exact nomatch hstall.symm.trans h
  · rfl

theorem workMoveEntry_of_vacant (s : State) {h : CarHandle} (hcar : s.car h = none) {target row post : Nat}
    (htarget : targetOf target ≠ none) (hstall : moveStallOf row post ≠ none) :
    workMoveEntry h target row post s = s.deny .state := by
  obtain ⟨f, hf⟩ := Option.ne_none_iff_exists'.mp htarget
  obtain ⟨named, hnamed⟩ := Option.ne_none_iff_exists'.mp hstall
  unfold workMoveEntry
  rw [handle?_fin, hf, hnamed]
  exact s.withCar_of_none hcar _

theorem workMoveEntry_of_car (s : State) {h : CarHandle} {c : Car} {f : FieldNo} {target row post : Nat} {named : Option Stall}
    (hcar : s.car h = some c) (htarget : target = f.val ∨ (target = 0xFF ∧ f = c.field))
    (hnamed : moveStallOf row post = some named) :
    workMoveEntry h target row post s = s.checked [(c.held, .state)] (s.moveTo h c f named) := by
  unfold workMoveEntry
  rcases htarget with rfl | ⟨rfl, rfl⟩
  · rw [handle?_fin, targetOf_fin, hnamed]
    exact s.withCar_of_some hcar _
  · rw [handle?_fin, show targetOf 0xFF = some none from rfl, hnamed]
    exact s.withCar_of_some hcar _

/-! ### The move (R15, R33, R34) -/

theorem moveTo_of_stall {h : CarHandle} {c : Car} {f : FieldNo} {named : Option Stall} {st : Stall}
    (hfield : f ≠ c.field → firstFailure (s.crossChecks c f) = none) (hstall : (s.unit f).choose c.cls named = .ok st) :
    s.moveTo h c f named = (s.moveCar h c f st).ok [f.val, st.row, st.post] := by
  unfold State.moveTo
  rw [hstall]
  refine s.checked_of_none ?_ _
  split
  · rfl
  · exact hfield (mt beq_iff_eq.mpr ‹_›)

theorem moveTo_of_no_stall {h : CarHandle} {c : Car} {f : FieldNo} {named : Option Stall} {code : ResultCode}
    (hfield : f ≠ c.field → firstFailure (s.crossChecks c f) = none) (hstall : (s.unit f).choose c.cls named = .error code) :
    s.moveTo h c f named = s.deny code := by
  unfold State.moveTo
  rw [hstall]
  refine s.checked_of_none ?_ _
  split
  · rfl
  · exact hfield (mt beq_iff_eq.mpr ‹_›)

theorem moveTo_of_failure {h : CarHandle} {c : Car} {f : FieldNo} {named : Option Stall} {code : ResultCode}
    (hne : f ≠ c.field) (hfails : firstFailure (s.crossChecks c f) = some code) : s.moveTo h c f named = s.deny code := by
  unfold State.moveTo
  rw [if_neg (mt beq_iff_eq.mp hne)]
  exact s.checked_of_some hfails _

theorem firstFailure_crossChecks {c : Car} {f : FieldNo} : 
    (c.lent ≠ none ∨ c.orders ≠ [] → firstFailure (s.crossChecks c f) = some .crossField) ∧
    (c.lent = none → c.orders = [] →
      ((s.program f).state = .dark ∨ (s.program f).state = .ended → firstFailure (s.crossChecks c f) = some .state) ∧
      ((s.program f).state ≠ .dark → (s.program f).state ≠ .ended → (s.program f).pastCutoff = true →
        firstFailure (s.crossChecks c f) = some .cutoff) ∧
      ((s.program f).state ≠ .dark → (s.program f).state ≠ .ended → (s.program f).pastCutoff = false →
        firstFailure (s.crossChecks c f) = none)) := by
  unfold State.crossChecks
  refine ⟨fun h => ?_, fun hset horders => ⟨fun h => ?_, fun hdark hended hcutoff => ?_, fun hdark hended hcutoff => ?_⟩⟩
  · by_cases hset : c.lent = none
    · have horders : c.orders.isEmpty = false := List.isEmpty_eq_false_iff.mpr (h.resolve_left (not_not.mpr hset))
      rw [hset, horders]
      rfl
    · rw [Option.isNone_eq_false_iff.mpr (Option.isSome_iff_ne_none.mpr hset)]
      rfl
  · rw [hset, horders]
    rcases h with h | h <;> rw [h] <;> rfl
  · rw [hset, horders, (admits_iff _).mpr ⟨hdark, hended⟩, hcutoff]
    rfl
  · rw [hset, horders, (admits_iff _).mpr ⟨hdark, hended⟩, hcutoff]
    rfl

/-- A move writes one entry and the stall maps (R15). -/
theorem moveCar_eq (s : State) (h : CarHandle) (c : Car) (f : FieldNo) (st : Stall) : s.moveCar h c f st =
    { s with
      entries := put s.entries h { s.entry h with car := some { c with field := f, stall := st } }
      fieldUnits := (s.moveCar h c f st).fieldUnits } := by
  unfold State.moveCar
  dsimp only
  split <;> rfl

theorem moveCar_unit_same (s : State) (h : CarHandle) (c : Car) (st : Stall) :
    (s.moveCar h c c.field st).unit c.field =
      (((s.unit c.field).setStall st (some h)).setStall c.stall none).evaluateSign := by
  unfold State.moveCar
  rw [if_pos (beq_self_eq_true _)]
  simp [State.evaluateSign, State.setStall]

theorem moveCar_units_cross (s : State) (h : CarHandle) {c : Car} {f : FieldNo} (hne : f ≠ c.field) (st : Stall) :
    (s.moveCar h c f st).unit f = ((s.unit f).setStall st (some h)).evaluateSign ∧
      (s.moveCar h c f st).unit c.field = ((s.unit c.field).setStall c.stall none).evaluateSign := by
  unfold State.moveCar
  rw [if_neg (mt beq_iff_eq.mp hne)]
  simp [State.evaluateSign, State.setStall, hne, hne.symm]

theorem moveCar_units_others (s : State) (h : CarHandle) (c : Car) (f : FieldNo) (st : Stall) {g : FieldNo} (hg : g ≠ f)
    (hg' : g ≠ c.field) : (s.moveCar h c f st).unit g = s.unit g := by
  unfold State.moveCar
  dsimp only
  split <;> simp [State.evaluateSign, State.setStall, hg.symm, hg'.symm]

/-- Settles O41: the arguments are read back, then the checks of a move to another field, then the stall. -/
theorem moveEntryChangesTheStall : Obligations.MoveEntryChangesTheStall := by
  refine ⟨fun s car target row post hp => ?_, fun s h c target f named hp hcar htarget => ?_⟩
  · intro i outOfRange
    refine ⟨fun h => denied_of_records rfl hp fun _ _ => workMoveEntry_of_out_of_range _ h, fun hin h hh hcar => ?_⟩
    subst hh
    simp only [outOfRange, not_or, ← targetOf_eq_none_iff, ← moveStallOf_eq_none_iff] at hin
    exact denied_of_records rfl hp fun port attention =>
      workMoveEntry_of_vacant (s.facing port attention) hcar hin.2.1 hin.2.2
  · intro i
    obtain ⟨hi, hwork⟩ : i.isFrame = true ∧ ∀ port attention, workOf i (s.facing port attention) =
        (s.facing port attention).checked [(c.held, .state)] ((s.facing port attention).moveTo h c f named) := by
      cases named with
      | none => exact ⟨rfl, fun port attention => workMoveEntry_of_car (s.facing port attention) hcar htarget rfl⟩
      | some st =>
        exact ⟨rfl, fun port attention => workMoveEntry_of_car (s.facing port attention) hcar htarget (moveStallOf_self st)⟩
    have behind (hheld : c.held = true) (port : Port) (attention : Attention) : workOf i (s.facing port attention) =
        (s.facing port attention).moveTo h c f named :=
      (hwork port attention).trans (State.checked_holds _ hheld _ _ _)
    have cross (port : Port) (attention : Attention) := firstFailure_crossChecks (s := s.facing port attention) (c := c) (f := f)
    refine ⟨fun hheld => denied_of_records hi hp fun port attention => ?_,
      fun hheld hne hbound => denied_of_records hi hp fun port attention => ?_,
      fun hheld hne hset horders => ⟨fun hstate => denied_of_records hi hp fun port attention => ?_,
        fun hdark hended hcutoff => denied_of_records hi hp fun port attention => ?_⟩, fun hheld hfield => ?_⟩
    · exact (hwork port attention).trans (State.checked_fails _ hheld _ _ _)
    · exact (behind hheld port attention).trans (moveTo_of_failure hne ((cross port attention).1 hbound))
    · exact (behind hheld port attention).trans
        (moveTo_of_failure hne (((cross port attention).2 hset horders).1 hstate))
    · exact (behind hheld port attention).trans
        (moveTo_of_failure hne (((cross port attention).2 hset horders).2.1 hdark hended hcutoff))
    have holds (port : Port) (attention : Attention) (hne : f ≠ c.field) :
        firstFailure ((s.facing port attention).crossChecks c f) = none := by
      obtain ⟨hset, horders, hcutoff, hdark, hended⟩ := hfield hne
      exact ((cross port attention).2 hset horders).2.2 hdark hended hcutoff
    refine ⟨fun code hcode => denied_of_records hi hp fun port attention =>
        (behind hheld port attention).trans (moveTo_of_no_stall (holds port attention) hcode),
      fun st hst => ⟨(s.atWork i).moveCar h c f st, answered_of_records hi hp (g := fun t => t.moveCar h c f st)
        fun port attention => (behind hheld port attention).trans (moveTo_of_stall (holds port attention) hst), ?_⟩⟩
    obtain ⟨port, attention, e⟩ := s.atWork_shape i
    rw [e]
    refine ⟨moveCar_eq (s.facing port attention) h c f st, fun hf => ?_, fun hne => moveCar_units_cross (s.facing port attention) h hne st,
      fun g hg hg' => moveCar_units_others (s.facing port attention) h c f st hg hg'⟩
    subst hf
    exact moveCar_unit_same (s.facing port attention) h c st

end Sys2Proof.Machine
end

section
/-! PROOF. The timers of trips, issues and orders (O60); REMOVE SET and LEND SET (O46). -/

namespace Sys2Proof.Machine

variable {s : State}

/-! ### Timers that run out -/

theorem gatherExpiry_stopped {k : TripHandle} (h : (s.trip k).state ≠ .gathering ∨ (s.trip k).timer = none) :
    s.gatherExpiry k = s := by
  refine if_neg fun hruns => ?_
  rw [Bool.and_eq_true, beq_iff_eq, Option.isSome_iff_ne_none] at hruns
  exact h.elim (· hruns.1) hruns.2

theorem gatherExpiry_running {k : TripHandle} (hstate : (s.trip k).state = .gathering) (htimer : (s.trip k).timer ≠ none) :
    s.gatherExpiry k = s.closeTrip k :=
  if_pos (by rw [Bool.and_eq_true, beq_iff_eq, Option.isSome_iff_ne_none]; exact ⟨hstate, htimer⟩)

theorem issueExpiry_stopped {n : SetHandle} (h : (s.slot n).state ≠ .issuing ∨ (s.slot n).timer = none) :
    s.issueExpiry n = s := by
  refine if_neg fun hruns => ?_
  rw [Bool.and_eq_true, beq_iff_eq, Option.isSome_iff_ne_none] at hruns
  exact h.elim (· hruns.1) hruns.2

/-- An issue whose timer runs: the set by charge, the car touched, the timeout counted, SET raised (R121). -/
theorem issueExpiry_running {n : SetHandle} {h : CarHandle} {c : Car} (hstate : (s.slot n).state = .issuing)
    (htimer : (s.slot n).timer ≠ none) (hset : (s.slot n).car = some h) (hcar : s.car h = some c) : s.issueExpiry n =
      { s with
        sets := put s.sets n { s.slot n with state := s.byCharge (s.slot n).charge, car := none, timer := none }
        entries := put s.entries h { car := some { c with lent := none }, touched := true }
        tallies := put s.tallies (Tally.sets .issueTimeouts).index (min 65535 (s.tally (.sets .issueTimeouts) + 1))
        attention :=
          { s.attention with
            causes := s.attention.causes ||| 0x110#10, setKinds := s.attention.setKinds ||| 1#3 } } := by
  have hruns : ((s.slot n).state == .issuing && (s.slot n).timer.isSome) = true := by
    rw [Bool.and_eq_true, beq_iff_eq, Option.isSome_iff_ne_none]
    exact ⟨hstate, htimer⟩
  have hcauses : s.attention.causes ||| 0x100#10 ||| 0x10#10 = s.attention.causes ||| 0x110#10 :=
    BitVec.or_assoc _ _ _
  refine (if_pos hruns).trans ?_
  rw [hset, State.touchCar_cancelIssue hset hcar, ← hcauses]
  rfl

theorem prepExpiry_stopped {o : OrderHandle} (h : ∀ ord, s.order o = some ord → ord.timer = none) : s.prepExpiry o = s := by
  unfold State.prepExpiry
  cases ho : s.order o with
  | none => rfl
  | some ord => exact if_neg (by simp [h ord ho])

theorem prepExpiry_running {o : OrderHandle} {ord : Order} (ho : s.order o = some ord) (h : ord.timer ≠ none) :
    s.prepExpiry o = ((s.setOrder o (some { ord with late := true, timer := none })).count (.kitchen .late)).raiseOrder o
      .late := by
  unfold State.prepExpiry
  rw [ho]
  exact if_pos (Option.isSome_iff_ne_none.mpr h)

/-- Settles O60: each timer by what its record holds. -/
theorem timersRunOut : Obligations.TimersRunOut := by
  refine fun s => ⟨fun k => ⟨fun h => congrArg Host.Outcome.next (gatherExpiry_stopped h), fun f hstate htimer hfield => ?_⟩,
    fun n => ⟨fun h => congrArg Host.Outcome.next (issueExpiry_stopped h), fun h c hstate htimer hset hcar =>
      congrArg Host.Outcome.next (issueExpiry_running hstate htimer hset hcar)⟩,
    fun o => ⟨fun h => congrArg Host.Outcome.next (prepExpiry_stopped h), fun ord ho htimer => ?_⟩⟩
  · intro p allowed
    have hcloses : s.gatherExpiry k = if (s.program f).runnersAllowed then s.dispatch k
        else { s with trips := put s.trips k { s.trip k with state := .fieldHold, timer := none } } :=
      (gatherExpiry_running hstate htimer).trans (s.closeTrip_spec k f hfield)
    have hallowed : (s.program f).runnersAllowed = true ↔ allowed := (s.program f).runnersAllowed_iff
    refine ⟨fun h => congrArg Host.Outcome.next (hcloses.trans (if_neg (mt hallowed.mp h))), fun h => ?_⟩
    obtain ⟨horders, hdispatch⟩ := s.dispatch_spec k
    exact ⟨s.dispatch k, congrArg Host.Outcome.next (hcloses.trans (if_pos (hallowed.mpr h))), horders, hdispatch⟩
  · exact congrArg Host.Outcome.next ((prepExpiry_running ho htimer).trans (State.raiseOrder_eq _ o .late))

/-! ### REMOVE SET (R117) -/

/-- The slot free and its bay empty (R117). -/
theorem clearBay_setSlot (s : State) (n : SetHandle) (x : SetSlot) : (s.clearBay n).setSlot n x =
    { s with
      bays := (s.clearBay n).bays
      sets := put s.sets n x } := by
  unfold State.clearBay
  cases (s.slot n).bay with
  | none => rfl
  | some b => exact congrArg (fun v : Vector SetSlot 128 => ({ s.setBay b none with sets := v } : State)) (put_put _ _ _ _)

theorem workRemoveSet_of_slot (s : State) (n : SetHandle) : workRemoveSet n s =
    s.checked [((s.slot n).enrolled, .notFound), ((s.slot n).state != .issuing && (s.slot n).state != .lent, .state)]
      (((s.clearBay n).setSlot n {}).ok) := s.withHandle_fin n _

/-! ### LEND SET (R118, R119) -/

/-- A READY set that no READY set of a list comes before: fuller sets first, of equals the lower handle (R119). -/
def State.FullestIn (s : State) (ns : List SetHandle) (n : SetHandle) : Prop :=
  (n ∈ ns ∧ (s.slot n).state = .ready) ∧ ∀ m ∈ ns, (s.slot m).state = .ready →
    (s.slot m).charge < (s.slot n).charge ∨ ((s.slot m).charge = (s.slot n).charge ∧ n ≤ m)

/-- What the search over a list of slots has found: nothing where none is READY, else the fullest. -/
def State.Found (s : State) (ns : List SetHandle) (best : Option SetHandle) : Prop :=
  (best = none → ∀ m ∈ ns, (s.slot m).state ≠ .ready) ∧ ∀ n, best = some n → s.FullestIn ns n

theorem found_fuller {ns : List SetHandle} {best : Option SetHandle} {k : SetHandle} (h : s.Found ns best)
    (hbehind : ∀ m ∈ ns, m < k) : s.Found (ns ++ [k]) (fuller s best k) := by
  have hall {p : SetHandle → Prop} : (∀ m ∈ ns ++ [k], p m) ↔ (∀ m ∈ ns, p m) ∧ p k := by simp [or_imp, forall_and]
  obtain ⟨hnone, hsome⟩ := h
  unfold fuller
  by_cases hk : (s.slot k).state = .ready
  · rw [if_neg (by simp [hk])]
    cases best with
    | none =>
      refine ⟨fun e => (nomatch e), fun n e => ?_⟩
      cases e
      refine ⟨⟨List.mem_concat_self, hk⟩, hall.mpr ⟨?_, fun _ => .inr ⟨rfl, le_refl k⟩⟩⟩
      exact fun m hm hready => absurd hready (hnone rfl m hm)
    | some b =>
      obtain ⟨⟨hb, hready⟩, hfirst⟩ := hsome b rfl
      dsimp only
      split
      · rename_i hlt
        refine ⟨fun e => (nomatch e), fun n e => ?_⟩
        cases e
        refine ⟨⟨List.mem_concat_self, hk⟩, hall.mpr ⟨?_, fun _ => .inr ⟨rfl, le_refl k⟩⟩⟩
        refine fun m hm hm' => .inl ?_
        have := hfirst m hm hm'
        omega
      · rename_i hge
        refine ⟨fun e => (nomatch e), fun n e => ?_⟩
        cases e
        refine ⟨⟨List.mem_append_left _ hb, hready⟩, hall.mpr ⟨hfirst, ?_⟩⟩
        intro _
        exact (Nat.lt_or_eq_of_le (not_lt.mp hge)).imp_right fun e => ⟨e, le_of_lt (hbehind b hb)⟩
  · rw [if_pos (bne_iff_ne.mpr hk)]
    refine ⟨fun e => hall.mpr ⟨hnone e, hk⟩, fun n e => ?_⟩
    obtain ⟨⟨hn, hready⟩, hfirst⟩ := hsome n e
    exact ⟨⟨List.mem_append_left _ hn, hready⟩, hall.mpr ⟨hfirst, fun h => absurd h hk⟩⟩

theorem found_foldl {ns : List SetHandle} (hns : ns.Pairwise (· < ·)) : s.Found ns (ns.foldl (fuller s) none) := by
  induction ns using List.reverseRecOn with
  | nil => exact ⟨fun _ m hm => (nomatch hm), fun n e => nomatch e⟩
  | append_singleton rest k ih =>
    obtain ⟨hrest, -, hk⟩ := List.pairwise_append.mp hns
    rw [List.foldl_append]
    exact found_fuller (ih hrest) fun m hm => hk m hm k (List.mem_singleton_self k)

theorem chooseSet_found (s : State) : s.Found (List.finRange 128) s.chooseSet := found_foldl (List.pairwise_lt_finRange 128)

theorem chooseSet_eq_none (h : ∀ n, (s.slot n).state ≠ .ready) : s.chooseSet = none := by
  cases e : s.chooseSet with
  | none => rfl
  | some n =>
    obtain ⟨⟨-, hready⟩, -⟩ := (chooseSet_found s).2 n e
    exact absurd hready (h n)

theorem chooseSet_eq_some {n : SetHandle} (hready : (s.slot n).state = .ready)
    (hfirst : ∀ m, (s.slot m).state = .ready →
      (s.slot m).charge < (s.slot n).charge ∨ ((s.slot m).charge = (s.slot n).charge ∧ n ≤ m)) : s.chooseSet = some n := by
  cases e : s.chooseSet with
  | none => exact absurd hready ((chooseSet_found s).1 e n (List.mem_finRange n))
  | some m =>
    obtain ⟨⟨-, hm⟩, hbest⟩ := (chooseSet_found s).2 m e
    have hmn := hbest n (List.mem_finRange n) hready
    have hnm := hfirst m hm
    rcases hmn with hmn | ⟨heq, hmn⟩ <;> rcases hnm with hnm | ⟨heq', hnm⟩
    · omega
    · omega
    · omega
    · exact congrArg some (le_antisymm hmn hnm)

/-- LEND SET behind its checks: the chosen set is issued, if there is one (R119). -/
def State.lendChosen (s : State) (h : CarHandle) (c : Car) : Answer :=
  match s.chooseSet with
  | none => s.deny .noSet
  | some n =>
    (s.issueSet n h c).ok [n.val, optByte ((s.slot n).bay.map Fin.val), optByte (s.unit c.field).channel, s.issueTime]

theorem workLendSet_of_car (s : State) {h : CarHandle} {c : Car} (hcar : s.car h = some c) :
    workLendSet h s = s.checked (s.lendChecks c) (s.lendChosen h c) := by
  cases hchosen : s.chooseSet <;> simp only [workLendSet, State.lendChosen, s.withHandle_fin, hcar, hchosen]

theorem lendChosen_none (h : CarHandle) (c : Car) (hnone : s.chooseSet = none) : s.lendChosen h c = s.deny .noSet := by
  unfold State.lendChosen
  rw [hnone]

theorem lendChosen_some (h : CarHandle) (c : Car) {n : SetHandle} (hsome : s.chooseSet = some n) : s.lendChosen h c =
    (s.issueSet n h c).ok
      [n.val, optByte ((s.slot n).bay.map Fin.val), optByte (s.unit c.field).channel, s.issueTime] := by
  unfold State.lendChosen
  rw [hsome]

theorem issueSet_eq {n : SetHandle} {h : CarHandle} {c : Car} (hcar : s.car h = some c) : s.issueSet n h c =
    { s with
      sets := put s.sets n { s.slot n with
        state := .issuing, car := some h, channel := (s.unit c.field).channel, timer := some (s.issueTime * 1000) }
      entries := put s.entries h { s.entry h with car := some { c with lent := some (n, .issuing) } } } :=
  modCar_eq (s := s.setSlot n _) hcar _

/-- The checks of LEND SET, by what of them fails (R118). -/
theorem firstFailure_lendChecks {c : Car} :
    (c.state ≠ .present → firstFailure (s.lendChecks c) = some .state) ∧
    (c.state = .present → c.held = true → firstFailure (s.lendChecks c) = some .editing) ∧
    (c.state = .present → c.held = false → c.lent ≠ none → firstFailure (s.lendChecks c) = some .setOut) ∧
    (c.state = .present → c.held = false → c.lent = none →
      ((s.program c.field).state = .ended → firstFailure (s.lendChecks c) = some .showOver) ∧
      ((s.program c.field).state ≠ .ended →
        (4 ≤ s.issuingCount → firstFailure (s.lendChecks c) = some .issueLimit) ∧
        (s.issuingCount < 4 → firstFailure (s.lendChecks c) = none))) := by
  unfold State.lendChecks
  refine ⟨fun h => ?_, fun hc hh => ?_, fun hc hh hset => ?_, fun hc hh hset => ⟨fun h => ?_, fun h => ⟨fun h4 => ?_, fun h4 => ?_⟩⟩⟩
  · rw [beq_eq_false_iff_ne.mpr h]
    rfl
  · rw [hc, hh]
    rfl
  · rw [hc, hh, Option.isNone_eq_false_iff.mpr (Option.isSome_iff_ne_none.mpr hset)]
    rfl
  · rw [hc, hh, hset, h]
    rfl
  · rw [hc, hh, hset, bne_iff_ne.mpr h, decide_eq_false (not_lt.mpr h4)]
    rfl
  · rw [hc, hh, hset, bne_iff_ne.mpr h, decide_eq_true h4]
    rfl

/-- Settles O46: REMOVE SET by the slot's state, LEND SET by its checks and the fullest READY set. -/
theorem setsAreRemovedAndLent : Obligations.SetsAreRemovedAndLent := by
  refine fun s hp => ⟨fun slot car => ⟨fun h => ?_, fun h => ?_, fun h hh hcar => ?_⟩, fun n => ⟨fun h => ?_, fun h => ?_, fun h h' h'' => ?_⟩,
    fun h c => ?_⟩
  · exact denied_of_records rfl hp fun _ _ => State.withHandle_of_ge _ h _
  · exact denied_of_records rfl hp fun _ _ => State.withHandle_of_ge _ h _
  · subst hh
    refine denied_of_records rfl hp fun port attention => ((s.facing port attention).withHandle_fin h _).trans ?_
    rw [show (s.facing port attention).car h = none from hcar]
  · exact denied_of_records rfl hp fun port attention => (workRemoveSet_of_slot (s.facing port attention) n).trans
      (State.checked_fails _ (SetSlot.enrolled_eq_false _ |>.mpr h) _ _ _)
  · refine denied_of_records rfl hp fun port attention => (workRemoveSet_of_slot (s.facing port attention) n).trans
      ((State.checked_holds _ (SetSlot.enrolled_eq_true _ |>.mpr ?_) _ _ _).trans (State.checked_fails _ ?_ _ _ _))
    · rcases h with h | h <;> exact fun e => nomatch h.symm.trans e
    · rcases h with h | h <;> exact (congrArg (fun x : SetState => x != .issuing && x != .lent) h)
  · refine answered_of_records rfl hp (g := fun t => { t with bays := _, sets := _ }) fun port attention =>
      (workRemoveSet_of_slot (s.facing port attention) n).trans ((State.checked_of_none _ ?_ _).trans ?_)
    · refine (firstFailure_eq_none _).mpr ?_
      simp only [List.forall_mem_cons, SetSlot.enrolled_eq_true, Bool.and_eq_true, bne_iff_ne]
      exact ⟨h, ⟨h', h''⟩, fun x hx => nomatch hx⟩
    · have hbays : ((s.facing port attention).clearBay n).bays = match (s.slot n).bay with
          | none => s.bays
          | some b => put s.bays b none := by
        show (State.clearBay (s.facing port attention) n).bays = _
        unfold State.clearBay
        rw [show ((s.facing port attention).slot n).bay = (s.slot n).bay from rfl]
        cases (s.slot n).bay <;> rfl
      exact congrArg (State.ok · _) ((clearBay_setSlot (s.facing port attention) n {}).trans
        (congrArg (fun v : Vector (Option SetHandle) 128 => ({ s.facing port attention with bays := v, sets := _ } : State)) hbays))
  · intro i issuing hcar
    have hwork (port : Port) (attention : Attention) : workOf i (s.facing port attention) = _ :=
      workLendSet_of_car (s.facing port attention) hcar
    have checks (port : Port) (attention : Attention) := firstFailure_lendChecks (s := s.facing port attention) (c := c)
    have refused {code : ResultCode} (h : ∀ port attention,
        firstFailure ((s.facing port attention).lendChecks c) = some code) : Denied i s code :=
      denied_of_records rfl hp fun port attention => (hwork port attention).trans (State.checked_of_some _ (h port attention) _)
    refine ⟨fun h => refused fun port attention => (checks port attention).1 h,
      fun hc hh => refused fun port attention => (checks port attention).2.1 hc hh,
      fun hc hh hset => refused fun port attention => (checks port attention).2.2.1 hc hh hset,
      fun hc hh hset h => refused fun port attention => ((checks port attention).2.2.2 hc hh hset).1 h,
      fun hc hh hset h => ⟨fun h4 => refused fun port attention => (((checks port attention).2.2.2 hc hh hset).2 h).1 h4,
        fun h4 hnone => denied_of_records rfl hp fun port attention => (hwork port attention).trans
          ((State.checked_of_none _ ((((checks port attention).2.2.2 hc hh hset).2 h).2 h4) _).trans
            (lendChosen_none _ c (chooseSet_eq_none (s := s.facing port attention) hnone))),
        fun n h4 hready hfirst => ?_⟩⟩
    refine answered_of_records rfl hp (g := fun t => { t with sets := _, entries := _ }) fun port attention =>
      (hwork port attention).trans ((State.checked_of_none _ ((((checks port attention).2.2.2 hc hh hset).2 h).2 h4) _).trans
        ((lendChosen_some _ c (chooseSet_eq_some (s := s.facing port attention) hready hfirst)).trans
          (congrArg (State.ok · _) (issueSet_eq (s := s.facing port attention) hcar))))

end Sys2Proof.Machine
end

section
/-! PROOF. DOCK IN and DOCK OUT (O47): what a set that arrives, one that is displaced, and a lend's completion write. -/

namespace Sys2Proof.Machine

variable {s : State}

/-! ### A car that loses its set (R114, R120) -/

/-- A car's entry loses its set and is touched, where there is a car (R40, R120). -/
def State.parted (s : State) (car : Option CarHandle) : State :=
  { s with
    entries := match car with
      | none => s.entries
      | some h => put s.entries h { car := (s.car h).map fun c => { c with lent := none }, touched := true }
    attention := if car = none then s.attention else { s.attention with causes := s.attention.causes ||| 0x100#10 } }

theorem parted_none (s : State) : s.parted none = s := rfl

theorem parted_entry (s : State) (car : Option CarHandle) (h : CarHandle) : (s.parted car).entry h =
    if car = some h then { car := (s.car h).map fun c => { c with lent := none }, touched := true } else s.entry h := by
  cases car with
  | none => rfl
  | some k =>
    refine (look_put _ _ _ _).trans ?_
    by_cases e : k = h
    · subst e
      rw [if_pos rfl, if_pos rfl]
    · rw [if_neg e, if_neg (fun e' => e (Option.some.inj e'))]
      rfl

theorem parted_frame (s : State) (car : Option CarHandle) : s.parted car =
    { s with entries := (s.parted car).entries, attention := (s.parted car).attention } := rfl

theorem State.slot_of_parted (s : State) (car : Option CarHandle) (n : SetHandle) : (s.parted car).slot n = s.slot n := rfl

theorem touchCar_setCarSet_none (s : State) (car : Option CarHandle) : (s.setCarSet car none).touchCar car = s.parted car := by
  cases car with
  | none => rfl
  | some h =>
    refine congrArg (fun v : Vector Entry 1024 => ({ s with entries := v, attention := _ } : State)) ?_
    refine (put_put _ h _ _).trans (congrArg (put s.entries h) ?_)
    rw [Entry.mk.injEq]
    exact ⟨State.car_setCar_self _ h _, rfl⟩

/-- A cancelled issue whose car is told: the set by charge, its car without it and touched (R120). -/
theorem endIssue_eq (s : State) (n : SetHandle) : (s.cancelIssue n).touchCar (s.slot n).car =
    (s.setSlot n { s.slot n with state := s.byCharge (s.slot n).charge, car := none, timer := none }).parted (s.slot n).car :=
  touchCar_setCarSet_none _ _

/-- A set that has no car and no timer is as it is without them. -/
theorem SetSlot.without_car {x : SetSlot} (hcar : x.car = none) (htimer : x.timer = none) (st : SetState) (bay : Option BayNo)
    (charge : Nat) : { x with state := st, bay := bay, charge := charge, car := none, timer := none } =
      { x with state := st, bay := bay, charge := charge } := by
  rw [SetSlot.mk.injEq]
  exact ⟨rfl, rfl, rfl, rfl, hcar.symm, rfl, htimer.symm⟩

/-! ### Bays -/

/-- The bay map with the bay that a set stood in empty (R113). -/
def emptied (bays : Vector (Option SetHandle) 128) (old : Option BayNo) : Vector (Option SetHandle) 128 :=
  match old with
  | none => bays
  | some b => put bays b none

theorem look_emptied (bays : Vector (Option SetHandle) 128) (old : Option BayNo) (b : BayNo) :
    look (emptied bays old) b = if old = some b then none else look bays b := by
  cases old with
  | none => rfl
  | some b' => exact (look_put _ _ _ _).trans (if_congr ⟨congrArg some, Option.some.inj⟩ rfl rfl)

theorem clearBay_eq (s : State) (n : SetHandle) : s.clearBay n =
    { s with sets := put s.sets n { s.slot n with bay := none }, bays := emptied s.bays (s.slot n).bay } := by
  have hframe : s.clearBay n = { s with sets := (s.clearBay n).sets, bays := (s.clearBay n).bays } := by
    unfold State.clearBay
    split <;> rfl
  have hbays : (s.clearBay n).bays = emptied s.bays (s.slot n).bay := by
    unfold State.clearBay
    cases (s.slot n).bay <;> rfl
  rw [hframe, clearBay_sets, hbays]

theorem dockAt_eq (s : State) (n : SetHandle) (b : BayNo) (level : Nat) : s.dockAt n b level =
    { s with
      sets := put s.sets n { s.slot n with charge := level, bay := some b }
      bays := put (emptied s.bays (s.slot n).bay) b (some n) } := by
  have hframe : s.dockAt n b level =
      { (s.setSlot n { s.slot n with charge := level }).clearBay n with
        sets := (s.dockAt n b level).sets
        bays := put ((s.setSlot n { s.slot n with charge := level }).clearBay n).bays b (some n) } := rfl
  rw [hframe, dockAt_sets, clearBay_eq, State.slot_setSlot_self]
  rfl

theorem dockByCharge_eq (s : State) (n : SetHandle) (b : BayNo) (level : Nat) : s.dockByCharge n b level =
    { s with
      sets := put s.sets n { s.slot n with charge := level, bay := some b, state := s.byCharge level }
      bays := put (emptied s.bays (s.slot n).bay) b (some n) } := by
  have hframe : s.dockByCharge n b level = { s.dockAt n b level with sets := (s.dockByCharge n b level).sets } := rfl
  rw [hframe, dockByCharge_sets, dockAt_eq]

/-! ### A set displaced (R122) -/

/-- A set that is found in a bay is out of it, ABSENT or FAULTY, without a car, which is told (R122). -/
theorem displace_eq (h : SetLaw s) {m : SetHandle} {b : BayNo} (hbay : (s.slot m).bay = some b) : s.displace m =
    ({ s with
      sets := put s.sets m
        { s.slot m with
          state := if (s.slot m).state = .faulty then .faulty else .absent
          bay := none, car := none, timer := none }
      bays := put s.bays b none } : State).parted (s.slot m).car := by
  have hstands : (s.slot m).state.docks = true ∨ (s.slot m).state = .faulty := by
    by_contra hno
    rw [not_or, Bool.not_eq_true] at hno
    exact nomatch (h.undocked m hno.1 hno.2).symm.trans hbay
  have leave (t : State) (hslot : (t.slot m).bay = some b) :
      (t.clearBay m).setSlot m { (t.clearBay m).slot m with state := .absent } =
        { t with sets := put t.sets m { t.slot m with state := .absent, bay := none }, bays := put t.bays b none } := by
    rw [clearBay_slot, if_pos rfl, clearBay_setSlot, clearBay_eq, hslot]
    rfl
  unfold State.displace
  dsimp only
  cases hstate : (s.slot m).state with
  | issuing =>
    dsimp only
    rw [endIssue_eq, leave]
    · refine congrArg (fun v : Vector SetSlot 128 => State.parted { s with sets := v, bays := put s.bays b none } (s.slot m).car) ?_
      refine (put_put s.sets m _ _).trans (congrArg (put s.sets m) ?_)
      rw [State.slot_of_parted, State.slot_setSlot_self]
      rfl
    · rw [State.slot_of_parted, State.slot_setSlot_self]
      exact hbay
  | ready =>
    dsimp only
    have hcar := h.car_none (n := m) (by simp [hstate]) (by simp [hstate])
    rw [leave s hbay, hcar]
    exact congrArg (fun y : SetSlot => ({ s with sets := put s.sets m y, bays := put s.bays b none } : State))
      (SetSlot.without_car hcar (h.timer_none (n := m) (by simp [hstate])) .absent none _).symm
  | charging =>
    dsimp only
    have hcar := h.car_none (n := m) (by simp [hstate]) (by simp [hstate])
    rw [leave s hbay, hcar]
    exact congrArg (fun y : SetSlot => ({ s with sets := put s.sets m y, bays := put s.bays b none } : State))
      (SetSlot.without_car hcar (h.timer_none (n := m) (by simp [hstate])) .absent none _).symm
  | faulty =>
    dsimp only
    have hcar := h.car_none (n := m) (by simp [hstate]) (by simp [hstate])
    rw [clearBay_eq, hbay, hcar]
    refine congrArg (fun y : SetSlot => ({ s with sets := put s.sets m y, bays := put s.bays b none } : State)) ?_
    refine Eq.trans ?_ (SetSlot.without_car hcar (h.timer_none (n := m) (by simp [hstate])) .faulty none _).symm
    rw [← hstate]
  | _ =>
    rw [hstate] at hstands
    exact hstands.elim (fun e => nomatch e) (fun e => nomatch e)

/-! ### A set that arrives (R123) -/

/-- A set that has lost its car is docked by charge (R123). -/
theorem dockByCharge_parted (s : State) (n : SetHandle) (y : SetSlot) (car : Option CarHandle) (b : BayNo) (level : Nat) :
    ((s.setSlot n y).parted car).dockByCharge n b level =
      ({ s with
        sets := put s.sets n { y with charge := level, bay := some b, state := s.byCharge level }
        bays := put (emptied s.bays y.bay) b (some n) } : State).parted car := by
  have hslot : ((s.setSlot n y).parted car).slot n = y := look_put_self _ _ _
  rw [dockByCharge_eq, hslot]
  exact congrArg (fun v : Vector SetSlot 128 => State.parted { s with sets := v, bays := put (emptied s.bays y.bay) b (some n) } car)
    (put_put s.sets n y _)

/-- The set as DOCK IN leaves it: in the bay, with the reported charge, without a car (R123). -/
def SetSlot.dockedAs (x : SetSlot) (st : SetState) (b : BayNo) (level : Nat) : SetSlot :=
  { x with state := st, bay := some b, charge := level, car := none, timer := none }

/-- A known set stands in the bay where it is reported, by charge or FAULTY, without a car, which is told; a LENT one is
counted (R123). -/
theorem arrive_eq {n : SetHandle} (hn : (s.slot n).state ≠ .unenrolled)
    (hcar : (s.slot n).state ≠ .issuing → (s.slot n).state ≠ .lent → (s.slot n).car = none)
    (htimer : (s.slot n).state ≠ .issuing → (s.slot n).timer = none) (b : BayNo) (level : Nat) : s.arrive n b level =
    ({ s with
      sets := put s.sets n
        ((s.slot n).dockedAs (if (s.slot n).state = .faulty then .faulty else s.byCharge level) b level)
      bays := put (emptied s.bays (s.slot n).bay) b (some n)
      tallies :=
        if (s.slot n).state = .lent then
          put s.tallies (Tally.sets .returns).index (min 65535 (s.tally (.sets .returns) + 1))
        else s.tallies } : State).parted (s.slot n).car := by
  have docked (hissuing : (s.slot n).state ≠ .issuing) (hlent : (s.slot n).state ≠ .lent) (st : SetState) :
      ({ s with
        sets := put s.sets n { s.slot n with state := st, bay := some b, charge := level }
        bays := put (emptied s.bays (s.slot n).bay) b (some n) } : State) =
      ({ s with
        sets := put s.sets n ((s.slot n).dockedAs st b level)
        bays := put (emptied s.bays (s.slot n).bay) b (some n) } : State).parted (s.slot n).car := by
    rw [hcar hissuing hlent, SetSlot.dockedAs, SetSlot.without_car (hcar hissuing hlent) (htimer hissuing)]
    rfl
  unfold State.arrive
  dsimp only
  cases hstate : (s.slot n).state with
  | issuing =>
    dsimp only
    rw [endIssue_eq, dockByCharge_parted]
    rfl
  | lent =>
    dsimp only
    have htimer := htimer (by simp [hstate])
    rw [touchCar_setCarSet_none, dockByCharge_parted, if_pos rfl, if_neg (by simp), SetSlot.dockedAs, ← htimer]
    rfl
  | faulty =>
    dsimp only
    rw [dockAt_eq, if_neg (by simp), if_pos rfl]
    refine Eq.trans ?_ (docked (by simp [hstate]) (by simp [hstate]) .faulty)
    rw [← hstate]
  | unenrolled => exact absurd hstate hn
  | absent | charging | ready | lost =>
    dsimp only
    rw [dockByCharge_eq, if_neg (by simp), if_neg (by simp)]
    exact docked (by simp [hstate]) (by simp [hstate]) _

/-! ### DOCK IN (R122, R123) -/

/-- The set as a displacement leaves it (R122). -/
def SetSlot.displaced (x : SetSlot) : SetSlot :=
  { x with state := if x.state = .faulty then .faulty else .absent, bay := none, car := none, timer := none }

/-- The car that a set names, where there is a set. -/
def State.carOfSet (s : State) (m : Option SetHandle) : Option CarHandle := m.bind fun m => (s.slot m).car

/-- What the displacement of a set found in a bay leaves, if one is found there (R122). -/
structure Undocked (s u : State) (b : BayNo) (other : Option SetHandle) : Prop where
  slots : ∀ m, u.slot m = if other = some m then (s.slot m).displaced else s.slot m
  bays : ∀ b', b' ≠ b → u.bay b' = s.bay b'
  entries : ∀ h, u.entry h = if s.carOfSet other = some h then
    { car := (s.car h).map fun c => { c with lent := none }, touched := true } else s.entry h
  attention : u.attention = if s.carOfSet other = none then s.attention else
    { s.attention with causes := s.attention.causes ||| 0x100#10 }
  frame : u = { s with sets := u.sets, bays := u.bays, entries := u.entries, attention := u.attention }

theorem displacedBy_eq (s : State) (n : SetHandle) (b : BayNo) :
    s.displacedBy n b = if s.bay b = some n then none else s.bay b := by
  unfold State.displacedBy
  cases s.bay b with
  | none => rfl
  | some m =>
    by_cases e : m = n
    · subst e
      rw [if_pos rfl]
      exact if_pos (beq_self_eq_true m)
    · rw [if_neg fun e' => e (Option.some.inj e')]
      exact if_neg (mt beq_iff_eq.mp e)

theorem undockFrom_undocked (h : SetLaw s) (n : SetHandle) (b : BayNo) :
    Undocked s (s.undockFrom (s.displacedBy n b)) b (s.displacedBy n b) := by
  have hbay (m : SetHandle) (e : s.displacedBy n b = some m) : (s.slot m).bay = some b := by
    rw [displacedBy_eq] at e
    split at e
    · cases e
    · exact (h.bays b m).mp e
  cases hother : s.displacedBy n b with
  | none => exact ⟨fun _ => rfl, fun _ _ => rfl, fun _ => rfl, rfl, rfl⟩
  | some m =>
    rw [State.undockFrom, displace_eq h (hbay m hother)]
    refine ⟨fun j => ?_, fun b' hb => look_put_ne _ _ (Ne.symm hb), fun k => parted_entry _ _ k, rfl, rfl⟩
    refine (look_put s.sets m j _).trans ?_
    by_cases e : m = j
    · subst e
      rw [if_pos rfl, if_pos rfl]
      rfl
    · rw [if_neg e, if_neg fun e' => e (Option.some.inj e')]
      rfl

theorem workDockIn_of_range (s : State) (b : BayNo) {serial level : Nat} (hserial : serial ≠ 0) (hlevel : level ≤ 100) :
    (s.holderOf serial = none → workDockIn b serial level s = (s.raiseSet .foreign).deny .unknownSet) ∧
    ∀ n, s.holderOf serial = some n → workDockIn b serial level s =
      ((s.undockFrom (s.displacedBy n b)).arrive n b level).ok
        [n.val, dockInOutcome (s.slot n) b,
          setStateCode (((s.undockFrom (s.displacedBy n b)).arrive n b level).slot n).state,
          optByte ((s.displacedBy n b).map Fin.val)] := by
  have hrange : dockInRanges serial level = true := by
    rw [dockInRanges, bne_iff_ne.mpr hserial, decide_eq_true hlevel]
    rfl
  unfold workDockIn
  rw [s.withHandle_fin, s.checked_holds hrange]
  exact ⟨fun e => by rw [e]; rfl, fun n e => by rw [e]; rfl⟩

theorem holderOf_eq_some (h : SetLaw s) {serial : Nat} {n : SetHandle} (hn : (s.slot n).state ≠ .unenrolled)
    (hserial : (s.slot n).serial = serial) : s.holderOf serial = some n := by
  refine lowest_eq_some_iff.mpr ⟨?_, fun j hj => ?_⟩
  · rw [Bool.and_eq_true, beq_iff_eq]
    exact ⟨(SetSlot.enrolled_iff _).mpr hn, hserial⟩
  · rw [Bool.eq_false_iff, ne_eq, Bool.and_eq_true, beq_iff_eq]
    rintro ⟨hj', e⟩
    exact (ne_of_lt hj) (h.serials j n hj' ((SetSlot.enrolled_iff _).mpr hn) (e.trans hserial.symm))

theorem holderOf_eq_none {serial : Nat} (h : ∀ n, (s.slot n).state ≠ .unenrolled → (s.slot n).serial ≠ serial) :
    s.holderOf serial = none := by
  refine lowest_eq_none.mpr fun n => ?_
  rw [Bool.eq_false_iff, ne_eq, Bool.and_eq_true, beq_iff_eq]
  exact fun ⟨hn, e⟩ => h n ((SetSlot.enrolled_iff _).mp hn) e

/-- What DOCK IN leaves of the pool and of the cars (R122, R123). -/
structure Docked (s t : State) (n : SetHandle) (b : BayNo) (level : Nat) (other : Option SetHandle) : Prop where
  slot : t.slot n = (s.slot n).dockedAs (if (s.slot n).state = .faulty then .faulty else s.byCharge level) b level
  found : ∀ m, other = some m → t.slot m = (s.slot m).displaced
  slots : ∀ m, m ≠ n → other ≠ some m → t.slot m = s.slot m
  bays : ∀ b', t.bay b' = if b' = b then some n else if (s.slot n).bay = some b' then none else s.bay b'
  entries : ∀ h, t.entry h = if (s.slot n).car = some h ∨ s.carOfSet other = some h then
    { car := (s.car h).map fun c => { c with lent := none }, touched := true } else s.entry h
  frame : t = { s with
    sets := t.sets, bays := t.bays, entries := t.entries
    tallies :=
      if (s.slot n).state = .lent then
        put s.tallies (Tally.sets .returns).index (min 65535 (s.tally (.sets .returns) + 1))
      else s.tallies
    attention :=
      if (s.slot n).car = none ∧ s.carOfSet other = none then s.attention
      else { s.attention with causes := s.attention.causes ||| 0x100#10 } }

theorem docked_arrive (h : SetLaw s) {u : State} {n : SetHandle} {b : BayNo} {other : Option SetHandle}
    (hu : Undocked s u b other) (hn : (s.slot n).state ≠ .unenrolled) (hother : other ≠ some n) (level : Nat) :
    Docked s (u.arrive n b level) n b level other := by
  have hslot : u.slot n = s.slot n := (hu.slots n).trans (if_neg hother)
  have hcharge : u.byCharge level = s.byCharge level := by rw [hu.frame]; rfl
  have htally : u.tally (.sets .returns) = s.tally (.sets .returns) := by rw [hu.frame]; rfl
  have htallies : u.tallies = s.tallies := by rw [hu.frame]
  rw [arrive_eq (s := u) (by rw [hslot]; exact hn) (by rw [hslot]; exact h.car_none) (by rw [hslot]; exact h.timer_none), hslot,
    hcharge, htally, htallies]
  refine ⟨look_put_self _ _ _, fun m hm => ?_, fun m hm hm' => ?_, fun b' => ?_, fun k => ?_, ?_⟩
  · have hne : n ≠ m := fun e => hother (e ▸ hm)
    exact (look_put_ne _ _ hne).trans ((hu.slots m).trans (if_pos hm))
  · exact (look_put_ne _ _ (Ne.symm hm)).trans ((hu.slots m).trans (if_neg hm'))
  · refine (look_put _ _ _ _).trans ?_
    rw [look_emptied]
    by_cases e : b = b'
    · rw [if_pos e, if_pos e.symm]
    · rw [if_neg e, if_neg (Ne.symm e), show look u.bays b' = s.bay b' from hu.bays b' (Ne.symm e)]
  · refine Eq.trans (show _ = if (s.slot n).car = some k then
      { car := (u.entry k).car.map fun c => { c with lent := none }, touched := true } else u.entry k
      from parted_entry _ _ k) ?_
    have hstays : (s.car k) = (s.entry k).car := rfl
    rw [hu.entries]
    by_cases hx : (s.slot n).car = some k <;> by_cases ho : s.carOfSet other = some k <;> simp [hx, ho, hstays, Function.comp_def]
  · conv_lhs => rw [hu.frame]
    refine congrArg (fun a : Attention => ({ s with sets := _, bays := _, entries := _, tallies := _, attention := a } : State)) ?_
    rw [hu.attention]
    have hor := s.attention.causes.or_assoc 0x100#10 0x100#10
    by_cases hx : (s.slot n).car = none <;> by_cases ho : s.carOfSet other = none <;> simp [hx, ho, hor]

/-! ### DOCK OUT (R125) -/

/-- The set out of its bay, in another state (R125). -/
def State.lifted (s : State) (b : BayNo) (n : SetHandle) (y : SetSlot) : State :=
  { s with bays := put s.bays b none, sets := put s.sets n { y with bay := none } }

theorem liftFrom_setSlot (s : State) (b : BayNo) (n : SetHandle) (y : SetSlot) :
    (s.liftFrom b n).setSlot n { y with bay := none } = s.lifted b n y :=
  congrArg (fun v : Vector SetSlot 128 => ({ s with bays := put s.bays b none, sets := v } : State)) (put_put _ _ _ _)

theorem liftFrom_slot (s : State) (b : BayNo) (n : SetHandle) :
    (s.liftFrom b n).slot n = { s.slot n with bay := none } := look_put_self _ _ _

theorem completeLend_eq {b : BayNo} {n : SetHandle} {h : CarHandle} {c : Car} (hset : (s.slot n).car = some h)
    (hcar : s.car h = some c) : (s.liftFrom b n).completeLend n =
      { s.lifted b n { s.slot n with state := .lent, timer := none } with
        entries := put s.entries h { car := some { c with lent := some (n, .lent) }, touched := true }
        tallies := put s.tallies (Tally.sets .lends).index (min 65535 (s.tally (.sets .lends) + 1))
        attention := { s.attention with causes := s.attention.causes ||| 0x100#10 } } := by
  unfold State.completeLend
  dsimp only
  rw [liftFrom_slot]
  dsimp only
  rw [hset, State.touchCar_setCarSet (s := (s.liftFrom b n).setSlot n _) hcar, ← hset]
  exact congrArg (fun v : Vector SetSlot 128 => ({ s with
    bays := put s.bays b none, sets := v, entries := _, tallies := _, attention := _ } : State)) (put_put _ _ _ _)

theorem removeUnlawfully_eq (s : State) (b : BayNo) (n : SetHandle) : (s.liftFrom b n).removeUnlawfully n =
    { s.lifted b n { s.slot n with state := .absent } with
      tallies := put s.tallies (Tally.sets .unlawfulRemovals).index (min 65535 (s.tally (.sets .unlawfulRemovals) + 1))
      attention :=
        { s.attention with
          causes := s.attention.causes ||| 0x10#10, setKinds := s.attention.setKinds ||| 2#3 } } := by
  unfold State.removeUnlawfully
  rw [liftFrom_slot]
  exact congrArg (fun v : Vector SetSlot 128 => ({ s with
    bays := put s.bays b none, sets := v, tallies := _, attention := _ } : State)) (put_put _ _ _ _)

theorem workDockOut_of_set (s : State) {b : BayNo} {n : SetHandle} (hbay : s.bay b = some n) :
    ((s.slot n).state = .issuing →
      workDockOut b s = ((s.liftFrom b n).completeLend n).ok ([n.val, 0] ++ optCar (s.slot n).car)) ∧
    ((s.slot n).state = .ready ∨ (s.slot n).state = .charging →
      workDockOut b s = ((s.liftFrom b n).removeUnlawfully n).ok [n.val, 1, 0xFF, 0xFF]) ∧
    ((s.slot n).state = .faulty → workDockOut b s = (s.lifted b n (s.slot n)).ok [n.val, 2, 0xFF, 0xFF]) := by
  unfold workDockOut
  rw [State.withBay_of_standing hbay]
  dsimp only
  refine ⟨fun h => by rw [h], fun h => ?_, fun h => by rw [h]; rfl⟩
  rcases h with h | h <;> rw [h] <;> rfl

/-- Settles O47: a set displaced and a set that arrives by what they write; DOCK OUT by the set's state. -/
theorem setsAreDockedAndLifted : Obligations.SetsAreDockedAndLifted := by
  refine ⟨fun s bay serial level hp => ⟨fun h => denied_of_records rfl hp fun port attention => ?_,
    fun h => denied_of_records rfl hp fun _ _ => State.withBay_of_ge h _⟩, fun s b serial level hp hlaw hserial hlevel => ?_,
    fun s b hp => ?_⟩
  · by_cases hbay : 128 ≤ bay
    · exact State.withHandle_of_ge _ hbay _
    · refine (State.withHandle_of_lt _ (not_le.mp hbay) _).trans (State.checked_fails _ ?_ _ _ _)
      rw [dockInRanges, Bool.and_eq_false_iff, bne_eq_false_iff_eq, decide_eq_false_iff_not]
      exact (h.resolve_left hbay).imp_right not_le.mpr
  · obtain ⟨port, attention, e⟩ := s.atWork_shape (.dockIn b serial level)
    have hpool : SetLaw (s.facing port attention) := setLaw_congr (s := s) rfl rfl (fun _ => rfl) hlaw
    obtain ⟨hforeign, hknown⟩ := workDockIn_of_range (s.facing port attention) b hserial hlevel
    intro i a
    refine ⟨fun h => ?_, fun n hn hs => ?_⟩
    · have hwork : workOf i (s.atWork i) = ((s.atWork i).raiseSet .foreign).deny .unknownSet := by
        rw [e]
        exact hforeign (holderOf_eq_none (s := s.facing port attention) h)
      rw [exec_free i rfl hp, hwork]
      rfl
    · intro x other carOf docked outcome
      have hother : (s.facing port attention).displacedBy n b = other := displacedBy_eq _ n b
      have hne : other ≠ some n := by
        simp only [other]
        split
        · exact fun e => nomatch e
        · assumption
      have hdocked := docked_arrive hpool (hother ▸ undockFrom_undocked hpool n b) hn hne level
      have houtcome : dockInOutcome x b = outcome := by
        simp only [dockInOutcome, outcome]
        cases x.state <;> simp
      refine ⟨((s.facing port attention).undockFrom other).arrive n b level, exec_of_work_eq_ok rfl hp ?_,
        hdocked.slot, hdocked.found, hdocked.slots, hdocked.bays, hdocked.entries, ?_⟩
      · rw [e]
        refine (hknown n (holderOf_eq_some hpool hn hs)).trans ?_
        rw [hother, ← houtcome]
        rfl
      · simp only [a]
        rw [e]
        exact hdocked.frame
  · obtain ⟨port, attention, e⟩ := s.atWork_shape (.dockOut b)
    intro i a
    refine ⟨fun h => denied_of_records rfl hp fun port attention => State.withBay_of_empty (s := s.facing port attention) h _,
      fun n hn => ?_⟩
    intro x lifted
    obtain ⟨hissuing, hdocked, hfaulty⟩ := workDockOut_of_set (s.facing port attention) hn
    refine ⟨fun h c hstate hset hcar => exec_of_work_eq_ok rfl hp ?_, fun hstate => exec_of_work_eq_ok rfl hp ?_,
      fun hstate => exec_of_work_eq_ok rfl hp ?_⟩
    · simp only [a, lifted]
      rw [e]
      refine (hissuing hstate).trans ?_
      rw [completeLend_eq (s := s.facing port attention) hset hcar]
      exact congrArg (fun car => State.ok _ ([n.val, 0] ++ optCar car)) hset
    · simp only [a, lifted]
      rw [e]
      exact (hdocked hstate).trans (congrArg (State.ok · _) (removeUnlawfully_eq (s.facing port attention) b n))
    · simp only [lifted]
      rw [e]
      exact hfaulty hstate

end Sys2Proof.Machine
end

section
/-! PROOF. What a report to the order book leaves (R82, R139, R161), and what a field change reports: OPEN FIELD (O29), the
commands of the show (O30). -/

namespace Sys2Proof.Machine

/-! ### Reports -/

/-- The records that no report to the order book touches: the others are blanked. -/
def State.beside (s : State) : State :=
  { s with
    tallies := State.reset.tallies, orders := State.reset.orders, parked := [], stations := State.reset.stations
    hold := false, trips := State.reset.trips, attention := State.reset.attention }

/-- The flags of the causes, without the causes themselves. -/
def Attention.flags (a : Attention) : Attention := { a with causes := 0 }

/-- The flags of the causes but those of trips. -/
def Attention.beside (a : Attention) : Attention := { a.flags with dispatched := 0 }

/-- What due checks and release passes leave (R139, R140, R142): orders but for stage, due mark and timer, every tally but
the station deferrals, the causes that were set, every flag, the trips, all records that no report touches. -/
structure Checked (s t : State) : Prop where
  orders : OrdersKeep Order.kept s t
  tallies : ∀ k, k ≠ .kitchen .stationDeferrals → t.tally k = s.tally k
  causes : ∀ k, s.attention.causes.getLsbD k = true → t.attention.causes.getLsbD k = true
  flags : t.attention.flags = s.attention.flags
  trips : t.trips = s.trips
  records : t.beside = s.beside

namespace Checked
variable {s t u : State}

theorem refl (s : State) : Checked s s := ⟨OrdersKeep.refl s, fun _ _ => rfl, fun _ h => h, rfl, rfl, rfl⟩

theorem trans (h : Checked s t) (h' : Checked t u) : Checked s u :=
  ⟨h.orders.trans h'.orders, fun k hk => (h'.tallies k hk).trans (h.tallies k hk), fun k hk => h'.causes k (h.causes k hk),
    h'.flags.trans h.flags, h'.trips.trans h.trips, h'.records.trans h.records⟩

theorem markDue (s : State) (which : Order → Bool) : Checked s (s.markDue which) := by
  obtain ⟨h, -⟩ := s.markDue_spec which
  exact (congrArg (Checked s) h).mpr ⟨ordersKeep_markDue (fun _ => rfl) s which, fun _ _ => rfl, fun _ hk => hk, rfl, rfl, rfl⟩

theorem evaluateHold (s : State) : Checked s s.evaluateHold := by
  unfold State.evaluateHold
  generalize (if s.anyAtXoff then true else if s.allAtXon then false else s.hold) = hold
  dsimp only
  split
  · exact refl s
  · refine ⟨OrdersKeep.refl s, fun _ _ => rfl, fun k hk => ?_, rfl, rfl, rfl⟩
    exact (BitVec.getLsbD_or ..).trans (by rw [hk, Bool.true_or])

theorem release (s : State) {o : OrderHandle} {ord : Order} (ho : s.order o = some ord) : Checked s (s.release o ord) := by
  rw [State.release_eq]
  refine ⟨OrdersKeep.setOrder (s := s) (o := o)
    (x := some { ord with stage := .queued, due := false, timer := some (s.prepLimit * 60000) }) ?_, fun _ _ => rfl,
    fun _ hk => hk, rfl, rfl, rfl⟩
  rw [ho]
  rfl

theorem deferral (s : State) : Checked s (s.count (.kitchen .stationDeferrals)) :=
  ⟨OrdersKeep.refl s, fun k hk => (State.tally_count s _ k 1).trans (if_neg (by tauto)), fun _ h => h, rfl, rfl, rfl⟩

theorem releaseWalk (os : List OrderHandle) (h : Checked s t) : Checked s (releaseWalk os t) := by
  induction os generalizing t with
  | nil => exact h
  | cons o rest ih =>
    unfold Machine.releaseWalk
    cases ho : t.order o with
    | none => exact ih h
    | some ord =>
      dsimp only
      split
      · exact ih h
      split
      · exact ih (h.trans (deferral t))
      have hreleased := h.trans ((release t ho).trans (evaluateHold _))
      split
      · exact hreleased
      · exact ih hreleased

theorem releasePass (s : State) : Checked s s.releasePass := by
  unfold State.releasePass
  split
  · exact refl s
  · exact releaseWalk _ (refl s)

theorem dueCheckField (s : State) (f : FieldNo) : Checked s (s.dueCheckField f) := by
  unfold State.dueCheckField State.dueCheck
  split
  · exact (markDue s _).trans (releasePass _)
  · exact refl s

end Checked

/-- What reports to the order book and the trip table leave (R139, R142, R161): orders but for stage, due mark and timer,
every tally but the station deferrals, the causes that were set, every flag but those of trips, all other records. -/
structure Told (s t : State) : Prop where
  orders : OrdersKeep Order.kept s t
  tallies : ∀ k, k ≠ .kitchen .stationDeferrals → t.tally k = s.tally k
  causes : ∀ k, s.attention.causes.getLsbD k = true → t.attention.causes.getLsbD k = true
  flags : t.attention.beside = s.attention.beside
  records : t.beside = s.beside

theorem Checked.told {s t : State} (h : Checked s t) : Told s t :=
  ⟨h.orders, h.tallies, h.causes, congrArg (fun a : Attention => { a with dispatched := 0 }) h.flags, h.records⟩

namespace Told
variable {s t u : State}

theorem refl (s : State) : Told s s := (Checked.refl s).told

theorem trans (h : Told s t) (h' : Told t u) : Told s u :=
  ⟨h.orders.trans h'.orders, fun k hk => (h'.tallies k hk).trans (h.tallies k hk), fun k hk => h'.causes k (h.causes k hk),
    h'.flags.trans h.flags, h'.records.trans h.records⟩

/-- The records of a report, field by field. -/
theorem frame (h : Told s t) : t = { s with
    tallies := t.tallies, orders := t.orders, parked := t.parked, stations := t.stations, hold := t.hold, trips := t.trips
    attention := t.attention } :=
  congrArg (fun x : State => { x with
    tallies := t.tallies, orders := t.orders, parked := t.parked, stations := t.stations, hold := t.hold, trips := t.trips
    attention := t.attention }) h.records

theorem dispatch (s : State) (k : TripHandle) : Told s (s.dispatch k) := by
  obtain ⟨horders, h⟩ := s.dispatch_spec k
  refine (congrArg (Told s) h).mpr ⟨fun o => ?_, fun _ _ => rfl, fun j hj => ?_, rfl, rfl⟩
  · refine (congrArg (Option.map Order.kept) (horders o)).trans ?_
    split
    · rw [Option.map_map]
      rfl
    · rfl
  · dsimp only
    rw [BitVec.getLsbD_or, hj, Bool.true_or]

theorem releaseFieldHold (s : State) (f : FieldNo) : Told s (s.releaseFieldHold f) := by
  unfold State.releaseFieldHold
  split
  · refine State.forEach_induct (Told s) s _ _ (fun k t _ ht => ?_) (refl s)
    split
    · exact ht.trans (dispatch t k)
    · exact ht
  · exact refl s

/-- A field change is SEGMENT with its flag, then a report (R82). -/
theorem fieldChange (s : State) (f : FieldNo) : Told (s.raiseSegment f) (s.fieldChange f) :=
  (Checked.dueCheckField _ f).told.trans (releaseFieldHold _ f)

end Told

/-! ### Field changes (R82) -/

/-- The program unit and the timebase of a field written, to be reported. -/
def State.shown (s : State) (f : FieldNo) (p : ProgramUnit) (x : Timebase) : State :=
  { s with programs := put s.programs f p, timebases := put s.timebases f x }

theorem shown_eq (s : State) (f : FieldNo) (p : ProgramUnit) (x : Timebase) :
    (s.setProgram f p).setTimebase f x = s.shown f p x := rfl

theorem shown_program (s : State) (f : FieldNo) (p : ProgramUnit) :
    s.shown f p (s.timebase f) = s.setProgram f p :=
  congrArg (fun v : Vector Timebase 4 => ({ s with programs := put s.programs f p, timebases := v } : State)) (put_look _ _)

/-- A report of one field's show. -/
theorem Told.showStep {b t : State} {f : FieldNo} {p : ProgramUnit} {x : Timebase} {a : Attention}
    (h : Told { b.shown f p x with attention := a } t) : ShowStep b t f := by
  have hframe := h.frame
  have hprograms : t.programs = put b.programs f p := congrArg State.programs hframe
  have htimebases : t.timebases = put b.timebases f x := congrArg State.timebases hframe
  refine ⟨fun g hg => ⟨?_, ?_⟩, h.orders, ?_⟩
  · exact (congrArg (look · g) hprograms).trans (look_put_ne _ _ (Ne.symm hg))
  · exact (congrArg (look · g) htimebases).trans (look_put_ne _ _ (Ne.symm hg))
  · refine hframe.trans ?_
    rw [hprograms, htimebases]
    rfl

theorem fieldChanged_shown (b : State) (f : FieldNo) (p : ProgramUnit) (x : Timebase) :
    FieldChanged b ((b.shown f p x).fieldChange f) f p x := by
  have h := Told.fieldChange (b.shown f p x) f
  have hframe := h.frame
  refine ⟨rfl, ?_, ?_, ⟨h.causes 2 ?_, ?_⟩, h.tallies, h.showStep⟩
  · exact (congrArg (fun s : State => s.program f) hframe :).trans (look_put_self _ _ _)
  · exact (congrArg (fun s : State => s.timebase f) hframe :).trans (look_put_self _ _ _)
  · exact (BitVec.getLsbD_or ..).trans (Bool.or_true _)
  · have hsegment : ((b.shown f p x).fieldChange f).attention.segment = b.attention.segment ||| BitVec.twoPow 4 f.val :=
      (congrArg Attention.segment h.flags :)
    rw [hsegment, BitVec.getLsbD_or, BitVec.getLsbD_twoPow]
    simp

/-! ### OPEN FIELD (R71) -/

theorem openFieldWith_eq (s : State) (f : FieldNo) (header : Header) (segs : List Segment) : s.openFieldWith f header segs =
    (({ s with fieldUnits := put s.fieldUnits f (s.unit f).evaluateSign } : State).shown f
      { s.program f with
        record := .loaded header segs, state := .opened, segment := 0, frame := 0, txen := true, cues := header.openCues }
      ((s.timebase f).opened header.ns)).fieldChange f := rfl

theorem workOpenField_of_field (s : State) (f : FieldNo) :
    ((s.program f).state ≠ .dark ∨ (s.unit f).rows = 0 → workOpenField f s = s.deny .state) ∧
    ((s.program f).state = .dark → (s.unit f).rows ≠ 0 →
      ((s.program f).record = .empty → workOpenField f s = s.deny .badProgram) ∧
      ∀ header segs, (s.program f).record = .draft header segs →
        workOpenField f s = s.checked [(validDraft header segs, .badProgram)] (s.openFieldWith f header segs).ok) := by
  unfold workOpenField
  rw [s.withHandle_fin]
  refine ⟨fun h => ?_, fun hdark hrows => ?_⟩
  · by_cases hdark : (s.program f).state = .dark
    · rw [s.checked_holds (beq_iff_eq.mpr hdark)]
      exact s.checked_fails (bne_eq_false_iff_eq.mpr (h.resolve_left (not_not.mpr hdark))) _ _ _
    · exact s.checked_fails (beq_eq_false_iff_ne.mpr hdark) _ _ _
  · rw [s.checked_holds (beq_iff_eq.mpr hdark), s.checked_holds (show (s.unit f).configured = true from bne_iff_ne.mpr hrows),
      s.checked_nil]
    exact ⟨fun h => by rw [h], fun header segs h => by rw [h]⟩

theorem validDraft_iff {header : Header} {segs : List Segment} : validDraft header segs = true ↔
    segs ≠ [] ∧ (∀ c, header.cutoffSegment = some c → c < segs.length) ∧ 1500 ≤ header.ns ∧ header.ns ≤ 2500 := by
  unfold validDraft
  cases header.cutoffSegment <;> simp [and_assoc]

/-- Settles O29: the checks in order, then the field change that loads the draft. -/
theorem openFieldLoadsTheDraft : Obligations.OpenFieldLoadsTheDraft := by
  refine ⟨fun s field hp => ⟨fun h => denied_of_records rfl hp fun _ _ => State.withHandle_of_ge _ h _, fun f hf h => ?_⟩,
    fun s f hp hdark hrows => ?_⟩
  · subst hf
    exact denied_of_records rfl hp fun port attention => (workOpenField_of_field (s.facing port attention) f).1 h
  · intro i valid
    have behind (port : Port) (attention : Attention) := (workOpenField_of_field (s.facing port attention) f).2 hdark hrows
    refine ⟨fun h => denied_of_records rfl hp fun port attention => (behind port attention).1 h, fun header segs h => ⟨fun hinvalid => ?_, fun hvalid => ?_⟩⟩
    · refine denied_of_records rfl hp fun port attention => ((behind port attention).2 header segs h).trans
        (State.checked_fails _ (Bool.eq_false_iff.mpr (mt validDraft_iff.mp hinvalid)) _ _ _)
    · intro p x b
      refine ⟨(b.shown f p x).fieldChange f, ?_, fieldChanged_shown b f p x⟩
      refine answered_of_records (g := fun t => ((({ t with fieldUnits := _ } : State).shown f p x).fieldChange f)) rfl hp
        fun port attention => ((behind port attention).2 header segs h).trans ?_
      refine (State.checked_holds _ (validDraft_iff.mpr hvalid) _ _ _).trans ((State.checked_nil _ _).trans ?_)
      rw [openFieldWith_eq]
      rfl

end Sys2Proof.Machine
end

section
/-! PROOF. The commands of the show and the report of a field change (O30). -/

namespace Sys2Proof.Machine

/-! ### The FIELD_HOLD trips of a field let out (R161, R162) -/

/-- A trip of a field held for it. -/
def State.HeldFor (s : State) (f : FieldNo) (k : TripHandle) : Prop :=
  (s.trip k).state = .fieldHold ∧ (s.trip k).field = some f

/-- One trip let out if it is held for the field. -/
def State.letGo (f : FieldNo) (k : TripHandle) (s : State) : State :=
  if (s.trip k).state == .fieldHold && (s.trip k).field == some f then s.dispatch k else s

theorem letGo_of_held {s : State} {f : FieldNo} {k : TripHandle} (h : s.HeldFor f k) : s.letGo f k = s.dispatch k :=
  if_pos (by rw [Bool.and_eq_true, beq_iff_eq, beq_iff_eq]; exact h)

theorem letGo_of_not_held {s : State} {f : FieldNo} {k : TripHandle} (h : ¬ s.HeldFor f k) : s.letGo f k = s :=
  if_neg (by rw [Bool.and_eq_true, beq_iff_eq, beq_iff_eq]; exact h)

theorem releaseFieldHold_allowed {s : State} {f : FieldNo} (h : (s.program f).runnersAllowed = true) :
    s.releaseFieldHold f = s.forEach (List.finRange 8) (State.letGo f) := if_pos h

theorem releaseFieldHold_forbidden {s : State} {f : FieldNo} (h : ¬ (s.program f).runnersAllowed = true) :
    s.releaseFieldHold f = s := if_neg h

/-- What letting out the held trips among some leaves (R161, R162). -/
structure LetOut (s t : State) (f : FieldNo) (ks : List TripHandle) : Prop where
  held : ∀ k ∈ ks, s.HeldFor f k → t.trip k = { s.trip k with state := .out, timer := none }
  others : ∀ k, ¬ (k ∈ ks ∧ s.HeldFor f k) → t.trip k = s.trip k
  onTrip : ∀ o k, k ∈ ks → s.HeldFor f k → o ∈ (s.trip k).orders →
    t.order o = (s.order o).map fun ord => { ord with stage := .onTrip }
  orders : ∀ o, (∀ k ∈ ks, s.HeldFor f k → o ∉ (s.trip k).orders) → t.order o = s.order o
  flags : ∀ k : TripHandle, t.attention.dispatched.getLsbD k.val = true ↔
    s.attention.dispatched.getLsbD k.val = true ∨ (k ∈ ks ∧ s.HeldFor f k)
  raised : (∃ k ∈ ks, s.HeldFor f k) → t.attention.causes = s.attention.causes ||| 0x20#10
  quiet : (∀ k ∈ ks, ¬ s.HeldFor f k) → t.attention.causes = s.attention.causes
  frame : t = { s with
    trips := t.trips, orders := t.orders
    attention := { s.attention with causes := t.attention.causes, dispatched := t.attention.dispatched } }

theorem letOut_nil (s : State) (f : FieldNo) : LetOut s s f [] :=
  ⟨fun _ h => (nomatch h), fun _ _ => rfl, fun _ _ h => (nomatch h), fun _ _ => rfl, by simp, by simp, fun _ => rfl, rfl⟩

theorem dispatch_trip (s : State) (k j : TripHandle) :
    (s.dispatch k).trip j = if k = j then { s.trip k with state := .out, timer := none } else s.trip j := by
  have h := congrArg (fun t : State => t.trip j) (s.dispatch_spec k).2
  exact h.trans (look_put _ _ _ _)

theorem letOut_cons {s t : State} {f : FieldNo} {k : TripHandle} {ks : List TripHandle} (hk : k ∉ ks)
    (h : LetOut (s.letGo f k) t f ks) : LetOut s t f (k :: ks) := by
  by_cases hheld : s.HeldFor f k
  · rw [letGo_of_held hheld] at h
    obtain ⟨horders, hdispatch⟩ := s.dispatch_spec k
    have htrip (j : TripHandle) (hj : j ≠ k) : (s.dispatch k).trip j = s.trip j := by
      rw [dispatch_trip, if_neg (Ne.symm hj)]
    have hself : (s.dispatch k).trip k = { s.trip k with state := .out, timer := none } := by
      rw [dispatch_trip, if_pos rfl]
    have hgone : ¬ (s.dispatch k).HeldFor f k := fun e => by
      rw [State.HeldFor, hself] at e
      exact nomatch e.1
    have hsame (j : TripHandle) (hj : j ≠ k) : (s.dispatch k).HeldFor f j ↔ s.HeldFor f j := by
      rw [State.HeldFor, htrip j hj, State.HeldFor]
    have hne {j : TripHandle} (hj : j ∈ ks) : j ≠ k := fun e => hk (e ▸ hj)
    have hmap (o : OrderHandle) : ((s.dispatch k).order o).map (fun ord => { ord with stage := .onTrip }) =
        (s.order o).map fun ord => { ord with stage := .onTrip } := by
      rw [horders]
      split
      · rw [Option.map_map]
        rfl
      · rfl
    have hattention := congrArg State.attention hdispatch
    refine ⟨fun j hj hj' => ?_, fun j hj => ?_, fun o j hj hj' ho => ?_, fun o ho => ?_, fun j => ?_, fun _ => ?_,
      fun hnone => absurd hheld (hnone k List.mem_cons_self), ?_⟩
    · by_cases e : j = k
      · subst e
        exact (h.others j fun hin => hk hin.1).trans hself
      · have hin := (List.mem_cons.mp hj).resolve_left e
        rw [h.held j hin ((hsame j e).mpr hj'), htrip j e]
    · have e : j ≠ k := fun e => hj (by rw [e]; exact ⟨List.mem_cons_self, hheld⟩)
      rw [h.others j fun hin => hj ⟨List.mem_cons_of_mem _ hin.1, (hsame j e).mp hin.2⟩, htrip j e]
    · by_cases hlater : ∃ j ∈ ks, s.HeldFor f j ∧ o ∈ (s.trip j).orders
      · obtain ⟨j, hj, hj', ho'⟩ := hlater
        rw [h.onTrip o j hj ((hsame j (hne hj)).mpr hj') (by rw [htrip j (hne hj)]; exact ho'), hmap]
      · have e : j = k := (List.mem_cons.mp hj).resolve_right fun hin => hlater ⟨j, hin, hj', ho⟩
        subst e
        rw [h.orders o fun j' hin hj'' ho' => hlater ⟨j', hin, (hsame j' (hne hin)).mp hj'', by rwa [htrip j' (hne hin)] at ho'⟩,
          horders, if_pos ho]
    · rw [h.orders o fun j hj hj' => by
          rw [htrip j (hne hj)]
          exact ho j (List.mem_cons_of_mem _ hj) ((hsame j (hne hj)).mp hj'),
        horders, if_neg (ho k List.mem_cons_self hheld)]
    · rw [h.flags, hattention]
      dsimp only
      rw [BitVec.getLsbD_or, BitVec.getLsbD_twoPow, Bool.or_eq_true, Bool.and_eq_true, decide_eq_true_eq, decide_eq_true_eq,
        List.mem_cons]
      by_cases e : j = k
      · subst e
        simp [hheld, hk]
      · have hval : ¬ k.val = j.val := fun e' => e (Fin.ext e'.symm)
        simp [e, hval, hsame j e]
    · have hcauses : (s.dispatch k).attention.causes = s.attention.causes ||| 0x20#10 := congrArg Attention.causes hattention
      by_cases hlater : ∃ j ∈ ks, s.HeldFor f j
      · obtain ⟨j, hj, hj'⟩ := hlater
        rw [h.raised ⟨j, hj, (hsame j (hne hj)).mpr hj'⟩, hcauses, BitVec.or_assoc, BitVec.or_self]
      · rw [h.quiet fun j hj hj' => hlater ⟨j, hj, (hsame j (hne hj)).mp hj'⟩, hcauses]
    · have hframe := h.frame
      rw [hdispatch] at hframe
      exact hframe
  · rw [letGo_of_not_held hheld] at h
    have hiff (j : TripHandle) : (j ∈ k :: ks ∧ s.HeldFor f j) ↔ (j ∈ ks ∧ s.HeldFor f j) := by
      rw [List.mem_cons]
      constructor
      · rintro ⟨rfl | hj, hj'⟩
        · exact absurd hj' hheld
        · exact ⟨hj, hj'⟩
      · exact fun ⟨hj, hj'⟩ => ⟨.inr hj, hj'⟩
    refine ⟨fun j hj hj' => h.held j ((hiff j).mp ⟨hj, hj'⟩).1 hj', fun j hj => h.others j (mt (hiff j).mpr hj),
      fun o j hj hj' => h.onTrip o j ((hiff j).mp ⟨hj, hj'⟩).1 hj', fun o ho => h.orders o fun j hj => ho j (List.mem_cons_of_mem _ hj),
      fun j => (h.flags j).trans (or_congr_right (hiff j).symm), fun ⟨j, hj⟩ => h.raised ⟨j, (hiff j).mp hj⟩,
      fun hnone => h.quiet fun j hj => hnone j (List.mem_cons_of_mem _ hj), h.frame⟩

theorem letOut_forEach (s : State) (f : FieldNo) {ks : List TripHandle} (hks : ks.Nodup) :
    LetOut s (s.forEach ks (State.letGo f)) f ks := by
  induction ks generalizing s with
  | nil => exact letOut_nil s f
  | cons k rest ih =>
    obtain ⟨hk, hrest⟩ := List.nodup_cons.mp hks
    exact letOut_cons hk (ih (s.letGo f k) hrest)

/-! ### The show (R70, R72 to R79) -/

theorem withCues_running (p : ProgramUnit) (h : p.state = .running ∨ p.state = .paused .host ∨ p.state = .paused .stall) :
    p.withCues = { p with cues := (p.current?.map Segment.cues).getD 0 } := by
  unfold ProgramUnit.withCues ProgramUnit.cueLevels
  rcases h with h | h | h <;> rw [h]

theorem inShow_iff (x : FieldState) : x.inShow = true ↔ x = .running ∨ x = .paused .host ∨ x = .paused .stall := by
  cases x with
  | paused r => cases r <;> simp [FieldState.inShow]
  | _ => simp [FieldState.inShow]

theorem endField_eq (s : State) (f : FieldNo) : s.endField f = s.shown f
    { s.program f with state := .ended, cues := ((s.program f).program?.map Header.endCues).getD 0 } (s.timebase f).freed := rfl

theorem skipSegment_onward {s : State} {f : FieldNo} {seg : Segment}
    (hshown : (s.program f).state = .running ∨ (s.program f).state = .paused .host ∨ (s.program f).state = .paused .stall)
    (hseg : (s.program f).record.segments[(s.program f).segment + 1]? = some seg) : s.skipSegment f =
      (s.shown f { s.program f with segment := (s.program f).segment + 1, frame := 0, cues := seg.cues }
        (s.timebase f)).fieldChange f := by
  have hlt := (List.getElem?_eq_some_iff.mp hseg).1
  rw [shown_program]
  refine (if_pos hlt).trans ?_
  rw [withCues_running { s.program f with segment := (s.program f).segment + 1, frame := 0 } hshown]
  refine congrArg (fun c : BitVec 4 => (s.setProgram f { s.program f with
    segment := (s.program f).segment + 1, frame := 0, cues := c }).fieldChange f) ?_
  rw [ProgramUnit.current?, hseg]
  rfl

theorem skipSegment_last {s : State} {f : FieldNo} (h : (s.program f).record.segments.length ≤ (s.program f).segment + 1) :
    s.skipSegment f = (s.shown f
      { s.program f with
        segment := (s.program f).record.segments.length, frame := 0, state := .ended
        cues := ((s.program f).program?.map Header.endCues).getD 0 } (s.timebase f).freed).fieldChange f := by
  refine (if_neg (not_lt.mpr h)).trans ?_
  rw [endField_eq, State.program_setProgram_self]
  exact congrArg (fun v : Vector ProgramUnit 4 => State.fieldChange { s with programs := v, timebases := _ } f) (put_put _ _ _ _)

theorem fieldChange_program (b : State) (f : FieldNo) (p : ProgramUnit) (x : Timebase) :
    ((b.shown f p x).fieldChange f).program f = p := (fieldChanged_shown b f p x).program

/-- Settles O30: the report by its FIELD_HOLD trips; each command by the states that it takes. -/
theorem showCommandsMoveTheShow : Obligations.ShowCommandsMoveTheShow := by
  refine ⟨fun s f => ?_, fun s field hp h => ⟨?_, ?_, ?_, ?_, ?_⟩, fun s f hp => ?_⟩
  · intro p allowed goes c t
    have hc : Checked (s.raiseSegment f) c := Checked.dueCheckField _ f
    have hprogram : c.program f = p := (congrArg (fun u : State => u.program f) hc.told.frame :)
    have hdispatched : c.attention.dispatched = s.attention.dispatched := (congrArg Attention.dispatched hc.flags :)
    have htrip (k : TripHandle) : c.trip k = s.trip k := congrArg (look · k) hc.trips
    have hgoes (k : TripHandle) : c.HeldFor f k ↔ goes k := by
      rw [State.HeldFor, htrip]
    have hallowed : (c.program f).runnersAllowed = true ↔ allowed := by
      rw [hprogram]
      exact p.runnersAllowed_iff
    have hreport : t = c.releaseFieldHold f := rfl
    refine ⟨fun h => ?_, fun h hsome => ?_⟩
    · rcases h with h | h
      · rw [hreport, releaseFieldHold_forbidden (mt hallowed.mp h)]
      · by_cases hyes : (c.program f).runnersAllowed = true
        · rw [hreport, releaseFieldHold_allowed hyes]
          exact State.forEach_induct (· = c) c _ _ (fun k u _ hu => by
            rw [hu]
            exact letGo_of_not_held (mt (hgoes k).mp (h k))) rfl
        · rw [hreport, releaseFieldHold_forbidden hyes]
    · have hout := letOut_forEach c f (List.nodup_finRange 8)
      rw [← releaseFieldHold_allowed (hallowed.mpr h), ← hreport] at hout
      have hraised := hout.raised (hsome.imp fun k hk => ⟨List.mem_finRange k, (hgoes k).mpr hk⟩)
      refine ⟨fun k hk => ?_, fun k hk => ?_, fun o k hk ho => ?_, fun o ho => ?_, fun k => ?_, ?_⟩
      · rw [hout.held k (List.mem_finRange k) ((hgoes k).mpr hk), htrip]
      · rw [hout.others k fun hin => hk ((hgoes k).mp hin.2), htrip]
      · exact hout.onTrip o k (List.mem_finRange k) ((hgoes k).mpr hk) (by rwa [htrip])
      · exact hout.orders o fun k _ hk => by
          rw [htrip]
          exact ho k ((hgoes k).mp hk)
      · rw [hout.flags, hdispatched, hgoes]
        exact or_congr_right ⟨And.right, fun hk => ⟨List.mem_finRange k, hk⟩⟩
      · rw [← hraised]
        exact hout.frame
  · exact denied_of_records rfl hp fun _ _ => State.withHandle_of_ge _ h _
  · exact denied_of_records rfl hp fun _ _ => State.withHandle_of_ge _ h _
  · exact denied_of_records rfl hp fun _ _ => State.withHandle_of_ge _ h _
  · exact denied_of_records rfl hp fun _ _ => State.withHandle_of_ge _ h _
  · exact denied_of_records rfl hp fun _ _ => State.withHandle_of_ge _ h _
  · intro p x sought freed shown ended answers
    have answer {i : Instr} {bytes : List Nat} {q : ProgramUnit} {y : Timebase} (hi : i.isFrame = true)
        (h : ∀ port attention, workOf i (s.facing port attention) =
          (((s.facing port attention).shown f q y).fieldChange f).ok bytes) : answers i bytes q y :=
      ⟨_, answered_of_records (g := fun t => (t.shown f q y).fieldChange f) hi hp h, fieldChanged_shown _ f q y⟩
    have hinShow : p.state.inShow = true ↔ shown := inShow_iff p.state
    have hcues : ({ p with state := .running, segment := 0, frame := 0 } : ProgramUnit).withCues = _ :=
      withCues_running _ (.inl rfl)
    have hpauses : (p.state == .running || p.state == .paused .stall) = true ↔ p.state = .running ∨ p.state = .paused .stall := by
      rw [Bool.or_eq_true, beq_iff_eq, beq_iff_eq]
    refine ⟨fun h => answer rfl fun port attention => ?_, fun h => denied_of_records rfl hp fun _ _ => ?_,
      fun h => answer rfl fun port attention => ?_, fun h h' => denied_of_records rfl hp fun _ _ => ?_,
      fun h => answer rfl fun port attention => ?_, fun h => denied_of_records rfl hp fun _ _ => ?_,
      fun h seg hseg => answer rfl fun port attention => ?_, fun h hlast => answer rfl fun port attention => ?_,
      fun h => ⟨denied_of_records rfl hp fun _ _ => ?_, denied_of_records rfl hp fun _ _ => ?_⟩,
      fun h => answer rfl fun port attention => ?_⟩
    · refine (State.withHandle_fin _ f _).trans ((State.checked_holds _ (beq_iff_eq.mpr h) _ _ _).trans ?_)
      exact congrArg (fun q : ProgramUnit => (((s.facing port attention).shown f q sought).fieldChange f).ok) hcues
    · exact (State.withHandle_fin _ f _).trans (State.checked_fails _ (beq_eq_false_iff_ne.mpr h) _ _ _)
    · exact (State.withHandle_fin _ f _).trans (State.checked_holds _ (hpauses.mpr h) _ _ _)
    · exact (State.withHandle_fin _ f _).trans
        (State.checked_fails _ (Bool.eq_false_iff.mpr (mt hpauses.mp (not_or.mpr ⟨h, h'⟩))) _ _ _)
    · exact (State.withHandle_fin _ f _).trans (State.checked_holds _ (beq_iff_eq.mpr h) _ _ _)
    · exact (State.withHandle_fin _ f _).trans (State.checked_fails _ (beq_eq_false_iff_ne.mpr h) _ _ _)
    · refine (State.withHandle_fin _ f _).trans ((State.checked_holds _ (hinShow.mpr h) _ _ _).trans ?_)
      rw [State.checked_nil, skipSegment_onward (s := s.facing port attention) h hseg, fieldChange_program]
      rfl
    · refine (State.withHandle_fin _ f _).trans ((State.checked_holds _ (hinShow.mpr h) _ _ _).trans ?_)
      rw [State.checked_nil, skipSegment_last (s := s.facing port attention) hlast, fieldChange_program]
      rfl
    · exact (State.withHandle_fin _ f _).trans (State.checked_fails _ (Bool.eq_false_iff.mpr (mt hinShow.mp h)) _ _ _)
    · exact (State.withHandle_fin _ f _).trans (State.checked_fails _ (Bool.eq_false_iff.mpr (mt hinShow.mp h)) _ _ _)
    · exact (State.withHandle_fin _ f _).trans (State.checked_holds _ (hinShow.mpr h) _ _ _)

end Sys2Proof.Machine
end

section
/-! PROOF. The limits of the gap counter (O25) and the edges of the word clock (O26). -/

namespace Sys2Proof.Machine

/-! ### The limits of the gap counter (R97, R101) -/

theorem tracks_iff (x : TimebaseState) : x.tracks = true ↔ x = .track ∨ x = .locked := by
  cases x <;> simp [TimebaseState.tracks]

theorem setTimebase_self (s : State) (f : FieldNo) : s.setTimebase f (s.timebase f) = s :=
  congrArg (fun v : Vector Timebase 4 => ({ s with timebases := v } : State)) (put_look _ _)

theorem raiseSound_eq (s : State) (f : FieldNo) : s.raiseSound f = { s with
    attention := { s.attention with
      causes := s.attention.causes ||| 8#10, sound := s.attention.sound ||| BitVec.twoPow 4 f.val } } := rfl

theorem raiseSound_raised (s : State) (f : FieldNo) :
    (s.raiseSound f).attention.sound.getLsbD f.val = true ∧ (s.raiseSound f).attention.causes.getLsbD 3 = true := by
  rw [raiseSound_eq]
  refine ⟨?_, ?_⟩
  · dsimp only
    rw [BitVec.getLsbD_or, BitVec.getLsbD_twoPow]
    simp
  · exact (BitVec.getLsbD_or ..).trans (Bool.or_true _)

/-- A report raises SEGMENT's causes and trips' flags alone: what SOUND shows stands. -/
theorem fieldChange_sound {s : State} {f : FieldNo}
    (h : s.attention.sound.getLsbD f.val = true ∧ s.attention.causes.getLsbD 3 = true) :
    (s.fieldChange f).attention.sound.getLsbD f.val = true ∧ (s.fieldChange f).attention.causes.getLsbD 3 = true := by
  have htold := Told.fieldChange s f
  have hsound : (s.fieldChange f).attention.sound = s.attention.sound := (congrArg Attention.sound htold.flags :)
  refine ⟨by rw [hsound]; exact h.1, htold.causes 3 ?_⟩
  exact (BitVec.getLsbD_or ..).trans (by rw [h.2, Bool.true_or])

theorem stallField_running {s : State} {f : FieldNo} (h : (s.program f).state = .running) :
    s.stallField f = (s.setProgram f { s.program f with state := .paused .stall }).fieldChange f := if_pos (beq_iff_eq.mpr h)

theorem stallField_idle {s : State} {f : FieldNo} (h : (s.program f).state ≠ .running) : s.stallField f = s :=
  if_neg (mt beq_iff_eq.mp h)

/-- Settles O25: one timebase written at each limit; at the holdover limit SOUND and the field change of a stall. -/
theorem gapLimitsRunOut : Obligations.GapLimitsRunOut := by
  intro s f x overdue with'
  refine ⟨fun h => ?_, fun h h' => ?_, fun h hmissed => ?_, fun h hmissed => ?_, fun h => ?_, fun h href => ?_, fun h => ?_⟩
  · exact congrArg Host.Outcome.next (if_pos ((tracks_iff _).mpr h))
  · exact congrArg Host.Outcome.next (if_neg (mt (tracks_iff _).mp (not_or.mpr ⟨h, h'⟩)))
  · exact congrArg Host.Outcome.next ((if_pos (beq_iff_eq.mpr h)).trans (if_pos hmissed))
  · intro y b
    have hlost : s.expireHoldover f = ((s.setTimebase f y).raiseSound f).stallField f :=
      (if_pos (beq_iff_eq.mpr h)).trans (if_neg (Nat.not_lt.mpr hmissed))
    refine ⟨_, congrArg Host.Outcome.next hlost, ?_⟩
    have hraised := raiseSound_raised (s.setTimebase f y) f
    by_cases hrunning : (s.program f).state = .running
    · rw [stallField_running (s := (s.setTimebase f y).raiseSound f) hrunning]
      have hstalled := fieldChange_sound (s := ((s.setTimebase f y).raiseSound f).setProgram f
        { s.program f with state := .paused .stall }) hraised
      refine ⟨hstalled.1, hstalled.2, fun _ => fieldChanged_shown b f _ y,
        fun hidle => absurd hrunning hidle⟩
    · rw [stallField_idle (s := (s.setTimebase f y).raiseSound f) hrunning]
      exact ⟨hraised.1, hraised.2, fun hrun => absurd hrun hrunning, fun _ => rfl⟩
  · exact congrArg Host.Outcome.next (if_neg (mt beq_iff_eq.mp h))
  · exact congrArg Host.Outcome.next (if_pos (by rw [Bool.and_eq_true, beq_iff_eq]; exact ⟨h, href⟩))
  · refine congrArg Host.Outcome.next (if_neg ?_)
    rw [Bool.and_eq_true, beq_iff_eq, not_and_or, Bool.not_eq_true]
    exact h

/-! ### The edges of the word clock (R91, R92) -/

theorem counts_iff (x : TimebaseState) : x.counts = true ↔ x = .seek ∨ x = .track ∨ x = .locked ∨ x = .holdover := by
  cases x <;> simp [TimebaseState.counts]

/-- The first of so many cycles that brings the accumulator to a target. -/
theorem cyclesTo_eq (x : Timebase) {target n : Nat} (hn : 0 < n)
    (hbefore : x.accumulator + 256 * (n - 1) < target ∨ n = 1) (hthere : target ≤ x.accumulator + 256 * n) :
    max 1 (x.cyclesTo target) = n := by
  unfold Timebase.cyclesTo
  omega

/-- The strobe that ends a run of cycles, each record written out. -/
theorem strobe_elapse (x : Timebase) (n ns : Nat) : (x.elapse n).strobe ns = { x with
    accumulator := x.accumulator + 256 * n - x.divisor
    gap := if x.state.counts then min 4294967295 (x.gap + n) else x.gap
    wordClock := true
    strobes := if x.state.counts then min 16777215 (x.strobes + 1) else x.strobes
    marker := if x.state.counts then (if ns ≤ x.marker + 1 then 0 else x.marker + 1) else x.marker
    marked := if x.state.counts ∧ ns ≤ x.marker + 1 then true else x.marked } := by
  unfold Timebase.strobe
  cases hcounts : x.state.counts with
  | false => simp [Timebase.elapse, hcounts]
  | true => by_cases hlast : ns ≤ x.marker + 1 <;> simp [Timebase.elapse, hcounts, hlast]

/-- Settles O26: the row runs just the cycles to its edge, and its strobe or fall is written out. -/
theorem wordClockEdges : Obligations.WordClockEdges := by
  intro s f n x ns counts gap
  have hcounts : x.state.counts = true ↔ counts := counts_iff _
  have stands {y : Timebase} (h : y = x) : Host.Outcome.next (s.setTimebase f y) = (.next s : Result) :=
    congrArg Host.Outcome.next ((congrArg (s.setTimebase f) h).trans (setTimebase_self s f))
  refine ⟨fun h => ⟨stands (y := x.runToStrobe ns) (if_pos (beq_iff_eq.mpr h)), stands (y := x.runToFall) (if_neg ?_)⟩, fun h hn hbefore hthere => ?_,
    fun _ hlow => stands (y := x.runToFall) (if_neg ?_), fun h hhigh hn hbefore hthere => ?_⟩
  · simp [h]
  · have hrun : x.runToStrobe ns = (x.elapse n).strobe ns := by
      unfold Timebase.runToStrobe
      rw [cyclesTo_eq x hn hbefore hthere]
      exact if_neg (mt beq_iff_eq.mp h)
    refine congrArg (fun y => Host.Outcome.next (s.setTimebase f y)) (hrun.trans ((strobe_elapse x n ns).trans ?_))
    simp only [hcounts, gap]
  · simp [hlow]
  · have hfall : x.runToFall = (x.elapse n).fall := by
      unfold Timebase.runToFall
      rw [cyclesTo_eq x hn (hbefore.imp_right And.left) hthere]
      exact if_pos (by simp [h, hhigh])
    refine congrArg (fun y => Host.Outcome.next (s.setTimebase f y)) (hfall.trans ?_)
    simp only [Timebase.elapse, Timebase.fall, hcounts, gap]

end Sys2Proof.Machine
end

section
/-! PROOF. The frame advance walks the program (O32). -/

namespace Sys2Proof.Machine

/-- The frames of some segments. -/
def framesIn (segs : List Segment) : Nat := (segs.map Segment.length).sum

theorem framesIn_cons (seg : Segment) (segs : List Segment) : framesIn (seg :: segs) = seg.length + framesIn segs := by
  simp [framesIn]

theorem framesIn_append (segs segs' : List Segment) : framesIn (segs ++ segs') = framesIn segs + framesIn segs' := by
  simp [framesIn]

/-- An advance short of the end stops inside the segment where its last frame lies (R73). -/
theorem advanceFrom_short (segs : List Segment) (ix frame k : Nat) (entered : Bool)
    (hframe : ∀ seg ∈ segs.head?, frame ≤ seg.length) (hshort : frame + k < framesIn segs) :
    ∃ n seg, (advanceFrom segs ix frame k entered).segment = ix + n ∧ segs[n]? = some seg ∧
      (advanceFrom segs ix frame k entered).frame < seg.length ∧
      framesIn (segs.take n) + (advanceFrom segs ix frame k entered).frame = frame + k ∧
      (advanceFrom segs ix frame k entered).ranOut = false := by
  induction segs generalizing ix frame k entered with
  | nil => exact absurd hshort (Nat.not_lt_zero _)
  | cons seg rest ih =>
    have hseg : frame ≤ seg.length := hframe seg rfl
    rw [framesIn_cons] at hshort
    unfold advanceFrom
    split
    · next hinside => exact ⟨0, seg, rfl, rfl, by dsimp only; omega, by simp [framesIn], rfl⟩
    · next hleft =>
      obtain ⟨n, seg', hsegment, hn, hin, hsum, hran⟩ :=
        ih (ix + 1) 0 (k - (seg.length - frame)) (entered || !rest.isEmpty) (fun _ _ => Nat.zero_le _) (by omega)
      refine ⟨n + 1, seg', hsegment.trans (by omega), hn, hin, ?_, hran⟩
      rw [List.take_succ_cons, framesIn_cons]
      omega

/-- An advance by as many frames as are left or more runs the program out (R73). -/
theorem advanceFrom_long (segs : List Segment) (ix frame k : Nat) (entered : Bool)
    (hframe : ∀ seg ∈ segs.head?, frame ≤ seg.length) (hlong : framesIn segs ≤ frame + k) :
    (advanceFrom segs ix frame k entered).segment = ix + segs.length ∧
      (advanceFrom segs ix frame k entered).frame = 0 ∧ (advanceFrom segs ix frame k entered).ranOut = true := by
  induction segs generalizing ix frame k entered with
  | nil => exact ⟨rfl, rfl, rfl⟩
  | cons seg rest ih =>
    have hseg : frame ≤ seg.length := hframe seg rfl
    rw [framesIn_cons] at hlong
    unfold advanceFrom
    rw [if_neg (by omega)]
    obtain ⟨hsegment, hstart, hran⟩ :=
      ih (ix + 1) 0 (k - (seg.length - frame)) (entered || !rest.isEmpty) (fun _ _ => Nat.zero_le _) (by omega)
    exact ⟨hsegment.trans (by rw [List.length_cons]; omega), hstart, hran⟩

/-- A segment is entered exactly when the first is left and is not the last (R73). -/
theorem advanceFrom_entered (segs : List Segment) (ix frame k : Nat) (entered : Bool) :
    ix ≤ (advanceFrom segs ix frame k entered).segment ∧
      ((advanceFrom segs ix frame k entered).entered = true ↔
        entered = true ∨ ix < (advanceFrom segs ix frame k entered).segment ∧ 1 < segs.length) := by
  induction segs generalizing ix frame k entered with
  | nil => simp [advanceFrom]
  | cons seg rest ih =>
    unfold advanceFrom
    split
    · simp
    · obtain ⟨hbeyond, hentered⟩ := ih (ix + 1) 0 (k - (seg.length - frame)) (entered || !rest.isEmpty)
      refine ⟨by omega, hentered.trans ?_⟩
      have hpassed : ix < (advanceFrom rest (ix + 1) 0 (k - (seg.length - frame)) (entered || !rest.isEmpty)).segment := hbeyond
      cases rest with
      | nil => simp
      | cons seg' rest => exact iff_of_true (.inl (Bool.or_true _)) (.inr ⟨hpassed, by simp⟩)

/-- A program unit written and ended at once (R74). -/
theorem endField_setProgram (s : State) (f : FieldNo) (p : ProgramUnit) :
    (s.setProgram f p).endField f = s.shown f p.ended (s.timebase f).freed := by
  unfold State.endField
  rw [show (s.setProgram f p).program f = p from look_put_self _ _ _]
  exact congrArg (fun v => { s with programs := v, timebases := put s.timebases f (s.timebase f).freed }) (put_put _ _ _ _)

/-- Settles O32: the branches of the advance handed to a field, and the walk over the segments ahead. -/
theorem frameAdvanceWalksTheProgram : Obligations.FrameAdvanceWalksTheProgram := by
  refine ⟨fun s f k => ?_, fun p k seg => ?_⟩
  · intro p a moved withCues ended freed at'
    refine ⟨fun h => if_neg (mt beq_iff_eq.mp h), fun h hran hentered => ?_, fun h hran hentered => ?_, fun h hran => ?_⟩
    · refine (if_pos (beq_iff_eq.mpr h)).trans ((if_neg ?_).trans (congrArg (State.dueCheckField · f) (if_neg ?_)))
      · exact Bool.not_eq_true _ ▸ (by rw [hran, hentered]; rfl)
      · exact Bool.not_eq_true _ ▸ hran
    · refine (if_pos (beq_iff_eq.mpr h)).trans ((if_pos ?_).trans
        (congrArg (fun t => State.fieldChange (State.dueCheckField t f) f) (if_neg ?_)))
      · exact Bool.or_eq_true_iff.mpr (.inl hentered)
      · exact Bool.not_eq_true _ ▸ hran
    · refine (if_pos (beq_iff_eq.mpr h)).trans ((if_pos ?_).trans
        (congrArg (fun t => State.fieldChange (State.dueCheckField t f) f) ((if_pos hran).trans ?_)))
      · exact Bool.or_eq_true_iff.mpr (.inr hran)
      · exact endField_setProgram s f _
  · intro segs hseg hframe framesBefore total a
    obtain ⟨hlt, rfl⟩ := List.getElem?_eq_some_iff.mp hseg
    have hhead : ∀ seg ∈ (segs.drop p.segment).head?, p.frame ≤ seg.length := fun seg h => by
      rw [List.head?_drop, hseg] at h
      cases h
      exact hframe.le
    have hbefore (n : Nat) : framesBefore (p.segment + n) = framesBefore p.segment + framesIn ((segs.drop p.segment).take n) := by
      refine Eq.trans ?_ (framesIn_append (segs.take p.segment) ((segs.drop p.segment).take n))
      rw [← List.take_add]
      rfl
    have htotal : total = framesBefore p.segment + framesIn (segs.drop p.segment) := by
      refine Eq.trans ?_ (framesIn_append (segs.take p.segment) (segs.drop p.segment))
      rw [List.take_append_drop]
      rfl
    refine ⟨fun h => ?_, fun h => ?_, ?_⟩
    · obtain ⟨n, seg, hsegment, hn, hin, hsum, hran⟩ :=
        advanceFrom_short (segs.drop p.segment) p.segment p.frame k false hhead (by omega)
      refine ⟨hran, ?_, seg, ?_, hin⟩
      · have hat : framesBefore a.segment = _ := (congrArg framesBefore hsegment).trans (hbefore n)
        rw [hat]
        change _ + _ + (advanceFrom (segs.drop p.segment) p.segment p.frame k false).frame = _
        omega
      · rw [List.getElem?_drop] at hn
        exact (congrArg (segs[·]?) hsegment).trans hn
    · obtain ⟨hsegment, hstart, hran⟩ :=
        advanceFrom_long (segs.drop p.segment) p.segment p.frame k false hhead (by omega)
      exact ⟨hran, hsegment.trans (by rw [List.length_drop]; omega), hstart⟩
    · refine (advanceFrom_entered (segs.drop p.segment) p.segment p.frame k false).2.trans ?_
      rw [List.length_drop]
      simp only [Bool.false_eq_true, false_or]
      exact and_congr_right fun _ => by omega

end Sys2Proof.Machine
end

section
/-! PROOF. What an accepted pulse leaves once its frame advance is reported: the pulses that measure nothing (O23) and those
that measure (O24). -/

namespace Sys2Proof.Machine

/-! ### The frame advance and its reports (R73, R82, R139) -/

theorem Checked.raiseSegment {s t : State} (f : FieldNo) (h : Checked s t) : Checked (s.raiseSegment f) (t.raiseSegment f) := by
  refine ⟨h.orders, h.tallies, fun k hk => ?_, ?_, h.trips, h.records⟩
  · have hk' : (s.attention.causes.getLsbD k || (4#10).getLsbD k) = true := (BitVec.getLsbD_or ..).symm.trans hk
    refine (BitVec.getLsbD_or ..).trans ?_
    rw [Bool.or_eq_true] at hk' ⊢
    exact hk'.imp_left (h.causes k)
  · exact congrArg (fun a : Attention => { a with segment := a.segment ||| BitVec.twoPow 4 f.val }) h.flags

/-- The program unit and the timebase of a field that an advance leaves (R73, R74). -/
def ProgramUnit.walked (p : ProgramUnit) (k : Nat) : ProgramUnit :=
  if p.state = .running then
    let moved := { p with segment := (p.advance k).segment, frame := (p.advance k).frame }.withCues
    if (p.advance k).ranOut then moved.ended else moved
  else p

def ProgramUnit.runsOut (p : ProgramUnit) (k : Nat) : Prop := p.state = .running ∧ (p.advance k).ranOut = true

/-- The advance is a field change (R82). -/
def ProgramUnit.changes (p : ProgramUnit) (k : Nat) : Prop :=
  p.state = .running ∧ ((p.advance k).entered = true ∨ (p.advance k).ranOut = true)

/-- A segment left is a segment entered, or the program has run out (R73). -/
theorem changes_of_segment {p : ProgramUnit} {k : Nat} (h : p.state = .running) (hs : (p.advance k).segment ≠ p.segment) :
    p.changes k := by
  refine ⟨h, ?_⟩
  obtain ⟨hout, -⟩ | ⟨-, j, seg, hseg, hsegment, -⟩ :=
    advanceFrom_position (p.record.segments.drop p.segment) p.segment p.frame k false
  · exact .inr hout
  · refine .inl ((advanceFrom_entered (p.record.segments.drop p.segment) p.segment p.frame k false).2.mpr (.inr ?_))
    have hj : j < (p.record.segments.drop p.segment).length := (List.getElem?_eq_some_iff.mp hseg).1
    have hne : p.segment + j ≠ p.segment := fun e => hs (hsegment.trans e)
    omega

/-- The field's show as an advance leaves it, with what a field change raises, before the order book is told. -/
structure Walked (b t : State) (f : FieldNo) (k : Nat) (x : Timebase) (a : Attention) : Prop where
  told : Told { b.shown f ((b.program f).walked k) x with attention := a } t
  ranOut : (b.program f).runsOut k → x = (b.timebase f).freed
  onward : ¬ (b.program f).runsOut k → x = b.timebase f
  changed : (b.program f).changes k → a = (b.raiseSegment f).attention
  same : ¬ (b.program f).changes k → a = b.attention

theorem walked_onward {p : ProgramUnit} {k : Nat} (h : p.state = .running) (hran : (p.advance k).ranOut = false) :
    p.walked k = { p with segment := (p.advance k).segment, frame := (p.advance k).frame }.withCues :=
  (if_pos h).trans (if_neg (Bool.not_eq_true _ ▸ hran))

theorem walked_ranOut {p : ProgramUnit} {k : Nat} (h : p.state = .running) (hran : (p.advance k).ranOut = true) :
    p.walked k = { p with segment := (p.advance k).segment, frame := (p.advance k).frame }.withCues.ended :=
  (if_pos h).trans (if_pos hran)

theorem walked_running {p : ProgramUnit} {k : Nat} (h : p.state = .running) :
    (p.walked k).segment = (p.advance k).segment ∧ (p.walked k).frame = (p.advance k).frame ∧
      (p.walked k).cues = (p.walked k).cueLevels ∧ (p.walked k).record = p.record ∧ (p.walked k).txen = p.txen ∧
      (p.walked k).carrier = p.carrier := by
  by_cases hran : (p.advance k).ranOut = true
  · rw [walked_ranOut h hran]
    exact ⟨rfl, rfl, rfl, rfl, rfl, rfl⟩
  · rw [walked_onward h (Bool.eq_false_iff.mpr hran)]
    exact ⟨rfl, rfl, rfl, rfl, rfl, rfl⟩

/-- An advance that is no field change leaves the state and the segment. -/
theorem walked_same {p : ProgramUnit} {k : Nat} (h : ¬ p.changes k) :
    (p.walked k).state = p.state ∧ (p.walked k).segment = p.segment := by
  by_cases hrunning : p.state = .running
  · have hran : ¬ (p.advance k).ranOut = true := fun hran => h ⟨hrunning, .inr hran⟩
    have hsegment : (p.advance k).segment = p.segment := not_not.mp (mt (changes_of_segment hrunning) h)
    rw [walked_onward hrunning (Bool.eq_false_iff.mpr hran)]
    exact ⟨rfl, hsegment⟩
  · rw [ProgramUnit.walked, if_neg hrunning]
    exact ⟨rfl, rfl⟩

theorem setProgram_self (s : State) (f : FieldNo) : s.setProgram f (s.program f) = s :=
  congrArg (fun v : Vector ProgramUnit 4 => ({ s with programs := v } : State)) (put_look _ _)

/-- A report of a field change, and the due check before it (R82, R139). -/
theorem Told.change (s : State) (f : FieldNo) : Told (s.raiseSegment f) ((s.dueCheckField f).fieldChange f) :=
  ((Checked.dueCheckField s f).raiseSegment f).told.trans (Told.fieldChange _ f)

theorem frameAdvance_walked (b : State) (f : FieldNo) (k : Nat) : ∃ x a, Walked b (b.frameAdvance f k) f k x a := by
  obtain ⟨hidle, honward, hentered, hended⟩ := frameAdvanceWalksTheProgram.1 b f k
  by_cases hrunning : (b.program f).state = .running
  · by_cases hran : ((b.program f).advance k).ranOut = true
    · have hout : (b.program f).runsOut k := ⟨hrunning, hran⟩
      have hchange : (b.program f).changes k := ⟨hrunning, .inr hran⟩
      refine ⟨(b.timebase f).freed, (b.raiseSegment f).attention, ?_, fun _ => rfl, fun h => absurd hout h, fun _ => rfl,
        fun h => absurd hchange h⟩
      rw [hended hrunning hran, walked_ranOut hrunning hran]
      exact Told.change (b.shown f _ (b.timebase f).freed) f
    · have hran' := Bool.eq_false_iff.mpr hran
      have hout : ¬ (b.program f).runsOut k := fun h => hran h.2
      by_cases hin : ((b.program f).advance k).entered = true
      · have hchange : (b.program f).changes k := ⟨hrunning, .inl hin⟩
        refine ⟨b.timebase f, (b.raiseSegment f).attention, ?_, fun h => absurd h hout, fun _ => rfl, fun _ => rfl,
          fun h => absurd hchange h⟩
        rw [hentered hrunning hran' hin, walked_onward hrunning hran', shown_program]
        exact Told.change (b.setProgram f _) f
      · have hchange : ¬ (b.program f).changes k := fun h => h.2.elim hin hran
        refine ⟨b.timebase f, b.attention, ?_, fun h => absurd h hout, fun _ => rfl, fun h => absurd h hchange, fun _ => rfl⟩
        rw [honward hrunning hran' (Bool.eq_false_iff.mpr hin), walked_onward hrunning hran', shown_program]
        exact (Checked.dueCheckField (b.setProgram f _) f).told
  · have hout : ¬ (b.program f).runsOut k := fun h => hrunning h.1
    have hchange : ¬ (b.program f).changes k := fun h => hrunning h.1
    refine ⟨b.timebase f, b.attention, ?_, fun h => absurd h hout, fun _ => rfl, fun h => absurd h hchange, fun _ => rfl⟩
    rw [hidle hrunning, ProgramUnit.walked, if_neg hrunning, shown_program, setProgram_self]
    exact (Checked.dueCheckField b f).told

/-! ### What an accepted pulse leaves (R73, R106 to R108) -/

theorem ShowStep.trans {s b t : State} {f : FieldNo} (h : ShowStep s b f) (h' : ShowStep b t f) : ShowStep s t f := by
  refine ⟨fun g hg => ⟨(h'.others g hg).1.trans (h.others g hg).1, (h'.others g hg).2.trans (h.others g hg).2⟩,
    fun o => (h'.orders o).trans (h.orders o), ?_⟩
  have hframe := h'.frame
  rw [h.frame] at hframe
  exact hframe

/-- SEGMENT is raised, with the field's flag. -/
def State.segmentRaised (s : State) (f : FieldNo) : Prop :=
  s.attention.causes.getLsbD 2 = true ∧ s.attention.segment.getLsbD f.val = true

theorem raiseSegment_raised (s : State) (f : FieldNo) : (s.raiseSegment f).segmentRaised f := by
  refine ⟨(BitVec.getLsbD_or ..).trans (Bool.or_true _), ?_⟩
  change (s.attention.segment ||| BitVec.twoPow 4 f.val).getLsbD f.val = true
  rw [BitVec.getLsbD_or, BitVec.getLsbD_twoPow]
  simp

theorem Told.segmentRaised {s t : State} {f : FieldNo} (h : Told s t) (hs : s.segmentRaised f) : t.segmentRaised f := by
  have hsegment : t.attention.segment = s.attention.segment := (congrArg Attention.segment h.flags :)
  exact ⟨h.causes 2 hs.1, hsegment ▸ hs.2⟩

/-- What a pulse has done to a field before its frame advance. -/
structure Pulsed (s b : State) (f : FieldNo) (x : Timebase) : Prop where
  step : ShowStep s b f
  program : b.program f = s.unstalled f
  timebase : b.timebase f = x
  tallies : ∀ k, k ≠ .field f .reacquireFailures → k ≠ .field f .lockLosses → k ≠ .kitchen .stationDeferrals →
    b.tally k = s.tally k
  resumed : s.unstalled f ≠ s.program f → b.segmentRaised f

theorem unstalled_idle {s : State} {f : FieldNo} (h : (s.unstalled f).state ≠ .running) : s.unstalled f = s.program f := by
  unfold State.unstalled at h ⊢
  split at h
  · exact absurd rfl h
  · next hno => exact if_neg hno

theorem unstalled_fields (s : State) (f : FieldNo) : (s.unstalled f).record = (s.program f).record ∧
    (s.unstalled f).txen = (s.program f).txen ∧ (s.unstalled f).carrier = (s.program f).carrier ∧
    (s.unstalled f).segment = (s.program f).segment := by
  unfold State.unstalled
  split <;> exact ⟨rfl, rfl, rfl, rfl⟩

theorem Pulsed.leaves {s b : State} {f : FieldNo} {x : Timebase} (h : Pulsed s b f x) (k : Nat) :
    PulseLeaves s (b.frameAdvance f k) f k x := by
  obtain ⟨y, a, hw⟩ := frameAdvance_walked b f k
  have hframe := hw.told.frame
  have hprogram : (b.frameAdvance f k).program f = (s.unstalled f).walked k := by
    rw [← h.program]
    exact (congrArg (fun t : State => t.program f) hframe :).trans (look_put_self _ _ _)
  have htimebase : (b.frameAdvance f k).timebase f = y :=
    (congrArg (fun t : State => t.timebase f) hframe :).trans (look_put_self _ _ _)
  have hout := hw.ranOut
  have hon := hw.onward
  rw [h.program, h.timebase] at hout hon
  refine ⟨fun hr => ?_, fun hr => ?_, fun hr hran => ?_, fun hr hran => ?_, fun hr => ?_, fun hne => ?_, fun j h1 h2 h3 => ?_,
    h.step.trans hw.told.showStep⟩
  · rw [hprogram]
    exact congrArg₂ Prod.mk (walked_running hr).1 (walked_running hr).2.1
  · rw [hprogram, htimebase, hon fun e => hr e.1, ProgramUnit.walked, if_neg hr]
    exact ⟨unstalled_idle hr, rfl⟩
  · rw [hprogram, htimebase, hon fun e => (Bool.eq_false_iff.mp hran) e.2, walked_onward hr hran]
    exact ⟨hr, rfl⟩
  · rw [hprogram, htimebase, hout ⟨hr, hran⟩, walked_ranOut hr hran]
    exact ⟨rfl, rfl⟩
  · obtain ⟨-, -, hcues, hrecord, htxen, hcarrier⟩ := walked_running (k := k) hr
    obtain ⟨hrecord', htxen', hcarrier', -⟩ := unstalled_fields s f
    rw [hprogram]
    exact ⟨hcues, hrecord.trans hrecord', htxen.trans htxen', hcarrier.trans hcarrier'⟩
  · rw [hprogram] at hne
    have hattention := hw.told.segmentRaised (f := f)
    by_cases hchange : (s.unstalled f).changes k
    · have ha := hw.changed (by rw [h.program]; exact hchange)
      subst ha
      exact hattention (raiseSegment_raised b f)
    · have ha := hw.same (by rw [h.program]; exact hchange)
      subst ha
      exact hattention (h.resumed fun e => hne.elim (fun hn => hn ((walked_same hchange).1.trans (congrArg _ e)).symm)
        fun hn => hn ((walked_same hchange).2.trans (congrArg _ e)).symm)
  · exact (hw.told.tallies j h3).trans (h.tallies j h1 h2 h3)

/-- The frame advance and its reports count no failure and no loss, and leave the flags of SOUND (R106, R108). -/
theorem PulseCounts.advanced {s b : State} {f : FieldNo} {fails loses : Prop} (h : PulseCounts s b f fails loses) (k : Nat) :
    PulseCounts s (b.frameAdvance f k) f fails loses := by
  obtain ⟨y, a, hw⟩ := frameAdvance_walked b f k
  have hfails : (b.frameAdvance f k).tally (.field f .reacquireFailures) = b.tally (.field f .reacquireFailures) :=
    hw.told.tallies _ (fun e => nomatch e)
  have hloses : (b.frameAdvance f k).tally (.field f .lockLosses) = b.tally (.field f .lockLosses) :=
    hw.told.tallies _ (fun e => nomatch e)
  have hattention : a.sound = b.attention.sound ∧
      ∀ j, b.attention.causes.getLsbD j = true → a.causes.getLsbD j = true := by
    by_cases hchange : (b.program f).changes k
    · rw [hw.changed hchange]
      exact ⟨rfl, fun j hj => (BitVec.getLsbD_or ..).trans (by rw [hj, Bool.true_or])⟩
    · rw [hw.same hchange]
      exact ⟨rfl, fun _ hj => hj⟩
  have hsound : (b.frameAdvance f k).attention.sound = b.attention.sound :=
    (congrArg Attention.sound hw.told.flags :).trans hattention.1
  exact ⟨fun e => hfails.trans (h.failure e), fun e => hfails.trans (h.noFailure e), fun e => hloses.trans (h.loss e),
    fun e => hloses.trans (h.noLoss e),
    fun e => ⟨hsound ▸ (h.raised e).1, hw.told.causes 3 (hattention.2 3 (h.raised e).2)⟩,
    fun e e' => hsound.trans (h.quiet e e')⟩

/-- What is counted on top of what a pulse has counted already: SOUND is raised by either. -/
theorem PulseCounted.after {s c b : State} {f : FieldNo} {x y : Timebase} {fails loses : Prop}
    (hc : PulseCounted s c f y False loses) (hb : PulseCounted c b f x fails False) : PulseCounted s b f x fails loses := by
  have hfails : c.tally (.field f .reacquireFailures) = s.tally (.field f .reacquireFailures) := hc.counts.noFailure id
  have hloses : b.tally (.field f .lockLosses) = c.tally (.field f .lockLosses) := hb.counts.noLoss id
  have hsounded : fails ∨ loses → b.attention = { s.attention with
      causes := s.attention.causes ||| 8#10, sound := s.attention.sound ||| BitVec.twoPow 4 f.val } := fun h => by
    by_cases hf : fails
    · rw [hb.sounded (.inl hf)]
      by_cases hl : loses
      · rw [hc.sounded (.inr hl)]
        dsimp only
        rw [BitVec.or_assoc, BitVec.or_self, BitVec.or_assoc, BitVec.or_self]
      · rw [hc.silent id hl]
    · rw [hb.silent hf id, hc.sounded (.inr (h.resolve_left hf))]
  have hraised := raiseSound_raised s f
  refine ⟨⟨fun h => ?_, fun h => ?_, fun h => hloses.trans (hc.counts.loss h), fun h => hloses.trans (hc.counts.noLoss h),
    fun h => by rw [hsounded h]; exact hraised, fun hf hl => (hb.counts.quiet hf id).trans (hc.counts.quiet id hl)⟩,
    fun k h h' => (hb.tallies k h h').trans (hc.tallies k h h'), hsounded,
    fun hf hl => (hb.silent hf id).trans (hc.silent id hl), ?_⟩
  · rw [hb.counts.failure h, hfails]
  · rw [hb.counts.noFailure h, hfails]
  · have hframe := hb.frame
    rw [hc.frame] at hframe
    dsimp only at hframe
    rwa [put_put] at hframe

/-- A timebase written, and nothing counted. -/
theorem pulseCounted_setTimebase (s : State) (f : FieldNo) (x : Timebase) :
    PulseCounted s (s.setTimebase f x) f x False False :=
  ⟨⟨False.elim, fun _ => rfl, False.elim, fun _ => rfl, fun h => absurd h (not_or.mpr ⟨id, id⟩), fun _ _ => rfl⟩,
    fun _ _ _ => rfl, fun h => absurd h (not_or.mpr ⟨id, id⟩), fun _ _ => rfl, rfl⟩

/-- A pulse that steps one timebase and counts what it counts, in a field that no stall ends. -/
theorem PulseCounted.pulsed {s b : State} {f : FieldNo} {x : Timebase} {fails loses : Prop}
    (h : PulseCounted s b f x fails loses) (hun : s.unstalled f = s.program f) : Pulsed s b f x := by
  have hframe := h.frame
  have hprograms : b.programs = s.programs := (congrArg State.programs hframe :)
  have htimebases : b.timebases = put s.timebases f x := (congrArg State.timebases hframe :)
  refine ⟨⟨fun g hg => ⟨congrArg (look · g) hprograms, ?_⟩, fun o => ?_, ?_⟩, ?_, ?_, fun k h1 h2 _ => h.tallies k h1 h2,
    fun e => absurd hun e⟩
  · exact (congrArg (look · g) htimebases).trans (look_put_ne _ _ (Ne.symm hg))
  · exact congrArg (Option.map Order.kept) (congrArg (fun t : State => t.order o) hframe :)
  · obtain ⟨tallies, attention, rfl⟩ : ∃ tallies attention, b = { s with
        timebases := put s.timebases f x, tallies := tallies, attention := attention } := ⟨_, _, hframe⟩
    rfl
  · exact (congrArg (look · f) hprograms).trans hun.symm
  · exact (congrArg (look · f) htimebases).trans (look_put_self _ _ _)

/-! ### The pulses (R95 to R100) -/

/-- What a pulse of a field that is not LOST leaves, from what it has counted before its frame advance. -/
theorem leaves_of_counted {s b : State} {f : FieldNo} {k : Nat} {x : Timebase} {fails loses : Prop}
    (hs : (s.timebase f).state ≠ .lost) (h : PulseCounted s b f x fails loses)
    (he : exec (.framePulse f) s = .next (b.frameAdvance f k)) :
    ∃ b t : State, exec (.framePulse f) s = .next t ∧ PulseLeaves s t f k x ∧ PulseCounts s t f fails loses ∧
      PulseCounted s b f x fails loses ∧ t = b.frameAdvance f k :=
  ⟨b, _, he, (h.pulsed (if_neg fun e => hs e.1)).leaves k, h.counts.advanced k, h, rfl⟩

/-- A timebase written, its reacquisition counted, and what that leaves. -/
theorem counted_setTimebase (s : State) (f : FieldNo) (k : Nat) (y : Timebase) :
    PulseCounted s ((s.setTimebase f y).countReacquire f k) f (y.reacquired k) (y.failsReacquire k) False :=
  (pulseCounted_setTimebase s f y).after (countReacquire_spec _ f k y (look_put_self _ _ _))

theorem takePulse_ignored {s : State} {f : FieldNo}
    (h : (s.timebase f).state = .stopped ∨ (s.timebase f).state = .free) : s.takePulse f = s := by
  unfold State.takePulse
  dsimp only
  rcases h with h | h <;> rw [h]

theorem takePulse_glitch {s : State} {f : FieldNo}
    (h : ((s.timebase f).state = .seek ∧ (s.timebase f).reference = true) ∨ (s.timebase f).state = .track ∨
      (s.timebase f).state = .locked) (hsoon : (s.timebase f).gap < (s.timebase f).nominal / 2) :
    s.takePulse f = s.count (.field f .pulseGlitches) := by
  have hsoon' : (s.timebase f).tooSoon = true := decide_eq_true hsoon
  unfold State.takePulse
  dsimp only
  rcases h with ⟨h, href⟩ | h | h
  · rw [h, href, hsoon']
    exact (if_neg Bool.false_ne_true).trans (if_pos rfl)
  · rw [h]
    exact if_pos hsoon'
  · rw [h]
    exact if_pos hsoon'

theorem takePulse_refer {s : State} {f : FieldNo} (h : (s.timebase f).state = .seek)
    (href : (s.timebase f).reference = false) :
    s.takePulse f = ((s.setTimebase f (s.timebase f).refer).countReacquire f 1).frameAdvance f 1 := by
  unfold State.takePulse
  dsimp only
  rw [h, href]
  exact if_pos rfl

theorem takePulse_measure {s : State} {f : FieldNo} (h : (s.timebase f).state = .seek)
    (href : (s.timebase f).reference = true) (hlate : (s.timebase f).nominal / 2 ≤ (s.timebase f).gap) :
    s.takePulse f =
      ((s.setTimebase f ((s.timebase f).measure (s.program f).ns)).countReacquire f 1).frameAdvance f 1 := by
  have hlate' : (s.timebase f).tooSoon = false := decide_eq_false (Nat.not_lt.mpr hlate)
  unfold State.takePulse
  dsimp only
  rw [h, href, hlate']
  exact (if_neg Bool.false_ne_true).trans (if_neg Bool.false_ne_true)

theorem takePulse_update {s : State} {f : FieldNo}
    (h : (s.timebase f).state = .track ∨ (s.timebase f).state = .locked)
    (hlate : (s.timebase f).nominal / 2 ≤ (s.timebase f).gap) : s.takePulse f = s.measuredPulse f 1 := by
  have hlate' : ¬ (s.timebase f).tooSoon = true := mt decide_eq_true_iff.mp (Nat.not_lt.mpr hlate)
  unfold State.takePulse
  dsimp only
  rcases h with h | h
  · rw [h]
    exact if_neg hlate'
  · rw [h]
    exact if_neg hlate'

theorem takePulse_holdover {s : State} {f : FieldNo} (h : (s.timebase f).state = .holdover) :
    s.takePulse f = s.measuredPulse f (s.timebase f).bridged := by
  unfold State.takePulse
  dsimp only
  rw [h]

theorem takePulse_lost {s : State} {f : FieldNo} (h : (s.timebase f).state = .lost) :
    s.takePulse f = ((s.setTimebase f (s.timebase f).recover).endStall f).frameAdvance f 1 := by
  unfold State.takePulse
  dsimp only
  rw [h]

/-- A stall that ends, reported: the field's show resumed, SEGMENT raised, SOUND let alone (R77). -/
theorem pulsed_resumed {s : State} {f : FieldNo} {y : Timebase} (h : (s.timebase f).state = .lost)
    (hstall : (s.program f).state = .paused .stall) :
    let c := (s.shown f { s.program f with state := .running } y).fieldChange f
    Pulsed s c f y ∧ PulseCounts s c f False False := by
  intro c
  have hun : s.unstalled f = { s.program f with state := .running } := if_pos ⟨h, hstall⟩
  obtain ⟨-, hprogram, htimebase, hraised, htallies, hrest⟩ :=
    fieldChanged_shown s f { s.program f with state := .running } y
  have hsound : c.attention.sound = s.attention.sound :=
    (congrArg Attention.sound (Told.fieldChange (s.shown f { s.program f with state := .running } y) f).flags :)
  refine ⟨⟨hrest, hprogram.trans hun.symm, htimebase, fun k _ _ h3 => htallies k h3, fun _ => hraised⟩,
    ⟨False.elim, fun _ => htallies _ fun e => (nomatch e), False.elim, fun _ => htallies _ fun e => (nomatch e),
      fun e => absurd e (not_or.mpr ⟨id, id⟩), fun _ _ => hsound⟩⟩

/-- Settles O23: no change, the glitch counted, the reference, and the pulse that leaves LOST with or without a stall. -/
theorem pulsesThatMeasureNothing : Obligations.PulsesThatMeasureNothing := by
  intro s f x
  refine ⟨fun h => congrArg Host.Outcome.next (takePulse_ignored h),
    fun h hsoon => congrArg Host.Outcome.next (takePulse_glitch h hsoon), fun h href => ?_, fun h => ?_⟩
  · intro y
    exact leaves_of_counted (fun e => nomatch h.symm.trans e) (counted_setTimebase s f 1 y)
      (congrArg Host.Outcome.next (takePulse_refer h href))
  · intro y
    have htaken : s.takePulse f = ((s.setTimebase f y).endStall f).frameAdvance f 1 := takePulse_lost h
    by_cases hstall : (s.program f).state = .paused .stall
    · obtain ⟨hpulsed, hcounts⟩ := pulsed_resumed (y := y) h hstall
      have hend : (s.setTimebase f y).endStall f = (s.shown f { s.program f with state := .running } y).fieldChange f :=
        if_pos (beq_iff_eq.mpr hstall)
      rw [hend] at htaken
      exact ⟨s.setTimebase f y, _, congrArg Host.Outcome.next htaken, hcounts.advanced 1, hpulsed.leaves 1, rfl,
        fun e => absurd hstall e, fun _ => rfl⟩
    · have hend : (s.setTimebase f y).endStall f = s.setTimebase f y := if_neg (mt beq_iff_eq.mp hstall)
      have hcounted := pulseCounted_setTimebase s f y
      rw [hend] at htaken
      exact ⟨s.setTimebase f y, _, congrArg Host.Outcome.next htaken, hcounted.counts.advanced 1,
        (hcounted.pulsed (if_neg fun e => hstall e.2)).leaves 1, rfl, fun _ => rfl, fun e => absurd e hstall⟩

/-! ### The pulses that measure (R100 to R106) -/

theorem boundDivisor_cast (d : Int) : (boundDivisor d : Int) = max 127744 (min 134400 d) := by
  unfold boundDivisor clampInt
  omega

theorem losesLock_iff {x : Timebase} {e : Int} :
    x.losesLock e = true ↔ x.state = .locked ∧ 4 * x.settings.window < e.natAbs := by
  unfold Timebase.losesLock
  rw [Bool.and_eq_true, beq_iff_eq, decide_eq_true_eq]

theorem measure_eq (x : Timebase) (ns : Nat) : x.measure ns = { x with
    divisor := (max 127744 (min 134400 (frequencyTarget x.gap ns 1 : Int))).toNat
    range := decide (max 127744 (min 134400 (frequencyTarget x.gap ns 1 : Int)) ≠ frequencyTarget x.gap ns 1)
    slip := 0, run := 0, missed := 0, state := .track, lastGap := x.gap, lastStrobes := x.strobes, gap := 0
    strobes := 0 } := by
  unfold Timebase.measure
  dsimp only
  congr 1
  rw [← boundDivisor_cast]
  rw [Bool.eq_iff_iff, bne_iff_ne, decide_eq_true_eq, Ne, Ne, Nat.cast_inj]

theorem update_eq (x : Timebase) (ns k : Nat) : x.update ns k = { x with
    slip := x.newSlip ns k
    divisor := (max 127744 (min 134400 (x.pulledDivisor ns k))).toNat
    range := decide (max 127744 (min 134400 (x.pulledDivisor ns k)) ≠ x.pulledDivisor ns k)
    state := (x.judge (x.newSlip ns k)).1, run := (x.judge (x.newSlip ns k)).2
    missed := 0, lastGap := x.gap, lastStrobes := x.strobes, gap := 0, strobes := 0 } := by
  unfold Timebase.update
  dsimp only
  congr 1
  rw [← boundDivisor_cast, Bool.eq_iff_iff, bne_iff_ne, decide_eq_true_eq]

/-- The judgement of a pulse, by the state it finds (R106). -/
theorem judge_eq (x : Timebase) (e : Int) : x.judge e =
    if x.state = .track ∧ e.natAbs ≤ x.settings.window then
      (if 8 ≤ x.run + 1 then .locked else .track, x.run + 1)
    else if x.state = .locked ∧ e.natAbs ≤ 4 * x.settings.window then (.locked, x.run)
    else (.track, 0) := by
  unfold Timebase.judge
  cases hx : x.state with
  | track => by_cases hw : e.natAbs ≤ x.settings.window <;> by_cases hrun : 8 ≤ x.run + 1 <;> simp [hw, hrun]
  | locked => simp
  | _ => simp

/-- A timebase written, and a lock that is lost counted with SOUND (R106). -/
theorem pulseCounted_losesLock (s : State) (f : FieldNo) (y : Timebase) {loses : Prop} {lost : Bool}
    (h : lost = true ↔ loses) :
    PulseCounted s (if lost then ((s.setTimebase f y).count (.field f .lockLosses)).raiseSound f else s.setTimebase f y)
      f y False loses := by
  cases lost with
  | false =>
    have hno : ¬ loses := fun e => Bool.false_ne_true (h.mpr e)
    obtain ⟨⟨h1, h2, -, h4, h5, h6⟩, h7, h8, h9, h10⟩ := pulseCounted_setTimebase s f y
    exact ⟨⟨h1, h2, fun e => absurd e hno, fun _ => rfl, fun e => absurd e (not_or.mpr ⟨id, hno⟩), fun e _ => h6 e id⟩, h7,
      fun e => absurd e (not_or.mpr ⟨id, hno⟩), fun e _ => h9 e id, h10⟩
  | true =>
    have hyes : loses := h.mp rfl
    have htally (k : Tally) : (((s.setTimebase f y).count (.field f .lockLosses)).raiseSound f).tally k =
        if Tally.field f .lockLosses = k then min 65535 (s.tally (.field f .lockLosses) + 1) else s.tally k :=
      State.tally_count (s.setTimebase f y) _ k 1
    refine ⟨⟨False.elim, fun _ => (htally _).trans (if_neg fun e => nomatch e), fun _ => (htally _).trans (if_pos rfl),
      fun e => absurd hyes e, fun _ => raiseSound_raised _ f, fun _ e => absurd hyes e⟩,
      fun k _ h' => (htally k).trans (if_neg (Ne.symm h')), fun _ => rfl, fun _ e => absurd hyes e, rfl⟩

/-- Settles O24: the measured timebase written out, what it counts counted, then the frame advance. -/
theorem pulsesThatMeasure : Obligations.PulsesThatMeasure := by
  intro s f x ns target range
  refine ⟨fun h href hlate => ?_, fun h => ?_⟩
  · intro y
    have hy : x.measure ns = y := measure_eq x ns
    refine leaves_of_counted (fun e => nomatch h.symm.trans e) (counted_setTimebase s f 1 y)
      (congrArg Host.Outcome.next ?_)
    rw [← hy]
    exact takePulse_measure h href hlate
  · intro k e pulled d w judged y loses
    have hy : x.update ns k = y := by
      rw [update_eq, judge_eq]
      rfl
    have hlost : x.state ≠ .lost := fun e => by
      rcases h with ⟨h | h, -⟩ | h <;> exact nomatch h.symm.trans e
    have htaken : s.takePulse f = s.measuredPulse f k := by
      rcases h with ⟨h, hlate⟩ | h
      · have hk : k = 1 := if_neg fun e => by rcases h with h | h <;> exact nomatch h.symm.trans e
        rw [hk]
        exact takePulse_update h hlate
      · have hk : k = x.bridged := if_pos h
        rw [hk]
        exact takePulse_holdover h
    have hcounted := pulseCounted_losesLock s f y (loses := loses) (losesLock_iff (x := x) (e := e))
    refine leaves_of_counted hlost (hcounted.after (countReacquire_spec _ f k y ?_)) (congrArg Host.Outcome.next ?_)
    · exact (congrArg (fun t : State => t.timebase f) hcounted.frame :).trans (look_put_self _ _ _)
    · rw [htaken, ← hy]
      rfl

end Sys2Proof.Machine
end

section
/-! PROOF. The judging of a command frame (O4) and the frames that reach no block (O8). -/

namespace Sys2Proof.Machine

/-! ### The judging of a frame (R174, R175) -/

theorem frameWellMade_iff (first : Nat) (rest : List Nat) (off : Bool) : frameWellMade (first :: rest) off = true ↔
    off = false ∧ ∃ len args, rest = len :: args ∧ args.length = len := by
  unfold frameWellMade
  cases rest with
  | nil => simp
  | cons len args => simp [eq_comm (a := args.length)]

theorem busy_iff (s : State) : s.busy = true ↔ s.port.taken ≠ none := by
  unfold State.busy
  cases s.port.taken <;> simp

/-- PORT raised with a kind of flag (R174, R180). -/
def Attention.portFlagged (a : Attention) (kind : BitVec 3) : Attention :=
  { a with causes := a.causes ||| 0x200#10, portKinds := a.portKinds ||| kind }

theorem judgeFrame_malformed {s : State} {bytes : List Nat} {off busy : Bool} (h : ¬ frameWellMade bytes off = true) :
    s.judgeFrame bytes off busy = { s with attention := s.attention.portFlagged 1#3 } :=
  if_pos (by rw [Bool.not_eq_true] at h; rw [h]; rfl)

theorem judgeFrame_busy {s : State} {bytes : List Nat} {off busy : Bool} (h : frameWellMade bytes off = true)
    (hbusy : busy = true) : s.judgeFrame bytes off busy = { s with attention := s.attention.portFlagged 2#3 } :=
  (if_neg (by rw [h]; exact Bool.false_ne_true)).trans (if_pos hbusy)

theorem takeFrame_eq (s : State) (bytes : List Nat) : s.takeFrame bytes = { s with
    port := { s.port with taken := some ⟨bytes, workCycles s.freeCount⟩, reply := none }
    attention := if s.port.reply = none then s.attention else s.attention.portFlagged 4#3
    freeCount := s.freeCount + 1 } := by
  unfold State.takeFrame
  obtain ⟨h, e⟩ | ⟨h, e⟩ := s.discardReply_spec
  · rw [e, if_pos h, ← h]
  · rw [e, if_neg h]
    rfl

theorem judgeFrame_taken {s : State} {bytes : List Nat} {off busy : Bool} (h : frameWellMade bytes off = true)
    (hbusy : ¬ busy = true) : s.judgeFrame bytes off busy = s.takeFrame bytes :=
  (if_neg (by rw [h]; exact Bool.false_ne_true)).trans (if_neg hbusy)

theorem workCycles_bounds (n : Nat) : 1 ≤ workCycles n ∧ workCycles n ≤ 1228 := by
  unfold workCycles
  omega

/-! ### The rise of SEL (R173) -/

theorem exec_rises_low {s : State} {p : Period} (h : s.port.select = .low p) (off : Bool) :
    exec (.commandFrameJudged [] (.rises off)) s = .next
      (({ s with port := { s.port with select := .high } } : State).endPeriod p (off || !p.bits.isEmpty)) := by
  have hrises : exec (.commandFrameJudged [] (.rises off)) s = .next (s.selRises off) := by
    change execCommandFrameJudged [] (.rises off) s = _
    unfold execCommandFrameJudged
    cases hselect : s.port.select with
    | high => exact nomatch h.symm.trans hselect
    | _ => exact rfl
  rw [hrises]
  unfold State.selRises
  rw [h]

theorem endPeriod_command {s : State} {p : Period} {first : Nat} {rest : List Nat} (h : p.bytes = first :: rest)
    (hstatus : first ≠ 0xF1) (hfetch : first ≠ 0xF2) (off : Bool) :
    s.endPeriod p off = s.judgeFrame p.bytes off (s.busy || p.busyAtLastBit) := by
  unfold State.endPeriod
  rw [h]
  exact (if_neg hstatus).trans (if_neg hfetch)

theorem exec_whole {s : State} (h : s.port.select = .high) (bytes : List Nat) (off : Bool) :
    exec (.commandFrameJudged bytes (.rises off)) s = .next (s.wholePeriod bytes off) := by
  change execCommandFrameJudged bytes (.rises off) s = _
  unfold execCommandFrameJudged
  rw [h]

theorem wholePeriod_command {s : State} {first : Nat} {rest : List Nat}
    (hstatus : first ≠ 0xF1) (hfetch : first ≠ 0xF2) (off : Bool) : s.wholePeriod (first :: rest) off =
      (s.clockStatus (rest.length + 1)).judgeFrame (first :: rest) off s.busy :=
  (if_neg hstatus).trans (if_neg hfetch)

/-- Settles O4: what the rise of SEL hands to the judging, by whether the frame is well made and ended while BUSY. -/
theorem commandFrameIsJudgedAtTheRiseOfSel : Obligations.CommandFrameIsJudgedAtTheRiseOfSel := by
  refine ⟨fun s p first rest off hstatus hfetch hlow hbytes => ?_, fun s first rest off hstatus hfetch hhigh => ?_⟩
  · intro i wellMade flagged
    have hexec := exec_rises_low hlow off
    rw [endPeriod_command hbytes hstatus hfetch, hbytes] at hexec
    have hwell : frameWellMade (first :: rest) (off || !p.bits.isEmpty) = true ↔ wellMade := by
      rw [frameWellMade_iff, Bool.or_eq_false_iff, Bool.not_eq_false', List.isEmpty_iff, and_assoc]
    have hbusy : (({ s with port := { s.port with select := .high } } : State).busy || p.busyAtLastBit) = true ↔
        s.port.taken ≠ none ∨ p.busyAtLastBit = true := by
      rw [Bool.or_eq_true, busy_iff]
    refine ⟨fun h => ?_, fun h hb => ?_, fun h hfree hb => ⟨workCycles s.freeCount, (workCycles_bounds _).1, (workCycles_bounds _).2, ?_⟩⟩
    · rw [judgeFrame_malformed (mt hwell.mp h)] at hexec
      exact hexec
    · rw [judgeFrame_busy (hwell.mpr h) (hbusy.mpr hb)] at hexec
      exact hexec
    · rw [judgeFrame_taken (hwell.mpr h) (mt hbusy.mp (by rw [not_or, not_not, Bool.not_eq_true]; exact ⟨hfree, hb⟩)), takeFrame_eq] at hexec
      exact hexec
  · intro i sdo wellMade flagged
    have hexec := exec_whole hhigh (first :: rest) off
    rw [wholePeriod_command hstatus hfetch] at hexec
    have hwell := frameWellMade_iff first rest off
    refine ⟨fun h => ?_, fun h hb => ?_, fun h hfree => ⟨workCycles s.freeCount, (workCycles_bounds _).1, (workCycles_bounds _).2, ?_⟩⟩
    · rw [judgeFrame_malformed (mt hwell.mp h)] at hexec
      exact hexec
    · rw [judgeFrame_busy (hwell.mpr h) ((busy_iff s).mpr hb)] at hexec
      exact hexec
    · rw [judgeFrame_taken (hwell.mpr h) (mt (busy_iff s).mp (not_not.mpr hfree)), takeFrame_eq] at hexec
      exact hexec

/-! ### Frames that reach no block (R174, R175, R186) -/

/-- Edges of SCK outside a period under way change nothing (R172, R186). -/
theorem clockEdges_idle {s : State} (h : ∀ p, s.port.select ≠ .low p) (edges : List SckEdge) : s.clockEdges edges = s := by
  induction edges with
  | nil => rfl
  | cons e rest ih =>
    obtain ⟨-, he⟩ | ⟨p, -, -, hp, -⟩ := s.clockEdge_spec e
    · exact (congrArg (State.clockEdges · rest) he).trans ih
    · exact absurd hp (h p)

/-- The bytes that go on in a period: SEL does not fall again. -/
theorem exec_stays {s : State} (h : s.port.select ≠ .high) (bytes : List Nat) (edges : List SckEdge) :
    exec (.commandFrameJudged bytes (.stays edges)) s = .next (s.clockEdges (edgesOfBytes bytes ++ edges)) := by
  have hselFalls : s.selFalls = s := by
    obtain ⟨hhigh, -⟩ | ⟨-, e⟩ := s.selFalls_spec
    · exact absurd hhigh h
    · exact e
  change Host.Outcome.next (s.selFalls.clockEdges (edgesOfBytes bytes ++ edges)) = _
  rw [hselFalls]

theorem exec_rises {s : State} (h : s.port.select ≠ .high) (bytes : List Nat) (off : Bool) :
    exec (.commandFrameJudged bytes (.rises off)) s = .next ((s.clockEdges (edgesOfBytes bytes)).selRises off) := by
  change execCommandFrameJudged bytes (.rises off) s = _
  unfold execCommandFrameJudged
  cases hselect : s.port.select with
  | high => exact absurd hselect h
  | _ => exact rfl

/-- Settles O8: the frame discarded while BUSY, the period set aside, and the port that takes none. -/
theorem framesThatReachNoBlock : Obligations.FramesThatReachNoBlock := by
  intro s
  refine ⟨fun i hi hbusy hhigh => ?_, fun haside => ?_, fun h => ?_, fun hreset bytes after => ?_, fun hp code args => ?_⟩
  · rw [exec_frame s i hi, State.command_busy (Option.isSome_iff_ne_none.mpr hbusy) hhigh]
    rfl
  · have hidle : ∀ p, s.port.select ≠ .low p := fun p e => nomatch haside.symm.trans e
    have hhigh : s.port.select ≠ .high := fun e => nomatch haside.symm.trans e
    intro t
    refine ⟨fun i hi => ?_, fun n => ⟨?_, ?_⟩, fun bytes off => ?_, fun bytes edges => ?_⟩
    · rw [exec_frame s i hi, State.command_aside haside]
      rfl
    · exact congrArg Host.Outcome.next (State.selectPeriod_aside haside _)
    · exact congrArg Host.Outcome.next (State.selectPeriod_aside haside _)
    · rw [exec_rises hhigh, clockEdges_idle hidle, State.selRises]
      rw [haside]
      rfl
    · rw [exec_stays hhigh, clockEdges_idle hidle]
  · have hstands (effect : State → State) : s.selectPeriod effect = s := by
      rcases h with h | ⟨p, h⟩
      · exact State.selectPeriod_inReset h effect
      · exact State.selectPeriod_low h effect
    exact ⟨fun i hi => (exec_frame s i hi).trans (congrArg Host.Outcome.next (hstands _)),
      fun n => ⟨congrArg Host.Outcome.next (hstands _), congrArg Host.Outcome.next (hstands _)⟩⟩
  · have hidle : ∀ p, s.port.select ≠ .low p := fun p e => nomatch hreset.symm.trans e
    have hhigh : s.port.select ≠ .high := fun e => nomatch hreset.symm.trans e
    cases after with
    | rises off =>
      rw [exec_rises hhigh, clockEdges_idle hidle, State.selRises]
      rw [hreset]
    | stays edges => rw [exec_stays hhigh, clockEdges_idle hidle]
  · exact denied_of_records rfl hp fun _ _ => rfl

end Sys2Proof.Machine
end

section
/-! PROOF. Part reset and the output lines (O9). -/

namespace Sys2Proof.Machine

/-! ### The output lines (R182, R186) -/

theorem inReset_iff (s : State) : s.inReset = true ↔ s.port.select = .inReset := beq_iff_eq

theorem look_map {α β : Type} {n : Nat} (g : α → β) (v : Vector α n) (i : Fin n) : look (v.map g) i = g (look v i) := by
  simp [look]

theorem lines_running {s : State} (h : s.port.select ≠ .inReset) : s.lines =
    { attn := s.attn
      barriers := s.lanes.map Lane.barrier
      full := s.fieldUnits.map FieldUnit.full
      cues := s.programs.map ProgramUnit.cues
      txen := s.programs.map ProgramUnit.txen
      wordClock := s.timebases.map Timebase.wordClock
      marker := s.timebases.map Timebase.marked
      khold := s.hold } := if_neg (mt (inReset_iff s).mp h)

/-! ### Part reset (R186) -/

theorem LoopInput.afterReset_eq (x : LoopInput) : x.afterReset =
    { level := .clear, raw := x.raw, filter := if x.raw = .occupied then some 50 else none } := by
  unfold LoopInput.afterReset
  congr 1
  exact if_congr beq_iff_eq rfl rfl

theorem Lane.afterReset_eq (x : Lane) : x.afterReset =
    { arrival := { raw := x.arrival.raw, filter := if x.arrival.raw = .occupied then some 50 else none }
      pass := { raw := x.pass.raw, filter := if x.pass.raw = .occupied then some 50 else none } } := by
  unfold Lane.afterReset
  rw [x.arrival.afterReset_eq, x.pass.afterReset_eq]

/-- The row of part reset: where RESET rises, it was low before (R186). -/
theorem exec_partReset {s : State} {part : ResetPart} {select : SelectLine}
    (h : (∃ selLow, (part = .pulse selLow ∨ (part = .rises selLow ∧ s.port.select = .inReset)) ∧
        select = if selLow then .aside else .high) ∨ (part = .falls ∧ select = .inReset)) :
    exec (.partReset part) s = .next (s.partReset select) := by
  rcases h with ⟨selLow, rfl | ⟨rfl, hreset⟩, rfl⟩ | ⟨rfl, rfl⟩
  · exact rfl
  · exact congrArg Host.Outcome.next (if_pos ((inReset_iff s).mpr hreset))
  · exact rfl

theorem sdoLevel_of_select {s : State} (h : ∀ p, s.port.select ≠ .low p) : s.sdoLevel = none := by
  unfold State.sdoLevel
  cases hselect : s.port.select with
  | low p => exact absurd hselect (h p)
  | _ => rfl

/-- Settles O9: the lines by the level of RESET, and each record of part reset read off its equation. -/
theorem partResetRestoresEveryRecord : Obligations.PartResetRestoresEveryRecord := by
  refine ⟨fun s => ⟨fun h => ⟨State.lines_inReset h, ?_, fun hpending => ?_⟩, fun h => ?_, fun h selLow => ?_⟩,
    fun s part select h => ?_⟩
  · exact sdoLevel_of_select fun p e => nomatch h.symm.trans e
  · unfold step
    rw [hpending]
    exact congrArg Host.Outcome.next (State.tick_inReset h)
  · rw [lines_running h]
    exact ⟨bne_iff_ne, rfl, fun l => look_map _ _ l,
      fun f => ⟨look_map _ _ f, look_map _ _ f, look_map _ _ f, look_map _ _ f, look_map _ _ f⟩⟩
  · exact congrArg Host.Outcome.next (if_neg (mt (inReset_iff s).mp h))
  · have hlow : ∀ p, select ≠ .low p := fun p => by
      rintro rfl
      rcases h with ⟨selLow, -, e⟩ | ⟨-, e⟩
      · cases selLow <;> exact nomatch e
      · exact nomatch e
    refine ⟨s.partReset select, exec_partReset h, ?_⟩
    have heq := s.partReset_eq select
    generalize s.partReset select = t at heq
    have hlane (l : LaneNo) : t.lane l = (s.lane l).afterReset := by
      rw [heq]
      exact look_ofFn _ l
    have hprogram (f : FieldNo) : t.program f = { carrier := (s.program f).carrier } := by
      rw [heq]
      exact look_ofFn _ f
    refine ⟨?_, fun l => (hlane l).trans (Lane.afterReset_eq _), hprogram, ?_, ?_, ?_,
      fun l => (hlane l).trans (Lane.afterReset_eq _), ?_, hprogram, ?_⟩
    · subst heq
      rfl
    all_goals subst heq
    · exact fun f => look_replicate _ f
    · exact fun h => look_replicate _ h
    · rfl
    · exact fun k => look_replicate _ _
    refine ⟨fun f => look_replicate _ f, fun n => ?_, fun b => look_replicate _ b, rfl, rfl, fun o => look_replicate _ o, rfl,
      rfl, fun n => look_replicate _ n, rfl, rfl, fun k => look_replicate _ k, rfl, rfl, rfl, rfl,
      bne_eq_false_iff_eq.mpr BitVec.zero_and, sdoLevel_of_select hlow⟩
    have hslot := look_replicate (n := 128) ({} : SetSlot) n
    exact ⟨congrArg SetSlot.state hslot, congrArg SetSlot.timer hslot⟩

end Sys2Proof.Machine
end

section
/-! PROOF. What the events that fall due in one MCLK cycle leave, and the completion of a taken frame (O5). -/

namespace Sys2Proof.Machine

variable {s t : State}

/-! ### The events of one cycle, taken in turn -/

theorem takeAll_cons (e : Due) (rest : List Due) (s : State) :
    ∃ n, takeAll (e :: rest) s = takeAll rest (({ s with freeCount := n } : State).takeIfDue e) := by
  cases rest with
  | nil => exact ⟨s.freeCount, rfl⟩
  | cons e' rest => exact ⟨s.freeCount + 1, rfl⟩

/-- What the drawing of a free value and every event keep, all the events of a cycle keep. -/
theorem takeAll_induct {P : State → Prop} (hdraw : ∀ s n, P s → P { s with freeCount := n })
    (htake : ∀ s e, P s → P (s.takeIfDue e)) (due : List Due) (h : P s) : P (takeAll due s) := by
  induction due generalizing s with
  | nil => exact h
  | cons e rest ih =>
    obtain ⟨n, he⟩ := takeAll_cons e rest s
    rw [he]
    exact ih (htake _ e (hdraw s n h))

theorem takeIfDue_of_due {e : Due} (h : s.isDue e = true) : s.takeIfDue e = s.takeDue e := if_pos h

theorem takeIfDue_of_not_due {e : Due} (h : ¬ s.isDue e = true) : s.takeIfDue e = s := if_neg h

/-- A timer or a limit that is due leaves the port and the queue alone. -/
theorem takeIfDue_beside {e : Due} (h : e ≠ .completion) :
    (s.takeIfDue e).port = s.port ∧ (s.takeIfDue e).pending = s.pending := by
  by_cases hdue : s.isDue e = true
  · rw [takeIfDue_of_due hdue]
    obtain he | he | he := takeDue_cases s e
    · exact absurd he h
    · rw [he]
      exact ⟨rfl, rfl⟩
    · exact ⟨he.port, he.pending⟩
  · rw [takeIfDue_of_not_due hdue]
    exact ⟨rfl, rfl⟩

/-! ### The completion of a taken frame (R175, R176) -/

/-- A taken frame is at its end. -/
def State.atEnd (s : State) : Prop := ∃ x, s.port.taken = some x ∧ x.left = 0

theorem completion_isDue : s.isDue .completion = true ↔ s.atEnd := by
  change s.port.taken.any (fun x => x.left == 0) = true ↔ _
  rw [State.atEnd]
  cases s.port.taken <;> simp

/-- A reply is held and BUSY is clear. -/
def State.replied (s : State) : Prop := s.port.taken = none ∧ s.port.reply ≠ none

theorem takeIfDue_port_of_not_atEnd (h : ¬ s.atEnd) (e : Due) :
    (s.takeIfDue e).port = s.port ∧ (s.takeIfDue e).pending = s.pending := by
  by_cases he : e = .completion
  · subst he
    rw [takeIfDue_of_not_due (mt completion_isDue.mp h)]
    exact ⟨rfl, rfl⟩
  · exact takeIfDue_beside he

theorem atEnd_congr {p : Port} (h : t.port = p) : t.atEnd ↔ ∃ x, p.taken = some x ∧ x.left = 0 := by
  rw [State.atEnd, h]

/-- Before the frame's end the events of a cycle leave the port and the queue alone. -/
theorem takeAll_before (h : ¬ s.atEnd) (due : List Due) :
    (takeAll due s).port = s.port ∧ (takeAll due s).pending = s.pending := by
  refine takeAll_induct (P := fun t => t.port = s.port ∧ t.pending = s.pending) (fun _ _ ht => ht) (fun t e ht => ?_) due
    ⟨rfl, rfl⟩
  have hnot : ¬ t.atEnd := mt (atEnd_congr ht.1).mp h
  obtain ⟨hport, hpending⟩ := takeIfDue_port_of_not_atEnd hnot e
  exact ⟨hport.trans ht.1, hpending.trans ht.2⟩

theorem takeAll_replied (h : s.replied) (due : List Due) : (takeAll due s).replied := by
  refine takeAll_induct (P := State.replied) (fun _ _ ht => ht) (fun t e ht => ?_) due h
  have hnot : ¬ t.atEnd := fun ⟨x, hx, _⟩ => nomatch ht.1.symm.trans hx
  rw [State.replied, (takeIfDue_port_of_not_atEnd hnot e).1]
  exact ht

theorem finishTaken_replied (h : s.atEnd) : s.finishTaken.replied := by
  obtain ⟨x, hx, -⟩ := h
  unfold State.finishTaken
  rw [hx]
  exact ⟨rfl, fun e => nomatch e⟩

/-- At the frame's end the events of a cycle complete it. -/
theorem takeAll_completes {due : List Due} (hmem : .completion ∈ due) (h : s.atEnd) : (takeAll due s).replied := by
  induction due generalizing s with
  | nil => exact nomatch hmem
  | cons e rest ih =>
    obtain ⟨n, he⟩ := takeAll_cons e rest s
    rw [he]
    by_cases hcompletion : e = .completion
    · subst hcompletion
      have hend : ({ s with freeCount := n } : State).atEnd := h
      refine takeAll_replied ?_ rest
      rw [takeIfDue_of_due (completion_isDue.mpr hend)]
      exact finishTaken_replied hend
    · refine ih ((List.mem_cons.mp hmem).resolve_left (Ne.symm hcompletion)) ?_
      exact (atEnd_congr (takeIfDue_beside (s := { s with freeCount := n }) hcompletion).1).mpr h

theorem tick_running (h : s.port.select ≠ .inReset) :
    ∃ order : List Due, order.Perm s.cycle.dueNow ∧ s.tick = takeAll order s.cycle := by
  obtain ⟨order, hperm, he⟩ := settle_takeAll s.cycle _ s.cycle.dueNow rfl
  exact ⟨order, hperm, (if_neg (mt (inReset_iff s).mp h)).trans he⟩

theorem cycle_port : s.cycle.port = { s.port with taken := s.port.taken.map fun x => { x with left := x.left - 1 } } := by
  unfold State.cycle State.cycleMillisecond
  split <;> simp [State.cyclePort]

theorem cycle_pending : s.cycle.pending = s.pending := by
  unfold State.cycle State.cycleMillisecond
  split
  · rw [State.cycleTimebases_eq]
    rfl
  · rw [State.countMillisecond_eq, State.cycleTimebases_eq]
    rfl

/-- A cycle that brings a taken frame nearer its completion, and no further. -/
theorem tick_before {x : TakenFrame} (hrun : s.port.select ≠ .inReset) (htaken : s.port.taken = some x) (hleft : 1 < x.left) :
    s.tick.port = { s.port with taken := some { x with left := x.left - 1 } } ∧ s.tick.pending = s.pending := by
  obtain ⟨order, -, he⟩ := tick_running hrun
  have hport : s.cycle.port = { s.port with taken := some { x with left := x.left - 1 } } := by
    rw [cycle_port, htaken]
    rfl
  have hnot : ¬ s.cycle.atEnd := mt (atEnd_congr hport).mp fun ⟨y, hy, hzero⟩ => by
    cases hy
    dsimp only at hzero
    omega
  obtain ⟨h, h'⟩ := takeAll_before hnot order
  rw [he]
  exact ⟨h.trans hport, h'.trans cycle_pending⟩

/-- The cycle that completes a taken frame. -/
theorem tick_completes {x : TakenFrame} (hrun : s.port.select ≠ .inReset) (htaken : s.port.taken = some x)
    (hleft : x.left ≤ 1) : s.tick.replied := by
  obtain ⟨order, hperm, he⟩ := tick_running hrun
  have hend : s.cycle.atEnd := (atEnd_congr cycle_port).mpr ⟨{ x with left := x.left - 1 }, by rw [htaken]; rfl,
    Nat.sub_eq_zero_of_le hleft⟩
  rw [he]
  refine takeAll_completes (hperm.mem_iff.mpr (List.mem_filter.mpr ⟨List.mem_cons_self, completion_isDue.mpr hend⟩)) hend

theorem step_empty (h : s.pending = []) : step s = .next s.tick := by
  unfold step
  rw [h]

theorem step_next (s : State) : ∃ u, step s = .next u := by
  unfold step
  split
  · obtain ⟨u, hu, -⟩ := everyRowAnswersANextState _ _
    exact ⟨u, hu⟩
  · exact ⟨_, rfl⟩

theorem run_succ {u : State} {k : Nat} (h : step s = .next u) : core.run (k + 1) s = core.run k u := by
  have hstep : core.step s = .next u := h
  exact (Host.Core.run.eq_2 core s k).trans (by rw [hstep])

theorem run_one_more {k : Nat} (h : core.run k s = .next t) : core.run (k + 1) s = step t := by
  induction k generalizing s with
  | zero =>
    cases h
    obtain ⟨u, hu⟩ := step_next t
    exact (run_succ hu).trans hu.symm
  | succ k ih =>
    obtain ⟨u, hu⟩ := step_next s
    exact (run_succ hu).trans (ih ((run_succ hu).symm.trans h))

/-- So many cycles short of its completion a taken frame stays taken, and the machine runs on. -/
theorem run_before {x : TakenFrame} {k : Nat} (hpending : s.pending = []) (hrun : s.port.select ≠ .inReset)
    (htaken : s.port.taken = some x) (hk : k < max 1 x.left) :
    ∃ t : State, core.run k s = .next t ∧ t.port = { s.port with taken := some { x with left := x.left - k } } ∧
      t.pending = [] := by
  induction k with
  | zero => exact ⟨s, rfl, by rw [Nat.sub_zero, ← htaken], hpending⟩
  | succ k ih =>
    obtain ⟨t, ht, hport, hqueue⟩ := ih (by omega)
    obtain ⟨hport', hqueue'⟩ := tick_before (s := t) (by rw [hport]; exact hrun) (by rw [hport]) (by dsimp only; omega)
    refine ⟨t.tick, (run_one_more ht).trans (step_empty hqueue), ?_, hqueue'.trans hqueue⟩
    rw [hport', hport, Nat.sub_sub]

/-- Settles O5: by induction on the cycles before the last, and the cycle that completes the frame. -/
theorem busyClearsInTime : Obligations.BusyClearsInTime := by
  intro s x hpending hrun htaken
  refine ⟨fun k hk => ?_, ?_⟩
  · obtain ⟨t, ht, hport, -⟩ := run_before hpending hrun htaken hk
    exact ⟨t, ht, by rw [hport]⟩
  · obtain ⟨t, ht, hport, hqueue⟩ := run_before (k := max 1 x.left - 1) hpending hrun htaken (by omega)
    obtain ⟨hfree, hreply⟩ := tick_completes (s := t) (x := { x with left := x.left - (max 1 x.left - 1) })
      (by rw [hport]; exact hrun) (by rw [hport]) (by dsimp only; omega)
    refine ⟨t.tick, ?_, hfree, hreply⟩
    have hlast : max 1 x.left = max 1 x.left - 1 + 1 := by omega
    rw [hlast]
    exact (run_one_more ht).trans (step_empty hqueue)

end Sys2Proof.Machine
end

section
/-! PROOF. One MCLK cycle on an empty queue (O3). -/

namespace Sys2Proof.Machine

variable {s t : State}

/-! ### What one cycle counts (R1, R45, R91) -/

/-- A timer through the cycle: a millisecond less at the millisecond's end (R1). -/
def State.down (s : State) (timer : Option Nat) : Option Nat := if s.phase + 1 < 24576 then timer else countDown timer

theorem ofFn_look {α : Type} {n : Nat} (v : Vector α n) : (Vector.ofFn fun i => look v i) = v := by
  ext i hi
  simp [look]

/-- The tables of records with timers, read record by record. -/
theorem read_tables (s : State) : { s with
    lanes := Vector.ofFn fun l => s.lane l
    sets := Vector.ofFn fun n => s.slot n
    orders := Vector.ofFn fun o => s.order o
    trips := Vector.ofFn fun k => s.trip k } = s := by
  rw [show (Vector.ofFn fun l => s.lane l) = s.lanes from ofFn_look _,
    show (Vector.ofFn fun n => s.slot n) = s.sets from ofFn_look _,
    show (Vector.ofFn fun o => s.order o) = s.orders from ofFn_look _,
    show (Vector.ofFn fun k => s.trip k) = s.trips from ofFn_look _]

theorem cycle_eq (s : State) : s.cycle = { s with
    timebases := Vector.ofFn fun f => (s.timebase f).cycle (s.program f).ns
    lanes := Vector.ofFn fun l =>
      { s.lane l with
        timer := s.down (s.lane l).timer
        arrival := { (s.lane l).arrival with filter := s.down (s.lane l).arrival.filter }
        pass := { (s.lane l).pass with filter := s.down (s.lane l).pass.filter } }
    sets := Vector.ofFn fun n => { s.slot n with timer := s.down (s.slot n).timer }
    orders := Vector.ofFn fun o => (s.order o).map fun ord => { ord with timer := s.down ord.timer }
    trips := Vector.ofFn fun k => { s.trip k with timer := s.down (s.trip k).timer }
    phase := if s.phase + 1 < 24576 then s.phase + 1 else 0
    port := { s.port with taken := s.port.taken.map fun x => { x with left := x.left - 1 } } } := by
  unfold State.cycle State.cycleMillisecond State.cyclePort
  rw [State.cycleTimebases_eq]
  dsimp only
  by_cases h : s.phase + 1 < 24576
  · have hdown (timer : Option Nat) : s.down timer = timer := if_pos h
    have horders (ord : Option Order) : (ord.map fun x => { x with timer := x.timer }) = ord := Option.map_id'
    rw [if_pos h, if_pos h]
    simp only [hdown, horders]
    exact (congrArg (fun c : State => { c with
      timebases := Vector.ofFn fun f => (s.timebase f).cycle (s.program f).ns
      phase := s.phase + 1
      port := { s.port with taken := s.port.taken.map fun x : TakenFrame => { x with left := x.left - 1 } } })
      (read_tables s)).symm
  · have hdown (timer : Option Nat) : s.down timer = countDown timer := if_neg h
    rw [if_neg h, if_neg h, State.countMillisecond_eq]
    simp only [hdown]
    rfl

/-- One cycle of a timebase, by the edge it comes to (R91). -/
theorem Timebase.cycle_eq (x : Timebase) (ns : Nat) :
    let a := x.accumulator + 256
    let counts := x.state = .seek ∨ x.state = .track ∨ x.state = .locked ∨ x.state = .holdover
    let gap := if counts then min 4294967295 (x.gap + 1) else x.gap
    let last := ns ≤ x.marker + 1
    x.cycle ns = if x.state = .stopped then x
    else if x.divisor ≤ a then
      { x with
        accumulator := a - x.divisor, gap := gap, wordClock := true
        strobes := if counts then min 16777215 (x.strobes + 1) else x.strobes
        marker := if counts then (if last then 0 else x.marker + 1) else x.marker
        marked := if counts ∧ last then true else x.marked }
    else if x.wordClock = true ∧ x.divisor / 2 ≤ a then
      { x with accumulator := a, gap := gap, wordClock := false, marked := false }
    else { x with accumulator := a, gap := gap } := by
  intro a counts gap last
  have hcounts : x.state.counts = true ↔ counts := counts_iff _
  unfold Timebase.cycle
  refine if_congr beq_iff_eq rfl (if_ctx_congr Iff.rfl (fun _ => ?_) fun _ => if_ctx_congr ?_ (fun _ => ?_) fun _ => ?_)
  · refine (strobe_elapse x 1 ns).trans ?_
    simp only [hcounts]
    rfl
  · rw [Bool.and_eq_true, decide_eq_true_eq]
    rfl
  · simp only [Timebase.elapse, Timebase.fall, hcounts]
    rfl
  · simp only [Timebase.elapse, hcounts]
    rfl

/-- What a cycle leaves in an accumulator (R91). -/
theorem Timebase.cycle_accumulator (x : Timebase) (ns : Nat) : (x.cycle ns).accumulator =
    if x.state = .stopped then x.accumulator
    else if x.divisor ≤ x.accumulator + 256 then x.accumulator + 256 - x.divisor
    else x.accumulator + 256 := by
  rw [x.cycle_eq]
  split
  · rfl
  · split
    · rfl
    · split <;> rfl

/-! ### What the events of a cycle leave -/

theorem Event.phase (h : Event s t) : t.phase = s.phase := by
  cases h with
  | cycleTimebases => rw [State.cycleTimebases_eq]
  | countMillisecond => rw [State.countMillisecond_eq]
  | _ => simp

theorem Change.phase (h : Change s t) : t.phase = s.phase := by
  cases h with
  | admission => simp [State.admitInto]
  | writeClosedRows f closed =>
    unfold State.writeClosedRows State.evaluateSignIfLit
    dsimp only [State.ok]
    split <;> simp
  | _ => simp

theorem workOf_phase (i : Instr) (s : State) : (workOf i s).state.phase = s.phase := by
  by_cases hi : i = .closeDay
  · subst hi
    obtain e | e : (workCloseDay s).state = s ∨ (workCloseDay s).state = s.dayClosed := workCloseDay_state s
    · exact congrArg State.phase e
    · exact (congrArg State.phase e :)
  · obtain e | h := worked_workOf s i hi
    · exact congrArg State.phase e
    · exact h.phase

theorem frameWork_beside (bytes : List Nat) (s : State) :
    (frameWork bytes s).state.pending = s.pending ∧ (frameWork bytes s).state.phase = s.phase := by
  unfold frameWork
  split
  · exact ⟨rfl, rfl⟩
  · exact ⟨rfl, rfl⟩
  · exact ⟨workOf_pending _ s, workOf_phase _ s⟩

theorem takeIfDue_clock (s : State) (e : Due) :
    (s.takeIfDue e).pending = s.pending ∧ (s.takeIfDue e).phase = s.phase := by
  by_cases hdue : s.isDue e = true
  · rw [takeIfDue_of_due hdue]
    obtain rfl | he | he := takeDue_cases s e
    · simp only [State.takeDue, State.finishTaken]
      split
      · exact ⟨rfl, rfl⟩
      · exact frameWork_beside _ s
    · rw [he]
      exact ⟨rfl, rfl⟩
    · exact ⟨he.pending, he.phase⟩
  · rw [takeIfDue_of_not_due hdue]
    exact ⟨rfl, rfl⟩

/-- A timer or a limit leaves every accumulator alone. -/
theorem takeDue_accumulator {e : Due} (h : e ≠ .completion) (f : FieldNo) :
    ((s.takeDue e).timebase f).accumulator = (s.timebase f).accumulator := by
  have hwrite {t : State} {g : FieldNo} {x : Timebase} (ht : t.timebases = put s.timebases g x)
      (hx : x.accumulator = (s.timebase g).accumulator) : (t.timebase f).accumulator = (s.timebase f).accumulator := by
    unfold State.timebase
    rw [ht, look_put]
    split
    · next hg => rw [← hg]; exact hx
    · rfl
  have hsame {t : State} (ht : t.timebases = s.timebases) : (t.timebase f).accumulator = (s.timebase f).accumulator :=
    congrArg (fun v : Vector Timebase 4 => (look v f).accumulator) ht
  cases e with
  | completion => exact absurd rfl h
  | overdue g =>
    simp only [State.takeDue, State.overduePulse]
    split
    · exact hwrite rfl rfl
    · rfl
  | holdover g =>
    simp only [State.takeDue, State.expireHoldover]
    split
    · split
      · exact hwrite rfl rfl
      · exact hwrite (State.stallField_frame _ g).2.2.2.2.1 rfl
    · rfl
  | reference g =>
    simp only [State.takeDue, State.dropReference]
    split
    · exact hwrite rfl rfl
    · rfl
  | loop l which =>
    refine hsame ?_
    simp only [State.takeDue, State.loopPasses]
    split <;> simp
  | passTimer l =>
    refine hsame ?_
    simp only [State.takeDue]
    split <;> simp
  | issueTimer n => exact hsame (by simp [State.takeDue])
  | prepTimer o => exact hsame (by simp [State.takeDue])
  | gatherTimer k => exact hsame (by simp [State.takeDue])

/-- With no frame taken the events of a cycle leave BUSY clear and every accumulator alone. -/
theorem takeAll_accumulators (h : s.port.taken = none) (due : List Due) :
    (takeAll due s).port.taken = none ∧
      ∀ f, ((takeAll due s).timebase f).accumulator = (s.timebase f).accumulator := by
  refine takeAll_induct (P := fun t => t.port.taken = none ∧
    ∀ f, (t.timebase f).accumulator = (s.timebase f).accumulator) (fun _ _ ht => ht) (fun t e ht => ?_) due ⟨h, fun _ => rfl⟩
  have hnot : ¬ t.atEnd := fun ⟨x, hx, _⟩ => nomatch ht.1.symm.trans hx
  refine ⟨(congrArg Port.taken (takeIfDue_port_of_not_atEnd hnot e).1).trans ht.1, fun f => Eq.trans ?_ (ht.2 f)⟩
  by_cases hdue : t.isDue e = true
  · have he : e ≠ .completion := fun hc => hnot (completion_isDue.mp (hc ▸ hdue))
    rw [takeIfDue_of_due hdue]
    exact takeDue_accumulator he f
  · rw [takeIfDue_of_not_due hdue]

theorem takeAll_clock (due : List Due) (s : State) :
    (takeAll due s).pending = s.pending ∧ (takeAll due s).phase = s.phase :=
  takeAll_induct (P := fun t => t.pending = s.pending ∧ t.phase = s.phase) (fun _ _ ht => ht)
    (fun t e ht => ⟨(takeIfDue_clock t e).1.trans ht.1, (takeIfDue_clock t e).2.trans ht.2⟩) due ⟨rfl, rfl⟩

/-! ### The rows of the events that fall due -/

theorem takeDue_loop {l : LaneNo} :
    ((s.lane l).arrival.raw = .occupied → s.takeDue (.loop l .arrival) = s.arrivalOccupied l) ∧
    ((s.lane l).arrival.raw = .clear → s.takeDue (.loop l .arrival) = s.arrivalCleared l) ∧
    ((s.lane l).pass.raw = .occupied → s.takeDue (.loop l .pass) = s.passOccupied l) ∧
    ((s.lane l).pass.raw = .clear → s.takeDue (.loop l .pass) = s.passCleared l) := by
  refine ⟨fun h => ?_, fun h => ?_, fun h => ?_, fun h => ?_⟩
  all_goals
    simp only [State.takeDue, State.loopPasses, Lane.loop]
    rw [h]

/-- Settles O3: the cycle's counting by its equation, the events taken in turn, and each event's row by its definition. -/
theorem anEmptyQueuePassesOneCycle : Obligations.AnEmptyQueuePassesOneCycle := by
  refine fun s hpending => ⟨fun h => ?_, fun h => ?_, fun a h => ?_⟩
  · exact (step_empty hpending).trans (congrArg Host.Outcome.next (State.tick_inReset h))
  · intro c down
    obtain ⟨order, hperm, htick⟩ := tick_running h
    have hcycle : c = _ := cycle_eq s
    have htimebase (f : FieldNo) : c.timebase f = (s.timebase f).cycle (s.program f).ns := by
      rw [hcycle]
      exact look_ofFn _ f
    obtain ⟨hqueue, hphase⟩ := takeAll_clock order c
    refine ⟨⟨s.tick, step_empty hpending, ?_, ?_, fun hfree => ?_⟩, ?_, fun f => ?_, fun l => ?_, fun n => ?_, fun o => ?_,
      fun k => ?_, order, hperm, (step_empty hpending).trans (congrArg Host.Outcome.next htick)⟩
    · rw [htick, hqueue, hcycle]
      exact hpending
    · rw [htick, hphase, hcycle]
    · have hidle : c.port.taken = none := by
        rw [hcycle]
        exact congrArg (Option.map _) hfree
      obtain ⟨htaken, haccumulators⟩ := takeAll_accumulators hidle order
      rw [htick]
      exact ⟨htaken, fun f => (haccumulators f).trans ((congrArg Timebase.accumulator (htimebase f)).trans
        ((s.timebase f).cycle_accumulator _))⟩
    · rw [hcycle]
    · exact (htimebase f).trans ((s.timebase f).cycle_eq _)
    · rw [hcycle]
      exact look_ofFn _ l
    · rw [hcycle]
      exact look_ofFn _ n
    · rw [hcycle]
      exact look_ofFn _ o
    · rw [hcycle]
      exact look_ofFn _ k
  · intro due taken
    have hrow {e : Due} {i : Instr} (hi : exec i a = .next (a.takeDue e)) : taken e i := fun hdue =>
      hi.trans (congrArg Host.Outcome.next (takeIfDue_of_due hdue).symm)
    have hawake {t : State} : (if a.inReset then a else t) = t := if_neg (mt (inReset_iff a).mp h)
    refine ⟨fun e he => takeIfDue_of_not_due he, completion_isDue, fun he => takeIfDue_of_due he, fun f => ?_, fun l => ?_,
      fun l => hrow ?_, fun l => hrow ?_, fun n => ⟨beq_iff_eq, hrow rfl⟩, fun o => ⟨?_, hrow rfl⟩,
      fun k => ⟨beq_iff_eq, hrow rfl⟩⟩
    · refine ⟨?_, ?_, ?_, hrow rfl, hrow rfl, hrow rfl⟩
      · exact (Bool.and_eq_true _ _).to_iff.trans (and_congr (tracks_iff _) decide_eq_true_iff)
      · exact (Bool.and_eq_true _ _).to_iff.trans (and_congr beq_iff_eq decide_eq_true_iff)
      · refine (Bool.and_eq_true _ _).to_iff.trans ((and_congr ((Bool.and_eq_true _ _).to_iff.trans (and_congr beq_iff_eq Iff.rfl))
          decide_eq_true_iff).trans and_assoc)
    · obtain ⟨h1, h2, h3, h4⟩ := takeDue_loop (s := a) (l := l)
      exact ⟨beq_iff_eq, beq_iff_eq, beq_iff_eq, fun hraw => hrow (congrArg Host.Outcome.next (hawake.trans (h1 hraw).symm)),
        fun hraw => hrow (congrArg Host.Outcome.next (h2 hraw).symm),
        fun hraw => hrow (congrArg Host.Outcome.next (hawake.trans (h3 hraw).symm)),
        fun hraw => hrow (congrArg Host.Outcome.next (h4 hraw).symm)⟩
    · exact congrArg Host.Outcome.next (if_pos (by simp [isEntryLane, entryLane])).symm
    · exact congrArg Host.Outcome.next (if_neg (by simp [isEntryLane, exitLane])).symm
    · change (a.order o).any (fun ord => ord.timer == some 0) = true ↔ _
      cases a.order o <;> simp

end Sys2Proof.Machine
end

section
/-! PROOF. Frames and the commands they carry (O6). -/

namespace Sys2Proof.Machine

/-! ### Numbers and plates read back (R187) -/

theorem beNat_be2 {n : Nat} (h : isWord n = true) : beNat (be2 n) = n := by
  have hn : n < 65536 := decide_eq_true_iff.mp h
  change (0 * 256 + n / 256 % 256) * 256 + n % 256 = n
  omega

theorem beNat_be3 {n : Nat} (h : isThree n = true) : beNat (be3 n) = n := by
  have hn : n < 16777216 := decide_eq_true_iff.mp h
  change ((0 * 256 + n / 65536 % 256) * 256 + n / 256 % 256) * 256 + n % 256 = n
  omega

theorem beNat_be4 {n : Nat} (h : isFour n = true) : beNat (be4 n) = n := by
  have hn : n < 4294967296 := decide_eq_true_iff.mp h
  change (((0 * 256 + n / 16777216 % 256) * 256 + n / 65536 % 256) * 256 + n / 256 % 256) * 256 + n % 256 = n
  omega

theorem beNat_be6 {n : Nat} (h : isSix n = true) : beNat (be6 n) = n := by
  have hn : n < 281474976710656 := decide_eq_true_iff.mp h
  change (((((0 * 256 + n / 1099511627776 % 256) * 256 + n / 4294967296 % 256) * 256 + n / 16777216 % 256) * 256 +
    n / 65536 % 256) * 256 + n / 256 % 256) * 256 + n % 256 = n
  omega

/-- A list of a known length, position by position. -/
theorem eq_map_range_of_length {args : List Nat} {n : Nat} (h : args.length = n) :
    args = (List.range n).map fun k => args.getD k 0 := by
  subst h
  refine List.ext_getElem (by simp) fun k hk hk' => ?_
  simp [hk]

theorem unpack_pack {plate : List Nat} (h : isPlate plate = true) : unpackPlate (beNat (be6 (packPlate plate))) = plate := by
  rw [Bool.and_eq_true, beq_iff_eq, List.all_eq_true] at h
  obtain ⟨hlength, hcodes⟩ := h
  match plate, hlength with
  | [a, b, c, d, e, f, g, h], _ =>
    simp only [List.mem_cons, List.not_mem_nil, or_false, forall_eq_or_imp, forall_eq, decide_eq_true_eq] at hcodes
    obtain ⟨ha, hb, hc, hd, he, hf, hg, hh⟩ := hcodes
    have hpack : packPlate [a, b, c, d, e, f, g, h] =
        ((((((a * 64 + b) * 64 + c) * 64 + d) * 64 + e) * 64 + f) * 64 + g) * 64 + h := by
      simp [packPlate]
    rw [beNat_be6 (by rw [hpack]; exact decide_eq_true (by omega)), hpack, unpackPlate]
    simp only [List.cons.injEq, and_true]
    omega

theorem linesOfBytes_bytesOfLines (lines : List LineArg) : linesOfBytes (bytesOfLines lines) = lines := by
  induction lines with
  | nil => rfl
  | cons l rest ih => exact congrArg (l :: ·) ih

theorem length_bytesOfLines (lines : List LineArg) : (bytesOfLines lines).length = 3 * lines.length := by
  induction lines with
  | nil => rfl
  | cons l rest ih =>
    change (bytesOfLines rest).length + 3 = 3 * (rest.length + 1)
    omega

/-! ### The frame of a command, read back (R175, R188) -/

theorem decode_admitCar {l f c p ticket : Nat} {plate : List Nat} {named : Option (Nat × Nat)}
    (h : (Instr.admitCar l f c p ticket plate named).wellFormed = true) :
    decodeFrame (Instr.admitCar l f c p ticket plate named).frame = .command (.admitCar l f c p ticket plate named) := by
  simp only [Instr.wellFormed, Bool.and_eq_true, decide_eq_true_eq] at h
  obtain ⟨⟨⟨⟨⟨⟨hl, hf⟩, hc⟩, hp⟩, hticket⟩, hplate⟩, -⟩ := h
  have hlane : (l * 16 + f) / 16 = l ∧ (l * 16 + f) % 16 = f := by omega
  have hclass : (c * 16 + p) / 16 = c ∧ (c * 16 + p) % 16 = p := by omega
  have hread (named' : Option (Nat × Nat)) :
      FrameReading.command (.admitCar ((l * 16 + f) / 16) ((l * 16 + f) % 16) ((c * 16 + p) / 16) ((c * 16 + p) % 16)
        (beNat (be4 ticket)) (unpackPlate (beNat (be6 (packPlate plate)))) named') =
      .command (.admitCar l f c p ticket plate named') := by
    rw [hlane.1, hlane.2, hclass.1, hclass.2, beNat_be4 (decide_eq_true hticket), unpack_pack]
    rw [Bool.and_eq_true]
    exact hplate
  cases named with
  | none => exact hread none
  | some rp => exact hread (some rp)

theorem decode_placeOrder {h m n : Nat} {lines : List LineArg} (hwell : (Instr.placeOrder h m n lines).wellFormed = true) :
    decodeFrame (Instr.placeOrder h m n lines).frame = .command (.placeOrder h m n lines) := by
  simp only [Instr.wellFormed, Bool.and_eq_true, decide_eq_true_eq] at hwell
  obtain ⟨⟨⟨⟨hh, -⟩, -⟩, hsome, hsix⟩, -⟩ := hwell
  have hlength := length_bytesOfLines lines
  have hread : decodeFrame (Instr.placeOrder h m n lines).frame =
      if (bytesOfLines lines).length % 3 = 0 ∧ 3 ≤ (bytesOfLines lines).length ∧ (bytesOfLines lines).length ≤ 18 then
        .command (.placeOrder (beNat (be2 h)) m n (linesOfBytes (bytesOfLines lines)))
      else .badLength := rfl
  rw [hread, if_pos (by omega), beNat_be2 (decide_eq_true hh), linesOfBytes_bytesOfLines]

/-- The frame of a well-formed command carries that command. -/
theorem decodeFrame_frame {i : Instr} (h : i.wellFormed = true) (hframe : i.isFrame = true)
    (hknown : ∀ code args, i ≠ .unknownCommand code args) : decodeFrame i.frame = .command i := by
  cases i with
  | unknownCommand code args => exact absurd rfl (hknown code args)
  | admitCar => exact decode_admitCar h
  | placeOrder => exact decode_placeOrder h
  | configureTimebase f window gain jump holdover reacquire =>
    simp only [Instr.wellFormed, Bool.and_eq_true] at h
    obtain ⟨⟨⟨-, hjump⟩, -⟩, hreacquire⟩ := h
    exact congrArg₂ (fun m n => FrameReading.command (.configureTimebase f window gain m holdover n)) (beNat_be2 hjump)
      (beNat_be2 hreacquire)
  | beginProgram f ns cutoff frames given lead opening ending =>
    simp only [Instr.wellFormed, Bool.and_eq_true] at h
    obtain ⟨⟨⟨⟨⟨⟨⟨-, hns⟩, -⟩, hframes⟩, -⟩, hlead⟩, -⟩, -⟩ := h
    have hread : decodeFrame (Instr.beginProgram f ns cutoff frames given lead opening ending).frame =
      .command (.beginProgram f (beNat (be2 ns)) cutoff (beNat (be3 frames)) given (beNat (be2 lead)) opening ending) := rfl
    rw [hread, beNat_be2 hns, beNat_be3 hframes, beNat_be2 hlead]
  | amendEntry c g plate cls party =>
    simp only [Instr.wellFormed, Bool.and_eq_true (isWord c && isByte g && isPlate plate && isByte cls),
      Bool.and_eq_true (isWord c && isByte g && isPlate plate), Bool.and_eq_true (isWord c && isByte g),
      Bool.and_eq_true (isWord c)] at h
    obtain ⟨⟨⟨⟨hc, -⟩, hplate⟩, -⟩, -⟩ := h
    exact congrArg₂ (fun n p => FrameReading.command (.amendEntry n g p cls party)) (beNat_be2 hc) (unpack_pack hplate)
  | closeRows f m =>
    simp only [Instr.wellFormed, Bool.and_eq_true] at h
    obtain ⟨-, hm⟩ := h
    exact congrArg (fun n => FrameReading.command (.closeRows f n)) (beNat_be2 hm)
  | openRows f m =>
    simp only [Instr.wellFormed, Bool.and_eq_true] at h
    obtain ⟨-, hm⟩ := h
    exact congrArg (fun n => FrameReading.command (.openRows f n)) (beNat_be2 hm)
  | depart l c =>
    simp only [Instr.wellFormed, Bool.and_eq_true] at h
    obtain ⟨-, hc⟩ := h
    exact congrArg (fun n => FrameReading.command (.depart l n)) (beNat_be2 hc)
  | readEntry c =>
    exact congrArg (fun n => FrameReading.command (.readEntry n)) (beNat_be2 h)
  | lookupTicket t =>
    exact congrArg (fun n => FrameReading.command (.lookupTicket n)) (beNat_be4 h)
  | lookupPlate plate =>
    exact congrArg (fun n => FrameReading.command (.lookupPlate n)) (unpack_pack h)
  | holdEntry c =>
    exact congrArg (fun n => FrameReading.command (.holdEntry n)) (beNat_be2 h)
  | moveEntry c f r p =>
    simp only [Instr.wellFormed, Bool.and_eq_true] at h
    obtain ⟨⟨⟨hc, -⟩, -⟩, -⟩ := h
    exact congrArg (fun n => FrameReading.command (.moveEntry n f r p)) (beNat_be2 hc)
  | releaseEntry c =>
    exact congrArg (fun n => FrameReading.command (.releaseEntry n)) (beNat_be2 h)
  | retireEntry c g =>
    simp only [Instr.wellFormed, Bool.and_eq_true] at h
    obtain ⟨hc, -⟩ := h
    exact congrArg (fun n => FrameReading.command (.retireEntry n g)) (beNat_be2 hc)
  | enrolSet serial =>
    exact congrArg (fun n => FrameReading.command (.enrolSet n)) (beNat_be6 h)
  | lendSet c =>
    exact congrArg (fun n => FrameReading.command (.lendSet n)) (beNat_be2 h)
  | dockIn b serial c =>
    simp only [Instr.wellFormed, Bool.and_eq_true] at h
    obtain ⟨⟨-, hserial⟩, -⟩ := h
    exact congrArg (fun n => FrameReading.command (.dockIn b n c)) (beNat_be6 hserial)
  | clearCauses w =>
    exact congrArg (fun n => FrameReading.command (.clearCauses n)) (beNat_be2 h)
  | setCauseMask w =>
    exact congrArg (fun n => FrameReading.command (.setCauseMask n)) (beNat_be2 h)
  | addSegment f k len title cues runners =>
    simp only [Instr.wellFormed, Bool.and_eq_true] at h
    obtain ⟨⟨⟨⟨⟨-, -⟩, hlen⟩, -⟩, -⟩, -⟩ := h
    exact congrArg (fun n => FrameReading.command (.addSegment f k n title cues runners)) (beNat_be3 hlen)
  | _ => first | rfl | exact absurd hframe (by simp [Instr.isFrame, Instr.frame])

/-- A frame has a code byte and a length byte that counts its arguments (R174). -/
theorem frameOf_wellMade (code : Nat) (args : List Nat) : frameWellMade (frameOf code args) false = true := by
  simp [frameWellMade, frameOf]

theorem frame_wellMade {i : Instr} (hframe : i.isFrame = true) : frameWellMade i.frame false = true := by
  cases i with
  | _ => first | exact frameOf_wellMade _ _ | exact absurd hframe (by simp [Instr.isFrame, Instr.frame])

/-- A code that is none of the table's reads back as unknown (R175). -/
theorem decodeArgs_unknown {code : Nat} (h : code ∉ commandCodes) (args : List Nat) : decodeArgs code args = .unknown := by
  unfold decodeArgs
  split
  case h_60 => rfl
  all_goals exact absurd (by decide) h

/-! ### The lengths of the table (R188) -/

/-- A code of the table reads frames of just these lengths. -/
def Reads (lengths : List Nat) (code : Nat) : Prop := ∀ args : List Nat,
  (args.length ∉ lengths → decodeArgs code args = .badLength) ∧
    (args.length ∈ lengths → ∃ i, decodeArgs code args = .command i)

/-- The codes with one length, by that length. -/
def oneLength : List (List Nat × Nat) :=
  [([0x7A, 0xF3, 0xF7, 0xF8, 0xFA], 0),
   ([0x16, 0x23, 0x24, 0x25, 0x26, 0x27, 0x28, 0x32, 0x34, 0x35], 1),
   ([0x62, 0x65, 0x67, 0x68, 0x72, 0x73, 0x75, 0x76, 0x78, 0x7B, 0xFB], 1),
   ([0x14, 0x29, 0x2A, 0x36, 0x41, 0x45, 0x48, 0x63, 0x66, 0x69, 0x6A, 0x74, 0x77, 0xF4, 0xF6], 2),
   ([0x12, 0x13, 0x33, 0x44, 0x49], 3), ([0x42, 0x79], 4), ([0x46], 5), ([0x43, 0x61], 6),
   ([0x11, 0x15, 0x22, 0x64], 8), ([0x47], 11), ([0x21], 12)]

theorem reads_oneLength : ∀ entry ∈ oneLength, ∀ code ∈ entry.1, Reads [entry.2] code := by
  simp only [oneLength, List.forall_mem_cons, List.not_mem_nil, false_implies, implies_true, and_true]
  repeat' apply And.intro
  all_goals
    refine fun args => ⟨fun h => ?_, fun h => ?_⟩
    · simp only [decodeArgs]
      split
      · exact absurd (by simp) h
      · rfl
    · rw [eq_map_range_of_length (List.mem_singleton.mp h)]
      exact ⟨_, rfl⟩

theorem reads_admitCar : Reads [12, 14] 0x31 := by
  refine fun args => ⟨fun h => ?_, fun h => ?_⟩
  · simp only [decodeArgs]
    split
    · exact absurd (by simp) h
    · exact absurd (by simp) h
    · rfl
  · rcases List.mem_pair.mp h with h | h
    · rw [eq_map_range_of_length h]
      exact ⟨_, rfl⟩
    · rw [eq_map_range_of_length h]
      exact ⟨_, rfl⟩

theorem reads_placeOrder : Reads [7, 10, 13, 16, 19, 22] 0x71 := by
  intro args
  match args with
  | [] | [_] | [_, _] | [_, _, _] =>
    refine ⟨fun _ => rfl, fun h => absurd h (by simp)⟩
  | h1 :: h0 :: m :: n :: rest =>
    have hread : decodeArgs 0x71 (h1 :: h0 :: m :: n :: rest) =
        if rest.length % 3 = 0 ∧ 3 ≤ rest.length ∧ rest.length ≤ 18 then
          .command (.placeOrder (beNat [h1, h0]) m n (linesOfBytes rest))
        else .badLength := rfl
    rw [hread]
    simp only [List.length_cons, List.mem_cons, List.not_mem_nil, or_false]
    exact ⟨fun h => if_neg (by omega), fun h => ⟨_, if_pos (by omega)⟩⟩

/-! ### The work of a taken frame (R175) -/

theorem finishTaken_of_taken {s : State} {bytes : List Nat} {n : Nat} (h : s.port.taken = some ⟨bytes, n⟩) :
    s.finishTaken = (frameWork bytes s).complete := by
  unfold State.finishTaken
  rw [h]

theorem frameWork_of_command {bytes : List Nat} {i : Instr} (h : decodeFrame bytes = .command i) (s : State) :
    frameWork bytes s = workOf i s := by
  unfold frameWork
  rw [h]

theorem frameWork_of_badLength {bytes : List Nat} (h : decodeFrame bytes = .badLength) (s : State) :
    frameWork bytes s = s.deny .badLength := by
  unfold frameWork
  rw [h]

/-- Settles O6: each command's frame read back, the codes outside the table, and the lengths of those in it. -/
theorem everyFrameReadsBackAsItsCommand : Obligations.EveryFrameReadsBackAsItsCommand := by
  refine ⟨fun i hwell hframe hknown => ?_, fun code args hwell => ?_, fun i s hframe hp => exec_free i hframe hp, ?_⟩
  · have hdecode := decodeFrame_frame hwell hframe hknown
    exact ⟨frame_wellMade hframe, hdecode, fun s n htaken =>
      (finishTaken_of_taken htaken).trans (congrArg Answer.complete (frameWork_of_command hdecode s))⟩
  · simp only [Instr.wellFormed, isUnknownCode, Bool.and_eq_true] at hwell
    obtain ⟨⟨⟨-, hcode⟩, -⟩, -⟩ := hwell
    refine ⟨frameOf_wellMade code args, decodeArgs_unknown (fun h => ?_) args⟩
    rw [List.contains_iff_mem.mpr h] at hcode
    exact nomatch hcode
  · intro accepted codes lengths code args hentry hcode
    have hsorted : ∀ entry ∈ accepted, (∃ one ∈ oneLength, entry = (one.1, [one.2])) ∨ entry = ([0x31], [12, 14]) ∨
        entry = ([0x71], [7, 10, 13, 16, 19, 22]) := by decide
    have hreads : Reads lengths code := by
      obtain ⟨one, hone, he⟩ | he | he := hsorted (codes, lengths) hentry <;> cases he
      · exact reads_oneLength one hone code hcode
      · exact List.mem_singleton.mp hcode ▸ reads_admitCar
      · exact List.mem_singleton.mp hcode ▸ reads_placeOrder
    obtain ⟨hbad, hgood⟩ := hreads args
    refine ⟨fun h => ⟨hbad h, fun s n htaken => ?_⟩, hgood⟩
    have hdecode : decodeFrame (code :: args.length :: args) = .badLength := hbad h
    exact (finishTaken_of_taken htaken).trans (congrArg Answer.complete (frameWork_of_badLength hdecode s))

end Sys2Proof.Machine
end

section
/-! PROOF. Select periods whole and edge by edge (O7). -/

namespace Sys2Proof.Machine

/-! ### The status byte (R179, R189) -/

theorem statusByte_bits (s : State) :
    let b := s.statusByte
    b < 256 ∧ b.testBit 7 = s.port.taken.isSome ∧ b.testBit 6 = s.port.reply.isSome ∧ b.testBit 5 = s.attn ∧
      b.testBit 4 = s.hold ∧ b.testBit 3 = s.dayOpen ∧ b.testBit 2 = false ∧ b.testBit 1 = false ∧ b.testBit 0 = false := by
  have hall : ∀ b7 b6 b5 b4 b3 : Bool,
      let b := flag b7 128 + flag b6 64 + flag b5 32 + flag b4 16 + flag b3 8
      b < 256 ∧ b.testBit 7 = b7 ∧ b.testBit 6 = b6 ∧ b.testBit 5 = b5 ∧ b.testBit 4 = b4 ∧ b.testBit 3 = b3 ∧
        b.testBit 2 = false ∧ b.testBit 1 = false ∧ b.testBit 0 = false := by decide
  exact hall _ _ _ _ _

/-! ### Bits and bytes (R172) -/

theorem byteOfBits_bitsOfByte {byte : Nat} (h : byte < 256) : byteOfBits (bitsOfByte byte) = byte := by
  have hall : ∀ hi lo : Fin 16, byteOfBits (bitsOfByte (hi.val * 16 + lo.val)) = hi.val * 16 + lo.val := by decide
  have hbyte : byte / 16 * 16 + byte % 16 = byte := by omega
  have hread := hall ⟨byte / 16, by omega⟩ ⟨byte % 16, by omega⟩
  rwa [hbyte] at hread

theorem eq_bitsOfByte {bits : List Bool} {byte : Nat} (hlength : bits.length = 8)
    (h : ∀ k, k < 8 → bits[k]? = some (byte.testBit (7 - k))) : bits = bitsOfByte byte := by
  refine List.ext_getElem? fun k => ?_
  by_cases hk : k < 8
  · rw [h k hk, bitsOfByte, List.getElem?_map, List.getElem?_range hk]
    rfl
  · rw [List.getElem?_eq_none (by omega), List.getElem?_eq_none (by simp [bitsOfByte]; omega)]

/-- The edges that clock some bits in. -/
def edgesOfBits (bits : List Bool) : List SckEdge := bits.flatMap fun sdi => [.falls, .rises sdi]

theorem edgesOfBytes_cons (byte : Nat) (rest : List Nat) :
    edgesOfBytes (byte :: rest) = edgesOfBits (bitsOfByte byte) ++ edgesOfBytes rest := by
  simp [edgesOfBytes, edgesOfBits]

/-! ### One edge of SCK (R172) -/

/-- The state with the select period and the bytes on SDO written. -/
def State.within (s : State) (p : Period) (sdo : List Nat) : State :=
  { s with port := { s.port with select := .low p, sdo := sdo } }

/-- The byte that a falling edge of SCK puts on SDO, or carries on with (R172). -/
def State.outAt (s : State) (p : Period) : Nat := if p.bits = [] then s.nextOut p else p.out

/-- The period with a byte clocked whole. -/
def State.clocked (s : State) (p : Period) (out : Nat) (level : Bool) (byte : Nat) : Period :=
  { p with
    bytes := p.bytes ++ [byte], bits := [], out := out, level := level, sckHigh := some true
    busyAtLastBit := s.port.taken.isSome
    fetched := if p.bytes = [] ∧ byte = 0xF2 then s.port.reply else p.fetched }

/-- The period after a falling edge of SCK. -/
def State.fallen (s : State) (p : Period) : Period :=
  { p with out := s.outAt p, level := (s.outAt p).testBit (7 - p.bits.length), sckHigh := some false }

variable {s : State} {p : Period} {sdo : List Nat}

theorem nextOut_eq (s : State) (p : Period) : s.nextOut p = match p.bytes with
    | [] => p.out
    | first :: rest => if first = 0xF2 then (p.fetched.getD [4, 0]).getD rest.length 0 else s.statusByte := by
  unfold State.nextOut
  cases p.bytes <;> rfl

theorem clockEdge_falls (h : p.sckHigh ≠ some false) :
    (s.within p sdo).clockEdge .falls = s.within (s.fallen p) sdo := by
  refine (if_neg h).trans ?_
  have hout : (if p.bits.isEmpty then (s.within p sdo).nextOut p else p.out) = s.outAt p :=
    if_congr List.isEmpty_iff rfl rfl
  unfold State.dropSck
  rw [hout]
  rfl

theorem clockEdge_falls_low (h : p.sckHigh = some false) : (s.within p sdo).clockEdge .falls = s.within p sdo := if_pos h

theorem clockEdge_rises_high (h : p.sckHigh = some true) (bit : Bool) :
    (s.within p sdo).clockEdge (.rises bit) = s.within p sdo := if_pos h

theorem clockEdge_rises_short (h : p.sckHigh ≠ some true) {bit : Bool} (hbits : p.bits.length < 7) :
    (s.within p sdo).clockEdge (.rises bit) = s.within { p with bits := p.bits ++ [bit], sckHigh := some true } sdo :=
  (if_neg h).trans (if_pos (by rw [List.length_append]; exact Nat.add_lt_add_right hbits 1))

theorem clockEdge_rises_whole (h : p.sckHigh ≠ some true) {bit : Bool} (hbits : p.bits.length = 7) :
    (s.within p sdo).clockEdge (.rises bit) =
      s.within (s.clocked p p.out p.level (byteOfBits (p.bits ++ [bit]))) (sdo ++ [p.out]) := by
  refine (if_neg h).trans ((if_neg ?_).trans ?_)
  · rw [List.length_append, hbits]
    exact lt_irrefl 8
  · have hfetched : (if p.bytes.isEmpty && byteOfBits (p.bits ++ [bit]) == 0xF2 then s.port.reply else p.fetched) =
        if p.bytes = [] ∧ byteOfBits (p.bits ++ [bit]) = 0xF2 then s.port.reply else p.fetched :=
      if_congr (by rw [Bool.and_eq_true, List.isEmpty_iff, beq_iff_eq]) rfl rfl
    unfold State.clocked
    rw [← hfetched]
    rfl

/-! ### One byte (R172) -/

theorem clockEdges_cons (s : State) (e : SckEdge) (rest : List SckEdge) :
    s.clockEdges (e :: rest) = (s.clockEdge e).clockEdges rest := rfl

/-- The last bits of a byte, from a rising edge or the fall of SEL on: the falling edges put the bits of one byte on SDO, the
last rising edge makes the byte whole. -/
theorem clockEdges_bits {bits : List Bool} (h : p.sckHigh ≠ some false) (hsome : bits ≠ [])
    (height : p.bits.length + bits.length = 8) :
    (s.within p sdo).clockEdges (edgesOfBits bits) =
      s.within (s.clocked p (s.outAt p) ((s.outAt p).testBit 0) (byteOfBits (p.bits ++ bits))) (sdo ++ [s.outAt p]) := by
  induction bits generalizing p with
  | nil => exact absurd rfl hsome
  | cons bit rest ih =>
    have hedges : edgesOfBits (bit :: rest) = .falls :: .rises bit :: edgesOfBits rest := rfl
    rw [hedges, clockEdges_cons, clockEdges_cons, clockEdge_falls h]
    rw [List.length_cons] at height
    have hfallen : (s.fallen p).sckHigh ≠ some true := fun e => nomatch e
    cases rest with
    | nil =>
      have hseven : (s.fallen p).bits.length = 7 := by
        rw [List.length_nil] at height
        exact Nat.succ_injective height
      have hlevel : (s.fallen p).level = (s.outAt p).testBit 0 :=
        congrArg (fun n => (s.outAt p).testBit (7 - n)) hseven
      rw [clockEdge_rises_whole hfallen hseven, hlevel]
      rfl
    | cons bit' rest =>
      rw [List.length_cons] at height
      have hout : s.outAt { s.fallen p with bits := p.bits ++ [bit], sckHigh := some true } = s.outAt p :=
        if_neg (List.append_ne_nil_of_right_ne_nil _ (List.cons_ne_nil _ _))
      have hshort : (s.fallen p).bits.length < 7 := show p.bits.length < 7 by omega
      rw [clockEdge_rises_short hfallen hshort]
      refine (ih (p := { s.fallen p with bits := p.bits ++ [bit], sckHigh := some true }) (fun e => nomatch e)
        (List.cons_ne_nil _ _) ?_).trans ?_
      · dsimp only
        rw [List.length_append, List.length_cons, List.length_cons, List.length_nil]
        omega
      · rw [hout]
        dsimp only
        rw [List.append_assoc]
        rfl

/-- Where SCK is low at a byte's start, its first bit stands on SDO already. -/
theorem clockEdges_bits_low {bits : List Bool} (h : p.sckHigh = some false) (hempty : p.bits = []) (height : bits.length = 8) :
    (s.within p sdo).clockEdges (edgesOfBits bits) =
      s.within (s.clocked p p.out (p.out.testBit 0) (byteOfBits bits)) (sdo ++ [p.out]) := by
  match bits, height with
  | bit :: bit' :: rest, height =>
    have hedges : edgesOfBits (bit :: bit' :: rest) = .falls :: .rises bit :: edgesOfBits (bit' :: rest) := rfl
    have hhigh : p.sckHigh ≠ some true := fun e => nomatch h.symm.trans e
    have hout : s.outAt { p with bits := p.bits ++ [bit], sckHigh := some true } = p.out :=
      if_neg (List.append_ne_nil_of_right_ne_nil _ (List.cons_ne_nil _ _))
    rw [hedges, clockEdges_cons, clockEdges_cons, clockEdge_falls_low h,
      clockEdge_rises_short hhigh (by rw [hempty]; decide)]
    refine (clockEdges_bits (p := { p with bits := p.bits ++ [bit], sckHigh := some true }) (fun e => nomatch e)
      (List.cons_ne_nil _ _) ?_).trans ?_
    · dsimp only
      rw [hempty]
      rw [List.length_cons, List.length_cons] at height
      rw [List.length_append, List.length_cons, List.length_cons, List.length_nil]
      omega
    · rw [hout]
      dsimp only
      rw [hempty]
      rfl

/-- The byte that a period is about to clock out. -/
def State.begunOut (s : State) (p : Period) : Nat := if p.sckHigh = some false then p.out else s.nextOut p

/-- A byte clocked whole within a period, from a byte boundary. -/
theorem clockEdges_byte {byte : Nat} (hempty : p.bits = []) (hbyte : byte < 256) :
    (s.within p sdo).clockEdges (edgesOfBits (bitsOfByte byte)) =
      s.within (s.clocked p (s.begunOut p) ((s.begunOut p).testBit 0) byte) (sdo ++ [s.begunOut p]) := by
  have height : (bitsOfByte byte).length = 8 := rfl
  by_cases h : p.sckHigh = some false
  · have hout : s.begunOut p = p.out := if_pos h
    rw [clockEdges_bits_low h hempty height, hout, byteOfBits_bitsOfByte hbyte]
  · have hout : s.begunOut p = s.outAt p := (if_neg h).trans (if_pos hempty).symm
    have hsome : bitsOfByte byte ≠ [] := List.ne_nil_of_length_eq_add_one height
    have hall : p.bits.length + (bitsOfByte byte).length = 8 := by rw [hempty, height]; rfl
    rw [clockEdges_bits h hsome hall, hout, hempty, List.nil_append, byteOfBits_bitsOfByte hbyte]

/-! ### Bytes one after another (R172, R177) -/

/-- The byte that SDO carries while the next byte of a period is clocked in (R172, R177). -/
def State.outFor (s : State) : List Nat → Nat
  | [] => s.statusByte
  | first :: rest => if first = 0xF2 then (s.port.reply.getD [4, 0]).getD rest.length 0 else s.statusByte

/-- The bytes SDO has carried in a period. -/
def State.outs (s : State) (bytes : List Nat) : List Nat :=
  (List.range bytes.length).map fun k => s.outFor (bytes.take k)

theorem outs_concat (s : State) (bytes : List Nat) (byte : Nat) :
    s.outs (bytes ++ [byte]) = s.outs bytes ++ [s.outFor bytes] := by
  unfold State.outs
  rw [List.length_append, List.length_singleton, List.range_succ, List.map_append, List.map_singleton, List.take_left]
  refine congrArg (· ++ [s.outFor bytes]) (List.map_congr_left fun k hk => ?_)
  rw [List.take_append_of_le_length (List.mem_range.mp hk).le]

/-- A period that stands at a byte boundary, with some bytes clocked whole and the state as at its start. -/
structure AtByte (s : State) (bytes : List Nat) (q : Period) : Prop where
  received : q.bytes = bytes
  boundary : q.bits = []
  out : s.begunOut q = s.outFor bytes
  fetched : q.fetched = if bytes.head? = some 0xF2 then s.port.reply else none
  busy : bytes ≠ [] → q.busyAtLastBit = s.port.taken.isSome

theorem AtByte.start (s : State) : AtByte s [] { out := s.statusByte, level := s.statusByte.testBit 7 } :=
  ⟨rfl, rfl, rfl, rfl, fun h => absurd rfl h⟩

/-- What a period at a boundary puts on SDO next, once SCK has risen or SEL has fallen. -/
theorem AtByte.nextOut {bytes : List Nat} {q : Period} (hbytes : q.bytes = bytes) (hsome : bytes ≠ [])
    (hfetched : q.fetched = if bytes.head? = some 0xF2 then s.port.reply else none) : s.nextOut q = s.outFor bytes := by
  rw [nextOut_eq, hbytes, hfetched]
  cases bytes with
  | nil => exact absurd rfl hsome
  | cons first rest =>
    by_cases hfirst : first = 0xF2
    · simp [State.outFor, hfirst]
    · simp [State.outFor, hfirst]

theorem AtByte.clocked {bytes : List Nat} {q : Period} (h : AtByte s bytes q) (out : Nat) (level : Bool) (byte : Nat) :
    AtByte s (bytes ++ [byte]) (s.clocked q out level byte) := by
  have hbytes : (s.clocked q out level byte).bytes = bytes ++ [byte] := congrArg (· ++ [byte]) h.received
  have hsome : bytes ++ [byte] ≠ [] := List.append_ne_nil_of_right_ne_nil _ (List.cons_ne_nil _ _)
  have hfetched : (s.clocked q out level byte).fetched =
      if (bytes ++ [byte]).head? = some 0xF2 then s.port.reply else none := by
    change (if q.bytes = [] ∧ byte = 0xF2 then s.port.reply else q.fetched) = _
    rw [h.received, h.fetched]
    cases bytes with
    | nil => simp
    | cons first rest => simp
  exact ⟨hbytes, rfl, (if_neg fun e => nomatch e).trans (AtByte.nextOut hbytes hsome hfetched), hfetched, fun _ => rfl⟩

theorem AtByte.fallen {bytes : List Nat} {q : Period} (h : AtByte s bytes q) (hsck : q.sckHigh ≠ some false) :
    AtByte s bytes (s.fallen q) := by
  refine ⟨h.received, h.boundary, ?_, h.fetched, h.busy⟩
  have hout : s.outAt q = s.begunOut q := (if_pos h.boundary).trans (if_neg hsck).symm
  exact (if_pos rfl).trans (hout.trans h.out)

/-- Bytes clocked in from a byte boundary. -/
theorem AtByte.bytesClocked {bytes : List Nat} {q : Period} (h : AtByte s bytes q) {more : List Nat}
    (hmore : ∀ b ∈ more, b < 256) : ∃ q', AtByte s (bytes ++ more) q' ∧
      (s.within q (s.outs bytes)).clockEdges (edgesOfBytes more) = s.within q' (s.outs (bytes ++ more)) := by
  induction more generalizing bytes q with
  | nil => exact ⟨q, by rwa [List.append_nil], by rw [List.append_nil]; rfl⟩
  | cons byte rest ih =>
    obtain ⟨hbyte, hrest⟩ := List.forall_mem_cons.mp hmore
    obtain ⟨q', hq', he⟩ := ih (h.clocked (s.begunOut q) ((s.begunOut q).testBit 0) byte) hrest
    rw [List.append_assoc, List.singleton_append] at hq' he
    refine ⟨q', hq', ?_⟩
    rw [edgesOfBytes_cons, State.clockEdges_append, clockEdges_byte h.boundary hbyte, ← he, outs_concat, h.out]

/-- A falling edge at a byte boundary, where SCK is not low already. -/
theorem AtByte.falls {bytes : List Nat} {q : Period} (h : AtByte s bytes q) (sdo : List Nat) {falls : List SckEdge}
    (hfalls : falls = [] ∨ falls = [.falls]) : ∃ q', AtByte s bytes q' ∧
      (s.within q sdo).clockEdges falls = s.within q' sdo := by
  rcases hfalls with rfl | rfl
  · exact ⟨q, h, rfl⟩
  · by_cases hsck : q.sckHigh = some false
    · exact ⟨q, h, clockEdge_falls_low hsck⟩
    · exact ⟨s.fallen q, h.fallen hsck, clockEdge_falls hsck⟩

/-! ### The end of a period (R173, R177) -/

theorem outFor_of_not_fetch {bytes : List Nat} (h : bytes.head? ≠ some 0xF2) : s.outFor bytes = s.statusByte := by
  cases bytes with
  | nil => rfl
  | cons first rest => exact if_neg fun e => h (congrArg some e)

theorem outs_of_not_fetch {bytes : List Nat} (h : bytes.head? ≠ some 0xF2) :
    s.outs bytes = List.replicate bytes.length s.statusByte := by
  refine List.eq_replicate_iff.mpr ⟨by simp [State.outs], fun b hb => ?_⟩
  obtain ⟨k, -, rfl⟩ := List.mem_map.mp hb
  refine outFor_of_not_fetch ?_
  rw [List.head?_take]
  split
  · exact fun e => nomatch e
  · exact h

theorem outs_of_fetch (s : State) (rest : List Nat) : s.outs (0xF2 :: rest) =
    (s.statusByte :: (s.port.reply.getD [4, 0] ++ List.replicate (rest.length + 1) 0)).take (rest.length + 1) := by
  refine List.ext_getElem (by simp [State.outs]; omega) fun k hk hk' => ?_
  have hlt : k < rest.length + 1 := by simpa [State.outs] using hk
  have hleft : (s.outs (0xF2 :: rest))[k] = s.outFor ((0xF2 :: rest).take k) := by simp [State.outs]
  rw [List.getElem_take, hleft]
  cases k with
  | zero => rfl
  | succ j =>
    have hlength : (rest.take j).length = j := by simp; omega
    have hout : s.outFor ((0xF2 :: rest).take (j + 1)) = (s.port.reply.getD [4, 0]).getD j 0 := by
      rw [List.take_succ_cons]
      change (s.port.reply.getD [4, 0]).getD (rest.take j).length 0 = _
      rw [hlength]
    rw [hout, List.getElem_cons_succ, List.getElem_append]
    split
    · next hj => rw [List.getD_eq_getElem _ _ hj]
    · next hj => rw [List.getElem_replicate, List.getD_eq_default _ _ (not_lt.mp hj)]

theorem within_selRises (s : State) (q : Period) (sdo : List Nat) (off : Bool) : (s.within q sdo).selRises off =
    ({ s with port := { s.port with select := .high, sdo := sdo } } : State).endPeriod q (off || !q.bits.isEmpty) := rfl

theorem releaseFetched_eq (s : State) (q : Period) : s.releaseFetched q = { s with port := { s.port with
    reply := if q.fetched.any (fun frame => decide (frame.length + 1 ≤ q.bytes.length)) then none else s.port.reply } } := by
  unfold State.releaseFetched
  cases q.fetched with
  | none => rfl
  | some frame =>
    by_cases h : frame.length + 1 ≤ q.bytes.length
    · exact (if_pos h).trans (congrArg (fun reply => ({ s with port := { s.port with reply := reply } } : State))
        (if_pos (decide_eq_true h)).symm)
    · exact (if_neg h).trans (congrArg (fun reply => ({ s with port := { s.port with reply := reply } } : State))
        (if_neg (mt of_decide_eq_true h)).symm)

theorem AtByte.ends {bytes : List Nat} {q : Period} (h : AtByte s bytes q) (hhigh : s.port.select = .high) (off : Bool) :
    (s.within q (s.outs bytes)).selRises off = s.wholePeriod bytes off := by
  have hport (sdo : List Nat) : ({ s.port with select := .high, sdo := sdo } : Port) = { s.port with sdo := sdo } := by
    rw [← hhigh]
  have hbits : (off || !q.bits.isEmpty) = off := by rw [h.boundary]; simp
  rw [within_selRises, hport, hbits]
  unfold State.endPeriod State.wholePeriod
  rw [h.received]
  cases bytes with
  | nil => rfl
  | cons first rest =>
    dsimp only
    by_cases hstatus : first = 0xF1
    · rw [if_pos hstatus, if_pos hstatus, outs_of_not_fetch fun e => by simp [hstatus] at e]
      rfl
    rw [if_neg hstatus, if_neg hstatus]
    by_cases hfetch : first = 0xF2
    · subst hfetch
      rw [if_pos rfl, if_pos rfl, outs_of_fetch]
      have hfetched : q.fetched = s.port.reply := h.fetched.trans (if_pos rfl)
      have hreply : (if q.fetched.any (fun frame => decide (frame.length + 1 ≤ q.bytes.length)) then none else s.port.reply) =
          if s.fetchedFrame.length + 1 ≤ rest.length + 1 then none else s.port.reply := by
        rw [hfetched, h.received, State.fetchedFrame]
        cases s.port.reply with
        | none => exact (if_neg Bool.false_ne_true).trans (ite_self _).symm
        | some frame => exact if_congr decide_eq_true_iff rfl rfl
      rw [releaseFetched_eq]
      exact congrArg (fun reply => ({ s with port := { s.port with
        reply := reply
        sdo := (s.statusByte :: (s.port.reply.getD [4, 0] ++ List.replicate (rest.length + 1) 0)).take (rest.length + 1) } } :
          State)) hreply
    · have hhead : (first :: rest).head? ≠ some 0xF2 := fun e => hfetch (Option.some.inj e)
      have hbusy : ((s.clockStatus (rest.length + 1)).busy || q.busyAtLastBit) = s.busy := by
        rw [h.busy (List.cons_ne_nil _ _)]
        exact Bool.or_self _
      rw [if_neg hfetch, if_neg hfetch, outs_of_not_fetch hhead]
      exact congrArg (State.judgeFrame _ _ off) hbusy

/-! ### The rows of a select period -/

theorem clockEdges_not_high (h : s.port.select ≠ .high) (edges : List SckEdge) : (s.clockEdges edges).port.select ≠ .high := by
  induction edges generalizing s with
  | nil => exact h
  | cons e rest ih =>
    obtain ⟨-, he⟩ | ⟨p, q, sdo, -, he⟩ := s.clockEdge_spec e
    · exact ih (he.symm ▸ h)
    · exact ih (he.symm ▸ fun hq => nomatch hq)

theorem selFalls_not_high (s : State) : s.selFalls.port.select ≠ .high := by
  obtain ⟨-, he⟩ | ⟨hno, he⟩ := s.selFalls_spec
  · exact he.symm ▸ fun hq => nomatch hq
  · exact he.symm ▸ hno

theorem selFalls_high (h : s.port.select = .high) :
    s.selFalls = s.within { out := s.statusByte, level := s.statusByte.testBit 7 } (s.outs []) := by
  obtain ⟨-, he⟩ | ⟨hno, -⟩ := s.selFalls_spec
  · exact he
  · exact absurd h hno

theorem exec_stays_eq (s : State) (bytes : List Nat) (edges : List SckEdge) :
    exec (.commandFrameJudged bytes (.stays edges)) s = .next (s.selFalls.clockEdges (edgesOfBytes bytes ++ edges)) := rfl

/-- A period in two parts is the whole one (R172). -/
theorem parts_whole (hhigh : s.port.select = .high) {head tail : List Nat} {falls : List SckEdge} (off : Bool)
    (hbytes : ∀ b ∈ head ++ tail, b < 256) (hfalls : falls = [] ∨ falls = [.falls]) :
    ∃ t : State, exec (.commandFrameJudged head (.stays falls)) s = .next t ∧
      exec (.commandFrameJudged tail (.rises off)) t = exec (.commandFrameJudged (head ++ tail) (.rises off)) s := by
  have hhead : ∀ b ∈ head, b < 256 := fun b hb => hbytes b (List.mem_append_left _ hb)
  have htail : ∀ b ∈ tail, b < 256 := fun b hb => hbytes b (List.mem_append_right _ hb)
  obtain ⟨q1, h1, e1⟩ := (AtByte.start s).bytesClocked hhead
  obtain ⟨q2, h2, e2⟩ := h1.falls (s.outs ([] ++ head)) hfalls
  obtain ⟨q3, h3, e3⟩ := h2.bytesClocked htail
  have ht : s.selFalls.clockEdges (edgesOfBytes head ++ falls) = s.within q2 (s.outs ([] ++ head)) := by
    rw [selFalls_high hhigh, State.clockEdges_append, e1, e2]
  refine ⟨_, (exec_stays_eq s head falls).trans (congrArg Host.Outcome.next ht), ?_⟩
  have hlow : (s.within q2 (s.outs ([] ++ head))).port.select ≠ .high := fun e => nomatch (show SelectLine.low q2 = .high from e)
  rw [exec_rises hlow, e3, exec_whole hhigh]
  exact congrArg Host.Outcome.next (h3.ends hhigh off)

theorem runs_compose (s : State) (bytes : List Nat) (edges more : List SckEdge) :
    ∃ t : State, exec (.commandFrameJudged bytes (.stays edges)) s = .next t ∧
      exec (.commandFrameJudged [] (.stays more)) t = exec (.commandFrameJudged bytes (.stays (edges ++ more))) s := by
  refine ⟨_, exec_stays_eq s bytes edges, ?_⟩
  rw [exec_stays (clockEdges_not_high (selFalls_not_high s) _), exec_stays_eq s bytes (edges ++ more), ← List.append_assoc,
    State.clockEdges_append s.selFalls (edgesOfBytes bytes ++ edges)]
  rfl

theorem wholePeriod_status (s : State) (rest : List Nat) (off : Bool) :
    s.wholePeriod (0xF1 :: rest) off = s.clockStatus (rest.length + 1) := rfl

theorem wholePeriod_fetch (s : State) (rest : List Nat) (off : Bool) :
    s.wholePeriod (0xF2 :: rest) off = s.fetch (rest.length + 1) := rfl

/-- The rise of SEL after a period that was no command frame. -/
theorem endPeriod_no_frame (s : State) (p : Period) (off : Bool) :
    (∀ rest, p.bytes = [] ∨ p.bytes = 0xF1 :: rest → s.endPeriod p off = s) ∧
      ∀ rest, p.bytes = 0xF2 :: rest → s.endPeriod p off = s.releaseFetched p := by
  unfold State.endPeriod
  refine ⟨fun rest h => ?_, fun rest h => ?_⟩
  · rcases h with h | h
    · rw [h]
    · rw [h]
      exact if_pos rfl
  · rw [h]
    rfl

theorem within_self (h : s.port.select = .low p) : s.within p s.port.sdo = s := by
  rw [State.within, ← h]

/-- Settles O7: the bits of the status byte, whole periods by their first byte, and a period edge by edge. -/
theorem selectPeriodsThatAreNoFrames : Obligations.SelectPeriodsThatAreNoFrames := by
  intro s
  refine ⟨statusByte_bits s, fun hhigh n hn => ⟨?_, ?_⟩, fun hhigh off => exec_whole hhigh [] off, fun hhigh => ⟨?_, ?_⟩,
    runs_compose s, fun p hlow => ?_, ?_⟩
  · intro t
    refine ⟨congrArg Host.Outcome.next (State.selectPeriod_high hhigh _), fun rest off hlength => ?_⟩
    rw [exec_whole hhigh]
    exact congrArg Host.Outcome.next ((wholePeriod_status s rest off).trans (congrArg s.clockStatus hlength))
  · intro frame t
    have hfetch : s.fetch n = t := rfl
    refine ⟨congrArg Host.Outcome.next ((State.selectPeriod_high hhigh _).trans hfetch), fun rest off hlength => ?_⟩
    rw [exec_whole hhigh]
    exact congrArg Host.Outcome.next
      ((wholePeriod_fetch s rest off).trans ((congrArg s.fetch hlength).trans hfetch))
  · exact congrArg Host.Outcome.next (selFalls_high hhigh)
  · exact fun head tail falls off hbytes hfalls => parts_whole hhigh off hbytes hfalls
  · intro with' edge begun whole
    have hbegun : s.nextOut p = begun := nextOut_eq s p
    have hnotHigh : s.port.select ≠ .high := fun e => nomatch hlow.symm.trans e
    have hedge (e : SckEdge) : exec (edge e) s = .next ((s.within p s.port.sdo).clockEdge e) := by
      rw [within_self hlow]
      exact exec_stays hnotHigh [] [e]
    have hends (off : Bool) := exec_rises_low hlow off
    refine ⟨fun h => ?_, fun h bit => ⟨fun hbits => ?_, fun byte hbits hbyte hread => ?_⟩, fun h => ?_, fun h bit => ?_,
      fun byte hempty hbyte => ?_, ?_, fun off rest hbytes => ?_, fun off rest hbytes => ?_⟩
    · rw [hedge, clockEdge_falls h, ← hbegun]
      rfl
    · rw [hedge, clockEdge_rises_short h hbits]
      rfl
    · have hlength : (p.bits ++ [bit]).length = 8 := by rw [List.length_append, hbits]; rfl
      rw [hedge, clockEdge_rises_whole h hbits, eq_bitsOfByte hlength hread, byteOfBits_bitsOfByte hbyte]
      rfl
    · rw [hedge, clockEdge_falls_low h, within_self hlow]
    · rw [hedge, clockEdge_rises_high h, within_self hlow]
    · have hclocked := clockEdges_byte (s := s) (sdo := s.port.sdo) hempty hbyte
      rw [within_self hlow] at hclocked
      rw [exec_stays hnotHigh, List.append_nil, edgesOfBytes_cons, State.clockEdges_append, hclocked, State.begunOut, hbegun]
      rfl
    · rw [State.sdoLevel, hlow]
    · rw [hends, (endPeriod_no_frame _ p _).1 rest hbytes]
    · rw [hends, (endPeriod_no_frame _ p _).2 rest hbytes, releaseFetched_eq]
  · unfold State.sdoLevel
    cases s.port.select <;> simp

end Sys2Proof.Machine
end

section
/-! PROOF. The due rule and the due check (O50). -/

namespace Sys2Proof.Machine

/-! ### The due rule (R137, R138) -/

theorem framesBeforeIntermission_none {segs : List Segment} (h : ∀ seg ∈ segs, seg.kind = .picture) :
    framesBeforeIntermission segs = none := by
  induction segs with
  | nil => rfl
  | cons seg rest ih =>
    obtain ⟨hseg, hrest⟩ := List.forall_mem_cons.mp h
    unfold framesBeforeIntermission
    rw [hseg, ih hrest]
    rfl

theorem framesBeforeIntermission_some {before rest : List Segment} {seg : Segment}
    (h : ∀ seg ∈ before, seg.kind = .picture) (hseg : seg.kind = .intermission) :
    framesBeforeIntermission (before ++ seg :: rest) = some (before.map Segment.length).sum := by
  induction before with
  | nil =>
    simp [framesBeforeIntermission, hseg]
  | cons first before ih =>
    obtain ⟨hfirst, hbefore⟩ := List.forall_mem_cons.mp h
    rw [List.cons_append]
    unfold framesBeforeIntermission
    rw [hfirst, ih hbefore]
    rfl

theorem isDue_at (p : ProgramUnit) {seg : Segment} (h : p.record.segments[p.segment]? = some seg) :
    p.isDue .atIntermission = true ↔ p.state = .ended ∨ seg.kind = .intermission ∨
      ∀ n, framesBeforeIntermission (p.record.segments.drop (p.segment + 1)) = some n →
        seg.length - p.frame + n ≤ (p.program?.map Header.lead).getD 0 := by
  unfold ProgramUnit.isDue ProgramUnit.framesToIntermission
  have hcurrent : p.current? = some seg := h
  rw [hcurrent]
  simp only [Option.map_some, Bool.or_eq_true, beq_iff_eq, Option.some.injEq, or_assoc]
  refine or_congr_right (or_congr_right ?_)
  cases framesBeforeIntermission (p.record.segments.drop (p.segment + 1)) <;> simp

theorem drop_split {segs : List Segment} {k n : Nat} {seg : Segment} (hk : k < n) (hn : segs[n]? = some seg) :
    segs.drop (k + 1) = (segs.take n).drop (k + 1) ++ seg :: segs.drop (n + 1) := by
  obtain ⟨hlt, rfl⟩ := List.getElem?_eq_some_iff.mp hn
  rw [← List.drop_eq_getElem_cons hlt, ← List.drop_append_of_le_length (by rw [List.length_take]; omega), List.take_append_drop]

/-! ### The due check (R139) -/

/-- A parked order that a due check of a field marks. -/
def State.marks (s : State) (f : FieldNo) (ord : Order) : Prop :=
  ord.stage = .parked ∧ ord.due = false ∧ ord.field = f ∧ (s.program f).isDue ord.mode = true

theorem fallsDue_iff (s : State) (f : FieldNo) (ord : Order) :
    (ord.field == f && s.fallsDue ord) = true ↔ s.marks f ord := by
  unfold State.fallsDue State.marks
  rw [Bool.and_eq_true, Bool.and_eq_true, Bool.and_eq_true, beq_iff_eq, beq_iff_eq, Bool.not_eq_true']
  constructor
  · rintro ⟨rfl, ⟨hstage, hdue⟩, hrule⟩
    exact ⟨hstage, hdue, rfl, hrule⟩
  · rintro ⟨hstage, hdue, rfl, hrule⟩
    exact ⟨rfl, ⟨hstage, hdue⟩, hrule⟩

theorem someFallsDue_iff (s : State) (f : FieldNo) : (s.someFallsDue fun ord => ord.field == f) = true ↔
    ∃ o ∈ s.parked, ∃ ord, s.order o = some ord ∧ s.marks f ord := by
  unfold State.someFallsDue
  rw [List.any_eq_true]
  refine exists_congr fun o => and_congr_right fun _ => ?_
  rw [Option.any_eq_true]
  exact exists_congr fun ord => and_congr_right fun _ => fallsDue_iff s f ord

/-- Settles O50: the rule by the segments ahead, and the check by what it marks. -/
theorem ordersFallDueByTheRule : Obligations.OrdersFallDueByTheRule := by
  refine ⟨fun s f => ⟨fun h => ?_, fun h => ?_⟩, fun p => ⟨rfl, fun h => ?_⟩, fun p seg => ?_⟩
  · exact if_neg (mt (someFallsDue_iff s f).mp h)
  · obtain ⟨hframe, hmarked⟩ := s.markDue_spec fun ord => ord.field == f
    have hfalls (ord : Order) : ((ord.field == f) = true ∧ ord.stage = .parked ∧ ord.due = false ∧
        (s.program ord.field).isDue ord.mode = true) ↔ s.marks f ord := by
      rw [← fallsDue_iff, State.fallsDue]
      simp [and_assoc]
    refine ⟨_, if_pos ((someFallsDue_iff s f).mpr h), hframe, fun o => ⟨fun ord ho hp hf => ?_, fun hno => ?_⟩⟩
    · exact (hmarked o).1 ord ho hp ((hfalls ord).mpr hf)
    · exact (hmarked o).2 fun ord ho hp hf => hno ord ho hp ((hfalls ord).mp hf)
  · unfold ProgramUnit.isDue
    rw [h]
    rfl
  · intro segs lead hseg
    have hdue := isDue_at p hseg
    refine ⟨fun h => hdue.mpr (.inr (.inl h)), fun h => ?_, fun n seg' hn hseg' hkind hbefore hstate hpicture => ?_⟩
    · refine hdue.mpr (.inr (.inr fun n hn => ?_))
      rw [framesBeforeIntermission_none fun seg' hmem => ?_] at hn
      · exact nomatch hn
      · obtain ⟨k, hk⟩ := List.mem_iff_getElem?.mp hmem
        rw [List.getElem?_drop] at hk
        exact h _ seg' (by omega) hk
    · have hframes : framesBeforeIntermission (segs.drop (p.segment + 1)) =
          some (((segs.take n).drop (p.segment + 1)).map Segment.length).sum := by
        rw [drop_split hn hseg']
        refine framesBeforeIntermission_some (fun seg'' hmem => ?_) hkind
        obtain ⟨k, hk⟩ := List.mem_iff_getElem?.mp hmem
        rw [List.getElem?_drop, List.getElem?_take] at hk
        split at hk
        · exact hbefore _ seg'' (by omega) ‹_› hk
        · exact nomatch hk
      rw [hdue, hframes]
      constructor
      · rintro (h | h | h)
        · exact absurd h hstate
        · exact nomatch hpicture.symm.trans h
        · exact h _ rfl
      · exact fun h => .inr (.inr fun n hn => Option.some.inj hn ▸ h)

end Sys2Proof.Machine
end

section
/-! PROOF. CONFIGURE KITCHEN and the evaluation of HOLD (O54). -/

namespace Sys2Proof.Machine

/-- The thresholds of every station are those of `b` (R147). -/
def Paced (b t : State) : Prop := ∀ n, (t.station n).xoff = (b.station n).xoff ∧ (t.station n).xon = (b.station n).xon

/-- The book's operations write no threshold. -/
theorem reportable_paced (b : State) : Reportable (Paced b) where
  stands h hb n := by
    rw [State.station, h.stations]
    exact hb n
  marked s which hb n := by
    rw [State.station, (s.markDue_spec which).1]
    exact hb n
  released s o ord _ _ _ hb n := by
    have hstations : (s.release o ord).evaluateHold.stations = (s.release o ord).stations := by
      rw [State.evaluateHold_eq]
    rw [State.station, hstations, State.release_eq]
    simpa [look] using hb n
  dispatched s k _ hb n := by
    rw [State.station, (s.dispatch_spec k).2]
    exact hb n

theorem paced_evaluateHoldAndDue (s : State) : Paced s s.evaluateHoldAndDue := by
  have hheld : Paced s s.evaluateHold := fun n => by
    have hstations : s.evaluateHold.stations = s.stations := by rw [State.evaluateHold_eq]
    rw [State.station, hstations]
    exact ⟨rfl, rfl⟩
  unfold State.evaluateHoldAndDue
  dsimp only
  split
  · exact (reportable_paced s).marked _ _ hheld
  · exact hheld

theorem paced_afterThresholds (s : State) : Paced s s.afterThresholds := by
  unfold State.afterThresholds
  dsimp only
  split
  · exact (reportable_paced s).releasePass (paced_evaluateHoldAndDue s)
  · exact paced_evaluateHoldAndDue s

/-- The station thresholds as CONFIGURE KITCHEN writes them. -/
theorem configured_eq {s t : State} (h : t.stations = s.stations) (mask xoff xon limit : Nat) :
    ({ t.setThresholds mask xoff xon with prepLimit := limit } : State) = { t with
      stations := Vector.ofFn fun n =>
        { s.station n with
          xoff := if mask.testBit n.val then xoff else (s.station n).xoff
          xon := if mask.testBit n.val then xon else (s.station n).xon }
      prepLimit := limit } := by
  have hstation (n : StationNo) : t.station n = s.station n := congrArg (look · n) h
  rw [State.setThresholds_eq]
  refine congrArg (fun v : Vector Station 4 => ({ t with stations := v, prepLimit := limit } : State))
    (congrArg Vector.ofFn (funext fun n => ?_))
  rw [hstation]
  unfold maskBit
  split <;> rfl

/-- The records that a due check and a release pass can change. -/
theorem Checked.frame {s t : State} (h : Checked s t) : t = { s with
    tallies := t.tallies, orders := t.orders, parked := t.parked, stations := t.stations, hold := t.hold
    attention := t.attention } := by
  have hframe := h.told.frame
  rw [h.trips] at hframe
  exact hframe

/-- Settles O54: the evaluation by HOLD before and after; the checks of the command; and the same evaluation on the state
with its thresholds written. -/
theorem configureKitchenEvaluatesHold : Obligations.ConfigureKitchenEvaluatesHold := by
  refine ⟨fun s => ?_, fun s mask xoff xon limit hp hbad => ?_, fun s mask xoff xon limit hp hmask hlow hhigh hbelow hlimit hlimit' => ?_⟩
  · intro full slack hold held falls
    refine ⟨s.afterFall_spec.1, fun hon hoff => ?_⟩
    obtain ⟨hmarked, horders⟩ := held.markDue_spec fun _ => true
    refine ⟨held.markDue fun _ => true, hmarked, fun o => ⟨fun ord ho hp hf => ?_, fun h => ?_⟩, s.afterFall_spec.2 hon hoff⟩
    · exact (horders o).1 ord ho hp ⟨rfl, hf⟩
    · exact (horders o).2 fun ord ho hp hf => h ord ho hp hf.2
  · refine denied_of_records rfl hp fun _ _ => State.checked_fails _ ?_ _ _ _
    simp only [Bool.and_eq_false_iff, decide_eq_false_iff_not]
    omega
  · intro i a flagged off on full slack reply hold
    let written : State := { s.atWork i with
      stations := Vector.ofFn fun n =>
        { s.station n with
          xoff := off n
          xon := on n }
      prepLimit := limit }
    have hstation (n : StationNo) : written.station n =
        { s.station n with
          xoff := off n
          xon := on n } := look_ofFn _ n
    have hpaced := paced_afterThresholds written
    have hbytes (t : State) (ht : written.afterThresholds = t) : t.thresholdBytes = reply t.hold := by
      have hlimit : t.prepLimit = limit := by
        rw [← ht]
        exact (State.afterThresholds_frame written).2.2.2.2.2.2.2.2.2.2.2.1
      unfold State.thresholdBytes
      rw [hlimit]
      refine congrArg (· ++ _) (List.flatMap_congr fun n _ => ?_)
      rw [← ht, (hpaced n).1, (hpaced n).2, hstation]
    have hexec {t : State} (ht : written.afterThresholds = t) : exec i s = .next (t.answered .ok (reply t.hold)) := by
      rw [← hbytes t ht]
      refine exec_of_work_eq_ok rfl hp ((State.checked_holds _ ?_ _ _ _).trans ((State.checked_nil _ _).trans ?_))
      · simp only [Bool.and_eq_true, decide_eq_true_eq]
        omega
      · rw [configured_eq (s := s) (by simp)]
        exact congrArg (fun t : State => t.ok t.thresholdBytes) ht
    have hhold : (if ∃ n, (written.station n).xoff ≤ (written.station n).queue.length then true
        else if ∀ n, (written.station n).queue.length ≤ (written.station n).xon then false else written.hold) = hold :=
      if_congr (exists_congr fun n => by rw [hstation]) rfl (if_congr (forall_congr' fun n => by rw [hstation]) rfl (by simp [written]))
    have hspec := written.afterFall_spec
    have hheld := written.evaluateHold_eq
    have hstood : written.hold = s.hold := by simp [written]
    dsimp only at hspec hheld
    rw [hhold, hstood] at hspec hheld
    refine ⟨hexec rfl, fun hsame => ?_, fun hon hoff => ?_⟩
    · exact hexec (hspec.1 hsame).2
    · have ht := (hspec.2 hon hoff).2
      rw [← hheld] at ht
      have hchecked : Checked written.evaluateHold written.afterThresholds :=
        (congrArg (Checked _) ht).mpr ((Checked.markDue _ _).trans (Checked.releasePass _))
      refine ⟨_, hexec rfl, fun n => ?_, ?_, ?_, ?_, ?_⟩
      · rw [(hpaced n).1, (hpaced n).2, hstation]
        exact ⟨rfl, rfl⟩
      · exact (State.afterThresholds_frame written).2.2.2.2.2.2.2.2.2.2.2.1
      · refine hchecked.causes 7 ?_
        rw [hheld, if_neg (fun e => nomatch (hon.symm.trans e.symm).trans hoff)]
        exact (BitVec.getLsbD_or ..).trans (Bool.or_true _)
      · intro o
        refine (hchecked.orders o).trans ?_
        rw [hheld]
        exact congrArg _ (State.order_atWork s i o)
      · have hframe := hchecked.frame
        rw [hheld] at hframe
        exact hframe.trans rfl
end Sys2Proof.Machine
end

section
/-! PROOF. The trip table: joins, a trip formed again, the route order and RECALL TRIP (O59). -/

namespace Sys2Proof.Machine

/-! ### The route order (R163) -/

theorem sortByRank_congr {α : Type} {rank rank' : α → Nat} (h : ∀ x y, rank x ≤ rank y ↔ rank' x ≤ rank' y) (xs : List α) :
    sortByRank rank xs = sortByRank rank' xs := by
  have hinsert (x : α) (ys : List α) : insertByRank rank x ys = insertByRank rank' x ys := by
    induction ys with
    | nil => rfl
    | cons y rest ih =>
      unfold insertByRank
      rw [ih]
      exact if_congr (h y x) rfl rfl
  unfold sortByRank
  simp only [hinsert]

theorem sortByRank_ascending {α : Type} (rank : α → Nat) (xs : List α) :
    (sortByRank rank xs).Pairwise fun x y => rank x ≤ rank y :=
  (sortByRank_pairwise rank (R := fun _ _ => True) (List.pairwise_of_forall fun _ _ => trivial)).imp fun h =>
    h.elim Nat.le_of_lt fun h => h.1.le

theorem insertByRank_filter {α : Type} {rank : α → Nat} {x : α} {xs : List α} (r : Nat)
    (hxs : xs.Pairwise fun y z => rank y ≤ rank z) :
    (insertByRank rank x xs).filter (fun y => rank y == r) =
      xs.filter (fun y => rank y == r) ++ [x].filter fun y => rank y == r := by
  induction xs with
  | nil => rfl
  | cons y rest ih =>
    obtain ⟨hy, hrest⟩ := List.pairwise_cons.mp hxs
    unfold insertByRank
    split
    · rw [List.filter_cons, ih hrest, List.filter_cons (x := y)]
      split <;> rfl
    · rename_i hlt
      by_cases hx : rank x = r
      · have hnone : (y :: rest).filter (fun z => rank z == r) = [] := by
          refine List.filter_eq_nil_iff.mpr fun z hz => ?_
          have : rank y ≤ rank z := by
            rcases List.mem_cons.mp hz with rfl | hz
            exacts [le_rfl, hy z hz]
          rw [beq_iff_eq]
          omega
        rw [List.filter_cons, hnone]
        simp [hx]
      · rw [List.filter_cons]
        simp [hx]

/-- The sort keeps the order of items of one rank. -/
theorem sortByRank_filter {α : Type} (rank : α → Nat) (xs : List α) (r : Nat) :
    (sortByRank rank xs).filter (fun x => rank x == r) = xs.filter fun x => rank x == r := by
  induction xs using List.reverseRecOn with
  | nil => rfl
  | append_singleton xs x ih =>
    have hsort : sortByRank rank (xs ++ [x]) = insertByRank rank x (sortByRank rank xs) := List.foldl_append ..
    rw [hsort, insertByRank_filter r (sortByRank_ascending rank xs), ih, List.filter_append]

/-- The rank of an order in the route order, by the row and the post of its car's stall; orders without a car last. -/
def State.carRank (s : State) (o : OrderHandle) : Nat :=
  match (s.order o).bind fun ord => ord.car.bind s.car with
  | some c => c.stall.row * 32 + c.stall.post
  | none => 1000

theorem routeOrder_eq (s : State) (k : TripHandle) : s.routeOrder k = sortByRank s.carRank (s.trip k).orders := by
  have hrank (o : OrderHandle) : routeRank (s.stallOfOrder o) < 512 ∧ s.carRank o = routeRank (s.stallOfOrder o) + 33 ∨
      routeRank (s.stallOfOrder o) = 512 ∧ s.carRank o = 1000 := by
    have hstall : s.stallOfOrder o = ((s.order o).bind fun ord => ord.car.bind s.car).map fun c => (c.field, c.stall) := by
      unfold State.stallOfOrder
      simp only [Option.map_bind, Function.comp_def]
    rw [hstall, State.carRank]
    cases (s.order o).bind fun ord => ord.car.bind s.car with
    | none => exact .inr ⟨rfl, rfl⟩
    | some c =>
      refine .inl ⟨c.stall.index.isLt, ?_⟩
      simp only [Stall.row, Stall.post, Option.map_some, routeRank, Stall.index]
      omega
  refine sortByRank_congr (fun x y => ?_) _
  have hx := hrank x
  have hy := hrank y
  omega

/-! ### A trip formed again (R159) -/

/-- Runners may walk a field, in the manual's terms (R84). -/
def ProgramUnit.Walkable (p : ProgramUnit) : Prop :=
  p.state = .dark ∨ p.state = .opened ∨ p.state = .ended ∨
    ∃ seg, p.record.segments[p.segment]? = some seg ∧ seg.runners = true

/-- The change from `s` to `t` forms trip `k` of a field with these members, in state `st` (R159, R160, R162). -/
structure Formed (s t : State) (k : TripHandle) (f : FieldNo) (members : List OrderHandle) (st : TripState)
    (timer : Option Nat) : Prop where
  trip : t.trip k = { state := st, field := some f, orders := members, timer := timer }
  orders : ∀ o, t.order o = if o ∈ members then
    (s.order o).map fun z => { z with trip := some k, stage := if st = .out then .onTrip else z.stage } else s.order o
  attention : t.attention = if st = .out then
    { s.attention with
      causes := s.attention.causes ||| 0x20#10
      dispatched := s.attention.dispatched ||| BitVec.twoPow 8 k.val } else s.attention

/-- The oldest ready order gives the field of a trip that is formed again, and the orders of that field close it when they
are six. -/
theorem reformTrip_formed {s : State} {k : TripHandle} {first : OrderHandle} {more : List OrderHandle} {y : Order}
    (hready : s.readyList = first :: more) (hy : s.order first = some y) :
    let t := s.reformTrip k
    let members := s.readyOf y.field 6
    t.readyList = s.readyList.filter (fun o => !members.contains o) ∧
    (members.length < 6 → Formed s t k y.field members .gathering (some (s.window * 1000))) ∧
    (members.length = 6 → ¬ (s.program y.field).Walkable → Formed s t k y.field members .fieldHold none) ∧
    (members.length = 6 → (s.program y.field).Walkable → Formed s t k y.field members .out none) := by
  intro t members
  have ht := s.reformTrip_cons k hready hy
  let b : State := { s with
    trips := put s.trips k { state := .gathering, field := some y.field, orders := [], timer := none }
    readyList := s.readyList.filter fun o => !members.contains o }
  have ht : t = b.joinTrip k members := ht
  have hb : b.trip k = { state := .gathering, field := some y.field, orders := [], timer := none } := look_put_self _ _ _
  have hne : members ≠ [] := by
    have hfirst : first ∈ s.readyList.filter fun o => (s.order o).any fun ord => ord.field == y.field := by
      rw [List.mem_filter, hready, hy]
      exact ⟨List.mem_cons_self, beq_self_eq_true y.field⟩
    intro h
    rcases List.take_eq_nil_iff.mp h with h | h
    · exact nomatch h
    · rw [h] at hfirst
      exact nomatch hfirst
  obtain ⟨hstays, hcloses⟩ := b.joinTrip_spec k members
  rw [hb] at hstays hcloses
  have hjoins : TripState.gathering = .gathering ∧ members ≠ [] := ⟨rfl, hne⟩
  refine ⟨?_, fun hfew => ?_, fun hsix hwalk => ?_, fun hsix hwalk => ?_⟩
  · rw [ht]
    simp [b]
  · obtain ⟨horders, hframe⟩ := hstays fun h => hfew.ne h.2
    rw [← ht] at horders hframe
    refine ⟨?_, horders, (congrArg State.attention hframe :)⟩
    refine ((congrArg (fun x : State => x.trip k) hframe :).trans (look_put_self _ _ _)).trans ?_
    rw [if_pos hjoins]
    rfl
  · obtain ⟨horders, hframe⟩ := (hcloses y.field hjoins hsix rfl).1 hwalk
    rw [← ht] at horders hframe
    exact ⟨(congrArg (fun x : State => x.trip k) hframe :).trans (look_put_self _ _ _), horders,
      (congrArg State.attention hframe :)⟩
  · obtain ⟨horders, hframe⟩ := (hcloses y.field hjoins hsix rfl).2 hwalk
    rw [← ht] at horders hframe
    refine ⟨(congrArg (fun x : State => x.trip k) hframe :).trans (look_put_self _ _ _), fun o => (horders o).trans ?_,
      (congrArg State.attention hframe :)⟩
    by_cases ho : o ∈ members
    · dsimp only [List.nil_append]
      rw [if_pos ho, if_pos ho, if_pos ho, Option.map_map]
      rfl
    · dsimp only [List.nil_append]
      rw [if_neg ho, if_neg ho, if_neg ho]
      rfl

/-- What forming a trip again can change. -/
theorem reformTrip_frame_eq (s : State) (k : TripHandle) : s.reformTrip k = { s with
    orders := (s.reformTrip k).orders, trips := (s.reformTrip k).trips, readyList := (s.reformTrip k).readyList
    attention := (s.reformTrip k).attention } := by
  have h := s.reformTrip_frame k
  revert h
  generalize s.reformTrip k = t
  intro h
  cases t
  cases s
  simp_all

/-! ### RECALL TRIP (R166) -/

/-- The orders of a trip taken back to the head of the ready list, the trip IDLE. -/
def State.takenBack (s : State) (k : TripHandle) : State :=
  { (s.forEach (s.routeOrder k) fun o acc => acc.modOrder o fun ord => { ord with stage := .ready, trip := none }).setTrip k {}
    with readyList := s.routeOrder k ++ s.readyList }

theorem takenBack_spec (s : State) (k : TripHandle) :
    (∀ o, (s.takenBack k).order o = if o ∈ (s.trip k).orders then
      (s.order o).map fun ord => { ord with stage := .ready, trip := none } else s.order o) ∧
    s.takenBack k = { s with
      orders := (s.takenBack k).orders, trips := put s.trips k {}, readyList := s.routeOrder k ++ s.readyList } := by
  obtain ⟨horders, hframe⟩ := s.forEach_modOrder (s.routeOrder k) (fun ord => { ord with stage := .ready, trip := none })
    fun _ => rfl
  refine ⟨fun o => (horders o).trans (if_congr (routeOrder_perm s k).mem_iff rfl rfl), ?_⟩
  unfold State.takenBack
  rw [hframe]
  rfl

theorem recallTrip_eq (s : State) (k : TripHandle) : s.recallTrip k = (s.takenBack k).reformTrip k := by
  obtain ⟨-, hframe⟩ := s.forEach_modOrder (s.routeOrder k) (fun ord => { ord with stage := .ready, trip := none })
    fun _ => rfl
  unfold State.recallTrip State.takenBack
  dsimp only
  rw [hframe]

theorem workRecallTrip_of_trip (s : State) (k : TripHandle) : workRecallTrip k s =
    s.checked [((s.trip k).state == .out, .state)] ((s.recallTrip k).ok
      [(s.trip k).orders.length, tripStateCode ((s.recallTrip k).trip k).state, ((s.recallTrip k).trip k).orders.length]) :=
  State.withHandle_fin s k _

/-- A trip recalled alone, its orders all of one field, is formed again with the same orders in route order. -/
theorem recallTrip_alone {s : State} {k : TripHandle} {f : FieldNo} (hready : s.readyList = [])
    (hne : (s.trip k).orders ≠ []) (hsize : (s.trip k).orders.length ≤ 6)
    (hfield : ∀ o ∈ (s.trip k).orders, ∃ ord, s.order o = some ord ∧ ord.field = f) :
    let b := s.takenBack k
    let t := s.recallTrip k
    let n := (s.trip k).orders.length
    t.readyList = [] ∧
    (n < 6 → Formed b t k f (s.routeOrder k) .gathering (some (s.window * 1000))) ∧
    (n = 6 → ¬ (s.program f).Walkable → Formed b t k f (s.routeOrder k) .fieldHold none) ∧
    (n = 6 → (s.program f).Walkable → Formed b t k f (s.routeOrder k) .out none) := by
  intro b t n
  obtain ⟨horders, hframe⟩ := takenBack_spec s k
  have hroute := routeOrder_perm s k
  have hlist : b.readyList = s.routeOrder k := by
    refine (congrArg State.readyList hframe :).trans ?_
    rw [hready]
    exact List.append_nil _
  have hback {o : OrderHandle} (ho : o ∈ s.routeOrder k) : ∃ ord, b.order o = some ord ∧ ord.field = f := by
    obtain ⟨ord, hord, hf⟩ := hfield o (hroute.mem_iff.mp ho)
    refine ⟨{ ord with stage := .ready, trip := none }, ?_, hf⟩
    rw [horders o, if_pos (hroute.mem_iff.mp ho), hord]
    rfl
  have hmembers : b.readyOf f 6 = s.routeOrder k := by
    unfold State.readyOf
    rw [hlist, List.filter_eq_self.mpr, List.take_of_length_le (hroute.length_eq.trans_le hsize)]
    intro o ho
    obtain ⟨ord, hord, hf⟩ := hback ho
    rw [hord]
    exact beq_iff_eq.mpr hf
  obtain ⟨first, more, hcons⟩ := List.exists_cons_of_ne_nil (l := s.routeOrder k) fun h => hne (by
    rw [h] at hroute
    exact hroute.nil_eq.symm)
  obtain ⟨y, hy, hyf⟩ := hback (hcons ▸ List.mem_cons_self : first ∈ s.routeOrder k)
  obtain ⟨hleft, hfew, hheld, hwalks⟩ := reformTrip_formed (k := k) (hlist.trans hcons) hy
  have ht : t = b.reformTrip k := recallTrip_eq s k
  have hprogram : b.program f = s.program f := (congrArg (fun x : State => x.program f) hframe :)
  have hwindow : b.window = s.window := (congrArg State.window hframe :)
  rw [← ht, hyf, hmembers] at hleft hfew hheld hwalks
  rw [hprogram] at hheld hwalks
  rw [hwindow] at hfew
  have hlength : (s.routeOrder k).length = n := hroute.length_eq
  rw [hlength] at hfew hheld hwalks
  refine ⟨hleft.trans ?_, hfew, hheld, hwalks⟩
  rw [hlist]
  exact List.filter_eq_nil_iff.mpr fun o ho => by simp [ho]

/-- A reply discarded flags no trip (R175, R182). -/
theorem atWork_dispatched (s : State) (i : Instr) : (s.atWork i).attention.dispatched = s.attention.dispatched := by
  unfold State.atWork
  obtain ⟨-, e⟩ | ⟨-, e⟩ := (s.clockStatus i.frame.length).discardReply_spec <;> rw [e] <;> rfl

/-- Settles O59: the joins and departures by their laws, then RECALL TRIP: its orders taken back, then the trip formed
again. -/
theorem recallTripGathersAgain : Obligations.RecallTripGathersAgain := by
  refine ⟨fun s k os => s.joinTrip_spec k os, fun s k => ?_, fun s trip hp htrip => ?_, fun s k hp => ?_⟩
  · intro ready without
    exact ⟨s.reformTrip_nil k, fun first more y hready hy => s.reformTrip_cons k hready hy, fun o => s.leaveTrip_spec k o⟩
  · exact denied_of_records rfl hp fun _ _ => State.withHandle_of_ge _ htrip _
  · intro i x rank
    have hroute : s.routeOrder k = sortByRank rank x.orders := routeOrder_eq s k
    refine ⟨routeOrder_perm s k, hroute ▸ sortByRank_ascending rank _, fun r => hroute ▸ sortByRank_filter rank _ r,
      fun hstate => ?_, fun hout => ?_⟩
    · exact denied_of_records rfl hp fun port attention => (workRecallTrip_of_trip (s.facing port attention) k).trans
        (State.checked_fails _ (beq_eq_false_iff_ne.mpr hstate) _ _ _)
    · let c := s.atWork i
      obtain ⟨port, attention, hc⟩ := s.atWork_shape i
      have hctrip : c.trip k = s.trip k := State.trip_atWork s i k
      have hcorder (o : OrderHandle) : c.order o = s.order o := State.order_atWork s i o
      have hcready : c.readyList = s.readyList := (congrArg State.readyList hc :)
      have hcroute : c.routeOrder k = s.routeOrder k := (congrArg (fun b : State => b.routeOrder k) hc :)
      have hcprogram (f : FieldNo) : c.program f = s.program f := State.program_atWork s i f
      have hctrips : c.trips = s.trips := (congrArg State.trips hc :)
      have hcwindow : c.window = s.window := (congrArg State.window hc :)
      obtain ⟨horders, hframe⟩ := takenBack_spec c k
      simp only [hctrip, hcorder] at horders
      have ht := recallTrip_eq c k
      have hwhole : c.recallTrip k = { c with
          orders := (c.recallTrip k).orders, trips := (c.recallTrip k).trips, readyList := (c.recallTrip k).readyList
          attention := (c.recallTrip k).attention } := by
        rw [ht, reformTrip_frame_eq, hframe]
      have halone (f : FieldNo) (hready : s.readyList = []) (hne : x.orders ≠ []) (hsize : x.orders.length ≤ 6)
          (hfield : ∀ o ∈ x.orders, ∃ ord, s.order o = some ord ∧ ord.field = f) :=
        recallTrip_alone (s := c) (k := k) (f := f) (hcready.trans hready) (by rwa [hctrip]) (by rwa [hctrip])
          (by simpa only [hctrip, hcorder] using hfield)
      simp only [hctrip, hcroute, hcprogram] at halone
      refine ⟨c.recallTrip k, ?_, fun o => ?_, hwhole, fun f hready hne hfew _ hfield => ?_, fun f hready hsix _ hfield => ?_,
        c.takenBack k, ht, horders, ?_⟩
      · refine exec_of_work_eq_ok rfl hp ((workRecallTrip_of_trip c k).trans ((State.checked_holds _ ?_ _ _ _).trans ?_))
        · rw [hctrip]
          exact beq_iff_eq.mpr hout
        · rw [hctrip]
          rfl
      · have hkept := ((ordersKeep_recallTrip c k).weaken (fun ord => (ord.car, ord.lines, ord.cancelPending, ord.late))
          (r := fun z => (z.1, z.2.2.2.2.2.2, z.2.2.2.1, z.2.2.2.2.1)) fun _ => rfl) o
        rw [hkept, hcorder]
      · obtain ⟨hleft, hformed, -, -⟩ := halone f hready hne hfew.le hfield
        obtain ⟨htrip, hformedOrders, -⟩ := hformed hfew
        refine ⟨htrip.trans (by rw [hcwindow]), hleft, fun o ho ord hord => ?_⟩
        rw [hformedOrders o, if_pos ((routeOrder_perm s k).mem_iff.mpr ho), horders o, if_pos ho, hord]
        rfl
      · have hne : x.orders ≠ [] := fun h => by
          rw [h] at hsix
          exact nomatch hsix
        intro p allowed closed
        obtain ⟨hleft, -, hheld, hwalks⟩ := halone f hready hne hsix.le hfield
        have hclosed {st : TripState} (h : Formed (c.takenBack k) (c.recallTrip k) k f (s.routeOrder k) st none) :
            closed st (if st = .out then .onTrip else .ready) := by
          refine ⟨h.trip, hleft, fun o ho ord hord => ?_⟩
          rw [h.orders o, if_pos ((routeOrder_perm s k).mem_iff.mpr ho), horders o, if_pos ho, hord]
          rfl
        have hstood : (c.takenBack k).attention = c.attention := (congrArg State.attention hframe :)
        refine ⟨fun hwalk => ?_, fun hwalk => ?_⟩
        · have h := hheld hsix hwalk
          exact ⟨hclosed h, h.attention.trans hstood⟩
        · have h := hwalks hsix hwalk
          have hattention := h.attention.trans (if_pos rfl)
          refine ⟨hclosed h, ?_, ?_⟩
          · rw [hattention]
            exact (BitVec.getLsbD_or ..).trans (Bool.or_true _)
          · rw [hattention, hstood, atWork_dispatched]
      · rw [← hctrips, ← hcroute, ← hcready]
        exact hframe
end Sys2Proof.Machine
end

section
/-! PROOF. The retirement of an order, with the release pass that may follow it; TRIP REPORT (O58). -/

namespace Sys2Proof.Machine

/-! ### What follows a fall in a backlog (R140, R148, R149) -/

/-- The change from `s` to `t` parks no order; what was not parked, or a free slot, stays as it is, and its lines stay
queued. -/
structure Unparked (s t : State) : Prop where
  parked : ∀ z, z ∈ t.parked → z ∈ s.parked
  orders : ∀ z, z ∉ s.parked ∨ s.order z = none → t.order z = s.order z
  queues : ∀ z, z ∉ s.parked ∨ s.order z = none → ∀ n k, (z, k) ∈ (t.station n).queue ↔ (z, k) ∈ (s.station n).queue

namespace Unparked
variable {s t u : State}

theorem refl (s : State) : Unparked s s := ⟨fun _ => id, fun _ _ => rfl, fun _ _ _ _ => Iff.rfl⟩

theorem still (h : Unparked s t) {z : OrderHandle} (hz : z ∉ s.parked ∨ s.order z = none) :
    z ∉ t.parked ∨ t.order z = none := hz.imp (mt (h.parked z)) fun hfree => (h.orders z (.inr hfree)).trans hfree

theorem trans (h : Unparked s t) (h' : Unparked t u) : Unparked s u :=
  ⟨fun z hz => h.parked z (h'.parked z hz), fun z hz => (h'.orders z (h.still hz)).trans (h.orders z hz),
    fun z hz n k => (h'.queues z (h.still hz) n k).trans (h.queues z hz n k)⟩

theorem of_records (horders : t.orders = s.orders) (hparked : t.parked = s.parked) (hstations : t.stations = s.stations) :
    Unparked s t :=
  ⟨fun _ hz => hparked ▸ hz, fun z _ => congrArg (look · z) horders,
    fun _ _ n _ => by rw [State.station, hstations, State.station]⟩

theorem evaluateHold (s : State) : Unparked s s.evaluateHold := of_records (by simp) (by simp) (by simp)

theorem markDue (s : State) (which : Order → Bool) : Unparked s (s.markDue which) := by
  obtain ⟨hframe, horders⟩ := s.markDue_spec which
  refine ⟨fun z hz => ?_, fun z hz => (horders z).2 fun ord ho hparked => ?_, fun z _ n k => ?_⟩
  · rwa [hframe] at hz
  · rcases hz with hz | hz
    · exact absurd hparked hz
    · rw [hz] at ho
      exact nomatch ho
  · rw [hframe]
    rfl

theorem mem_queue_release (s : State) (o : OrderHandle) (ord : Order) {z : OrderHandle} (hz : z ≠ o) (n : StationNo) (k : Nat) :
    (z, k) ∈ ((s.release o ord).station n).queue ↔ (z, k) ∈ (s.station n).queue := by
  have hstation : ((s.release o ord).station n).queue = (s.station n).queue ++ ord.linesFor o n := by
    rw [State.release_eq]
    exact congrArg Station.queue (look_ofFn _ n)
  rw [hstation, List.mem_append, or_iff_left]
  intro h
  obtain ⟨_, -, e⟩ := List.mem_map.mp h
  exact hz (congrArg Prod.fst e).symm

theorem release (h : Unparked s t) {o : OrderHandle} {ord : Order} (ho : o ∈ s.parked) (hord : t.order o = some ord) :
    Unparked s (t.release o ord) := by
  have hother {z : OrderHandle} (hz : z ∉ s.parked ∨ s.order z = none) : o ≠ z := by
    rintro rfl
    rcases hz with hz | hz
    · exact hz ho
    · rw [h.orders o (.inr hz), hz] at hord
      exact nomatch hord
  refine ⟨fun z hz => ?_, fun z hz => ?_, fun z hz n k => ?_⟩
  · rw [State.release_eq] at hz
    exact h.parked z (List.mem_of_mem_erase hz)
  · rw [State.release_eq]
    exact (look_put_ne _ _ (hother hz)).trans (h.orders z hz)
  · exact (mem_queue_release t o ord (hother hz).symm n k).trans (h.queues z hz n k)

theorem releaseWalk {os : List OrderHandle} (h : Unparked s t) (hos : ∀ o ∈ os, o ∈ s.parked) :
    Unparked s (releaseWalk os t) := by
  induction os generalizing t with
  | nil => exact h
  | cons o rest ih =>
    obtain ⟨ho, hrest⟩ := List.forall_mem_cons.mp hos
    unfold Machine.releaseWalk
    cases hord : t.order o with
    | none => exact ih h hrest
    | some ord =>
      dsimp only
      split
      · exact ih h hrest
      split
      · exact ih (h.trans (of_records rfl rfl rfl)) hrest
      have hreleased := (h.release ho hord).trans (evaluateHold _)
      split
      · exact hreleased
      · exact ih hreleased hrest

theorem releasePass (s : State) : Unparked s s.releasePass := by
  unfold State.releasePass
  split
  · exact refl s
  · exact releaseWalk (refl s) fun _ => id

theorem afterFall (s : State) : Unparked s s.afterFall := by
  refine trans ?_ (releasePass _)
  unfold State.evaluateHoldAndDue
  dsimp only
  split
  · exact (evaluateHold s).trans (markDue _ _)
  · exact evaluateHold s

end Unparked

theorem Checked.afterFall (s : State) : Checked s s.afterFall := by
  refine trans ?_ (releasePass _)
  unfold State.evaluateHoldAndDue
  dsimp only
  split
  · exact (Checked.evaluateHold s).trans (Checked.markDue _ _)
  · exact Checked.evaluateHold s

/-! ### The retirement of an order (R151) -/

/-- The entries without an order's handle in its car's list. -/
def State.unlisted (s : State) (o : OrderHandle) (car : Option CarHandle) : Vector Entry 1024 :=
  match car with
  | none => s.entries
  | some h => put s.entries h { s.entry h with car := (s.car h).map fun c => { c with orders := c.orders.erase o } }

theorem offTrip_frame (s : State) (o : OrderHandle) (trip : Option TripHandle) :
    (s.offTrip o trip).tallies = s.tallies ∧ (s.offTrip o trip).parked = s.parked ∧
      (s.offTrip o trip).stations = s.stations := by
  cases trip <;> simp [State.offTrip]

/-- What the retirement of an order can change. -/
theorem retireOrder_frame_eq (s : State) (o : OrderHandle) : s.retireOrder o = { s with
    entries := (s.retireOrder o).entries, tallies := (s.retireOrder o).tallies, orders := (s.retireOrder o).orders
    parked := (s.retireOrder o).parked, stations := (s.retireOrder o).stations, hold := (s.retireOrder o).hold
    trips := (s.retireOrder o).trips, readyList := (s.retireOrder o).readyList
    attention := (s.retireOrder o).attention } := by
  have h := s.retireOrder_frame o
  revert h
  generalize s.retireOrder o = t
  intro h
  cases t
  cases s
  simp_all

/-- The change from `a` to `b` can raise TRIP, and flag a trip. -/
structure TripRaised (a b : Attention) : Prop where
  causes : ∀ j, a.causes.getLsbD j = true → b.causes.getLsbD j = true
  beside : b.beside = a.beside

theorem TripRaised.refl (a : Attention) : TripRaised a a := ⟨fun _ => id, rfl⟩

theorem closeTrip_raised (s : State) (k : TripHandle) : TripRaised s.attention (s.closeTrip k).attention := by
  unfold State.closeTrip
  split
  · exact TripRaised.refl _
  · split
    · rw [(s.dispatch_spec k).2]
      exact ⟨fun j h => (BitVec.getLsbD_or ..).trans (by rw [h, Bool.true_or]), rfl⟩
    · exact TripRaised.refl _

theorem joinTrip_raised {s : State} {a : Attention} (ha : s.attention = a) (k : TripHandle) (os : List OrderHandle) :
    TripRaised a (s.joinTrip k os).attention := by
  have hmarked (x : Trip) : ((s.setTrip k x).forEach os fun o acc =>
      acc.modOrder o fun ord => { ord with trip := some k }).attention = a := by
    obtain ⟨orders, hframe⟩ := (s.setTrip k x).forEach_modOrder_frame os fun ord => { ord with trip := some k }
    rw [hframe]
    exact ha
  unfold State.joinTrip
  dsimp only
  split
  · exact (congrArg (TripRaised · _) (hmarked _)).mp (closeTrip_raised _ k)
  · exact (congrArg (TripRaised a) (hmarked _)).mpr (TripRaised.refl a)

theorem reformTrip_raised {s : State} {a : Attention} (ha : s.attention = a) (k : TripHandle) :
    TripRaised a (s.reformTrip k).attention := by
  unfold State.reformTrip
  split
  · exact ha ▸ TripRaised.refl a
  · split
    · exact ha ▸ TripRaised.refl a
    · refine joinTrip_raised ?_ k _
      exact ha

theorem offTrip_raised (s : State) (o : OrderHandle) (trip : Option TripHandle) :
    TripRaised s.attention (s.offTrip o trip).attention := by
  cases trip with
  | none => exact TripRaised.refl _
  | some k =>
    unfold State.offTrip State.leaveTrip
    dsimp only
    split
    · refine reformTrip_raised ?_ k
      rfl
    · split
      · unfold State.refillTrip
        split
        · exact TripRaised.refl _
        · refine joinTrip_raised ?_ k _
          rfl
      · exact TripRaised.refl _

/-- The entries with the car of an order touched. -/
def State.touchedEntries (s : State) (car : Option CarHandle) : Vector Entry 1024 :=
  match car with
  | none => s.entries
  | some h => put s.entries h { s.entry h with touched := true }

/-- What the retirement of an order leaves, a fall in a backlog after it included. -/
structure Retired (s t : State) (o : OrderHandle) (ord : Order) : Prop where
  free : t.order o = none
  parked : ∀ z, z ∈ t.parked → z ∈ s.parked
  orders : ∀ z, z ≠ o → z ∉ s.parked → t.order z = ((s.untold o).offTrip o ord.trip).order z
  queues : ∀ n k, (o, k) ∉ (t.station n).queue
  tallies : ∀ k, k ≠ .kitchen .stationDeferrals → t.tally k = s.tally k
  entries : t.entries = s.unlisted o ord.car
  causes : ∀ k, ((s.untold o).offTrip o ord.trip).attention.causes.getLsbD k = true → t.attention.causes.getLsbD k = true
  flags : t.attention.flags = ((s.untold o).offTrip o ord.trip).attention.flags
  trips : t.trips = ((s.untold o).offTrip o ord.trip).trips
  ready : t.readyList = ((s.untold o).offTrip o ord.trip).readyList

namespace Retired
variable {s t u : State} {o : OrderHandle} {ord : Order}

theorem afterwards (h : Retired s t o ord) (hchecked : Checked t u) (hunparked : Unparked t u) : Retired s u o ord where
  free := (hunparked.orders o (.inr h.free)).trans h.free
  parked z hz := h.parked z (hunparked.parked z hz)
  orders z hz hparked := (hunparked.orders z (.inl (mt (h.parked z) hparked))).trans (h.orders z hz hparked)
  queues n k := mt (hunparked.queues o (.inr h.free) n k).mp (h.queues n k)
  tallies k hk := (hchecked.tallies k hk).trans (h.tallies k hk)
  entries := (congrArg State.entries hchecked.records :).trans h.entries
  causes k hk := hchecked.causes k (h.causes k hk)
  flags := hchecked.flags.trans h.flags
  trips := hchecked.trips.trans h.trips
  ready := (congrArg State.readyList hchecked.records :).trans h.ready

theorem freed (s : State) (o : OrderHandle) (ord : Order) :
    Retired s (((s.untold o).offTrip o ord.trip).freed o (s.unlisted o ord.car)) o ord := by
  obtain ⟨htallies, hparked, hstations⟩ := offTrip_frame (s.untold o) o ord.trip
  refine ⟨look_put_self _ _ _, fun z hz => ?_, fun z hz _ => look_put_ne _ _ (Ne.symm hz), fun n k => ?_, fun k _ => ?_, rfl,
    fun _ => id, rfl, rfl, rfl⟩
  · exact List.mem_of_mem_erase ((hparked ▸ hz : z ∈ (s.untold o).parked))
  · have hqueue : ((((s.untold o).offTrip o ord.trip).freed o (s.unlisted o ord.car)).station n).queue =
        (s.station n).queue.filter fun e => !(e.1 == o) :=
      (congrArg (fun v : Vector Station 4 => (look v n).queue) hstations).trans (congrArg Station.queue (look_ofFn _ n))
    rw [hqueue, List.mem_filter]
    rintro ⟨-, h⟩
    simp at h
  · exact congrArg (fun v : Vector Nat 64 => look v k.index) htallies

/-- The entry of the retired order's car: touched before, and without the order in its list. -/
theorem carSettled {b : State} (h : Retired s t o ord) (hs : s.entries = b.touchedEntries ord.car) :
    (∀ k c, ord.car = some k → b.car k = some c →
      t.entry k = { car := some { c with orders := c.orders.erase o }, touched := true }) ∧
    ∀ k, ord.car ≠ some k → t.entry k = b.entry k := by
  refine ⟨fun k c hcar hlive => ?_, fun k hcar => ?_⟩
  · rw [hcar] at hs
    have hentry : s.entry k = { b.entry k with touched := true } := (congrArg (look · k) hs).trans (look_put_self _ _ _)
    have hcar' : s.car k = some c := (congrArg Entry.car hentry).trans hlive
    rw [State.entry, h.entries, hcar]
    refine (look_put_self _ _ _).trans ?_
    rw [hcar', hentry]
    rfl
  · rw [State.entry, h.entries]
    cases hother : ord.car with
    | none =>
      rw [hother] at hs
      exact congrArg (look · k) hs
    | some k' =>
      rw [hother] at hs
      have hne : k' ≠ k := fun e => hcar (e ▸ hother)
      exact (look_put_ne _ _ hne).trans ((congrArg (look · k) hs).trans (look_put_ne _ _ hne))

end Retired

theorem retireOrder_retired {s : State} {o : OrderHandle} {ord : Order} (ho : s.order o = some ord) :
    Retired s (s.retireOrder o) o ord := by
  obtain ⟨hfell, hstood⟩ := s.retireOrder_spec o ord ho
  by_cases h : ∃ n k, (o, k) ∈ (s.station n).queue
  · exact (hfell h).symm ▸ (Retired.freed s o ord).afterwards (Checked.afterFall _) (Unparked.afterFall _)
  · exact (hstood h).symm ▸ Retired.freed s o ord

/-- A trip that the retired order leaves empty is formed again. -/
structure FormedAgain (s t : State) (k : TripHandle) (f : FieldNo) (members : List OrderHandle) (st : TripState)
    (timer : Option Nat) : Prop where
  trip : t.trip k = { state := st, field := some f, orders := members, timer := timer }
  orders : ∀ z ∈ members, z ∉ s.parked → t.order z = (s.order z).map fun x =>
    { x with trip := some k, stage := if st = .out then .onTrip else x.stage }
  raised : st = .out → t.attention.causes.getLsbD 5 = true ∧
    t.attention.dispatched = s.attention.dispatched ||| BitVec.twoPow 8 k.val

theorem retireOrder_formed {s : State} {o first : OrderHandle} {more : List OrderHandle} {ord y : Order} {k : TripHandle}
    (ho : s.order o = some ord) (htrip : ord.trip = some k) (hempty : (s.trip k).orders.erase o = [])
    (hready : s.readyList = first :: more) (hnot : o ∉ s.readyList) (hy : s.order first = some y) :
    let t := s.retireOrder o
    let members := s.readyOf y.field 6
    t.readyList = s.readyList.filter (fun z => !members.contains z) ∧
    (members.length < 6 → FormedAgain s t k y.field members .gathering (some (s.window * 1000))) ∧
    (members.length = 6 → ¬ (s.program y.field).Walkable → FormedAgain s t k y.field members .fieldHold none) ∧
    (members.length = 6 → (s.program y.field).Walkable → FormedAgain s t k y.field members .out none) := by
  intro t members
  have hretired := retireOrder_retired ho
  let b : State := { s.untold o with trips := put s.trips k {} }
  have hoff : (s.untold o).offTrip o ord.trip = b.reformTrip k := by
    rw [htrip]
    exact ((s.untold o).leaveTrip_spec k o).1 hempty
  have hlist : b.readyList = s.readyList := List.erase_of_not_mem hnot
  have hmembers : b.readyOf y.field 6 = members := congrArg (fun os : List OrderHandle =>
    (os.filter fun o => (s.order o).any fun ord : Order => ord.field == y.field).take 6) hlist
  obtain ⟨hleft, hformed⟩ := reformTrip_formed (k := k) (hlist.trans hready) (show b.order first = some y from hy)
  rw [hmembers] at hformed
  have again {st : TripState} {timer : Option Nat} (h : Formed b (b.reformTrip k) k y.field members st timer) :
      FormedAgain s t k y.field members st timer := by
    rw [← hoff] at h
    refine ⟨?_, fun z hz hparked => ?_, fun hout => ?_⟩
    · exact (congrArg (look · k) hretired.trips).trans h.trip
    · have hzo : z ≠ o := fun e => hnot (e ▸ (mem_readyOf hz).1)
      exact ((hretired.orders z hzo hparked).trans (h.orders z)).trans (if_pos hz)
    · have hattention := h.attention.trans (if_pos hout)
      refine ⟨hretired.causes 5 ?_, (congrArg Attention.dispatched hretired.flags :).trans ?_⟩
      · rw [hattention]
        exact (BitVec.getLsbD_or ..).trans (Bool.or_true _)
      · exact (congrArg Attention.dispatched hattention :)
  refine ⟨?_, fun h => again (hformed.1 h), fun h h' => again (hformed.2.1 h h'), fun h h' => again (hformed.2.2 h h')⟩
  rw [hmembers, hlist] at hleft
  exact (hretired.ready.trans (congrArg State.readyList hoff)).trans hleft

/-! ### TRIP REPORT (R164, R165) -/

theorem workTripReport_denied (s : State) (order outcome : Nat) :
    (256 ≤ order ∨ 1 < outcome → workTripReport order outcome s = s.deny .badArg) ∧
    ∀ o : OrderHandle, o.val = order → outcome ≤ 1 → s.order o = none → workTripReport order outcome s = s.deny .notFound := by
  refine ⟨fun h => s.checked_fails ?_ _ _ _, ?_⟩
  · simp only [Bool.and_eq_false_iff, decide_eq_false_iff_not]
    omega
  · rintro o rfl houtcome ho
    refine (s.checked_holds ?_ _ _ _).trans ((s.checked_nil _).trans ((s.withHandle_fin o _).trans ?_))
    · simp only [Bool.and_eq_true, decide_eq_true_eq]
      exact ⟨o.isLt, houtcome⟩
    · rw [ho]

theorem workTripReport_of_order (s : State) {o : OrderHandle} {ord : Order} {outcome : Nat} (houtcome : outcome ≤ 1)
    (ho : s.order o = some ord) : workTripReport o outcome s = s.checked [(ord.stage == .onTrip, .state)]
      ((s.reportOrder o ord (outcome == 0)).ok
        [countedAs (outcome == 0) ord.cancelPending, optByte (ord.trip.map Fin.val), s.leftOnTrip o ord,
          flag (s.leftOnTrip o ord == 0)]) := by
  refine (s.checked_holds ?_ _ _ _).trans ((s.checked_nil _).trans ((s.withHandle_fin o _).trans ?_))
  · simp only [Bool.and_eq_true, decide_eq_true_eq]
    exact ⟨o.isLt, houtcome⟩
  · rw [ho]

/-- The order counted, its car touched, before it is retired. -/
def State.reported (s : State) (o : OrderHandle) (ord : Order) (delivered : Bool) : State :=
  (s.countReport o ord delivered).touchCar ord.car

section
variable (s : State) (o : OrderHandle) (ord : Order) (delivered : Bool)

theorem reported_records : s.reported o ord delivered = { s with
    tallies := (s.countReport o ord delivered).tallies
    entries := match ord.car with
      | none => s.entries
      | some h => put s.entries h { s.entry h with touched := true }
    attention := if ord.car = none then (s.countReport o ord delivered).attention else
      { (s.countReport o ord delivered).attention with
        causes := (s.countReport o ord delivered).attention.causes ||| 0x100#10 } } := by
  unfold State.reported
  rw [State.touchCar_eq]
  unfold State.countReport
  split <;> rfl

end

/-- What a report adds to a tally of the kitchen, by how it counts the order (R164, R165). -/
def reportAdds (counted : Nat) (ord : Order) (j : KitchenTally) : Nat :=
  match counted, j with
  | 0, .delivered => 1
  | 1, .undeliverable => 1
  | 2, .cancelled => 1
  | 2, .wasteLines => ord.quantities
  | 3, .delivered => 1
  | _, _ => 0

section
variable (s : State) (o : OrderHandle) (ord : Order) (delivered : Bool)

theorem countReport_tally (hbank : ∀ j, s.tally (.kitchen j) ≤ 65535) (j : KitchenTally) :
    (s.countReport o ord delivered).tally (.kitchen j) =
      min 65535 (s.tally (.kitchen j) + reportAdds (countedAs delivered ord.cancelPending) ord j) := by
  have hraise (t : State) (n : NoteKind) (k : Tally) : (t.raiseOrder o n).tally k = t.tally k := by simp [State.tally]
  unfold State.countReport
  cases delivered <;> cases ord.cancelPending <;> cases j <;>
    simp [hraise, State.tally_count, countedAs, reportAdds, hbank]

theorem reported_tally (k : Tally) : (s.reported o ord delivered).tally k = (s.countReport o ord delivered).tally k := by
  rw [reported_records]
  rfl

theorem reported_dispatched : (s.reported o ord delivered).attention.dispatched = s.attention.dispatched := by
  have hcounted : (s.countReport o ord delivered).attention.dispatched = s.attention.dispatched := by
    unfold State.countReport
    split
    · rfl
    · rfl
    · rw [State.raiseOrder_eq]
      rfl
    · rw [State.raiseOrder_eq]
      rfl
  rw [reported_records]
  dsimp only
  split <;> exact hcounted

/-- A report that settles a cancel is noted (R165). -/
theorem reported_noted (h : ord.cancelPending = true) :
    (s.reported o ord delivered).attention.causes.getLsbD 6 = true := by
  have hcounted : (s.countReport o ord delivered).attention.causes.getLsbD 6 = true := by
    unfold State.countReport
    rw [h]
    cases delivered <;> simp only [State.raiseOrder_eq] <;> exact (BitVec.getLsbD_or ..).trans (Bool.or_true _)
  rw [reported_records]
  dsimp only
  split
  · exact hcounted
  · exact (BitVec.getLsbD_or ..).trans (by rw [hcounted, Bool.true_or])

end

/-- Settles O58: the report counted and its car touched, then the order's retirement. -/
theorem tripReportSettlesTheOrder : Obligations.TripReportSettlesTheOrder := by
  refine ⟨fun s order outcome hp => ⟨fun h => ?_, fun o ho houtcome hfree => ?_⟩, fun s o ord outcome hp houtcome ho => ?_⟩
  · exact denied_of_records rfl hp fun _ _ => (workTripReport_denied _ _ _).1 h
  · exact denied_of_records rfl hp fun _ _ => (workTripReport_denied _ _ _).2 o ho houtcome hfree
  · intro i
    refine ⟨fun hstage => ?_, fun k hstage htrip => ?_⟩
    · exact denied_of_records rfl hp fun port attention =>
        (workTripReport_of_order (s.facing port attention) houtcome ho).trans
          (State.checked_fails _ (beq_eq_false_iff_ne.mpr hstage) _ _ _)
    · intro left counted added a noted reported one told
      have htold : told = (s.atWork i).reported o ord (outcome == 0) := by
        rw [reported_records]
        obtain ⟨port, attention, hc⟩ := s.atWork_shape i
        simp only [told, reported, one, noted, a, hc]
        have hne : (Tally.kitchen .cancelled).index ≠ (Tally.kitchen .wasteLines).index := by decide
        rcases Nat.le_one_iff_eq_zero_or_eq_one.mp houtcome with rfl | rfl <;> cases hcancel : ord.cancelPending <;>
          simp only [counted, hcancel, State.countReport, State.raiseOrder_eq]
        · rfl
        · rfl
        · rfl
        · simp only [State.count, State.tally]
          rw [look_put_ne _ _ hne]
          rfl
      have hcounted : countedAs (outcome == 0) ord.cancelPending = counted := by
        rcases Nat.le_one_iff_eq_zero_or_eq_one.mp houtcome with rfl | rfl <;> cases hcancel : ord.cancelPending <;>
          simp only [counted, hcancel] <;> rfl
      have hexec : exec i s = .next ((told.retireOrder o).answered .ok [counted, k.val, left, if left = 0 then 1 else 0]) := by
        rw [htold]
        refine exec_of_work_eq_ok rfl hp ((workTripReport_of_order (s.atWork i) houtcome (by simpa using ho)).trans
          ((State.checked_holds _ (beq_iff_eq.mpr hstage) _ _ _).trans ((State.checked_nil _ _).trans ?_)))
        have hleft : (s.atWork i).leftOnTrip o ord = left := by
          unfold State.leftOnTrip
          rw [htrip]
          exact congrArg (fun x : Trip => (x.orders.erase o).length) (State.trip_atWork s i k)
        rw [hleft, hcounted, htrip]
        refine congrArg (State.ok _ [counted, k.val, left, ·]) ?_
        unfold flag
        simp only [beq_iff_eq]
      obtain ⟨port, attention, hc⟩ := s.atWork_shape i
      have hu : told = { s with
          tallies := told.tallies, entries := told.entries, attention := told.attention, port := told.port } := by
        simp only [told, hc]
      have hlist : told.readyList = s.readyList := (congrArg State.readyList hu :)
      have horder (z : OrderHandle) : told.order z = s.order z := (congrArg (fun b : State => b.order z) hu :)
      have htrips (j : TripHandle) : told.trip j = s.trip j := (congrArg (fun b : State => b.trip j) hu :)
      have hdispatched : told.attention.dispatched = s.attention.dispatched := by
        rw [htold, reported_dispatched, atWork_dispatched]
      have hretired := retireOrder_retired (s := told) ((horder o).trans ho)
      refine ⟨hexec, fun first more y hleft hready hnot hy => ?_, fun hbank => ⟨told.retireOrder o, hexec, hretired.free,
        fun j hj => ?_, fun h c hcar hlive => ?_, fun h hcar => ?_, fun hnoted => ?_, fun hout hleft => ?_, fun hleft hready => ?_, ?_⟩⟩
      · intro t p allowed members formed
        obtain ⟨hleft, hfew, hheld, hwalks⟩ := retireOrder_formed (s := told) ((horder o).trans ho) htrip
          ((htrips k).symm ▸ List.length_eq_zero_iff.mp hleft) (hlist.trans hready) (hlist.symm ▸ hnot) ((horder first).trans hy)
        rw [show told.readyOf y.field 6 = members from (congrArg (fun b : State => b.readyOf y.field 6) hu :)]
          at hleft hfew hheld hwalks
        rw [show told.program y.field = p from (congrArg (fun b : State => b.program y.field) hu :)] at hheld hwalks
        rw [show told.window = s.window from (congrArg State.window hu :)] at hfew
        have again {st : TripState} {timer : Option Nat} (h : FormedAgain told t k y.field members st timer) :
            formed st timer := by
          refine ⟨h.trip, fun z hz hparked => (h.orders z hz ?_).trans (by rw [horder])⟩
          rwa [show told.parked = s.parked from (congrArg State.parked hu :)]
        refine ⟨hleft.trans (by rw [hlist]), fun h => again (hfew h), fun h h' => again (hheld h h'), fun h h' => ?_⟩
        obtain ⟨hcause, hflag⟩ := (hwalks h h').raised rfl
        exact ⟨again (hwalks h h'), hcause, hflag.trans (by rw [hdispatched])⟩
      · refine (hretired.tallies _ (fun e => hj (Tally.kitchen.inj e))).trans ?_
        rw [htold, reported_tally]
        refine (countReport_tally _ o ord _ (fun j => ?_) j).trans ?_
        · rw [State.tally_atWork]
          exact hbank j
        · rw [State.tally_atWork, hcounted]
          rfl
      · exact (hretired.carSettled (b := s) rfl).1 h c hcar hlive
      · exact (hretired.carSettled (b := s) rfl).2 h hcar
      · refine hretired.causes 6 ((offTrip_raised _ _ _).causes 6 ?_)
        show told.attention.causes.getLsbD 6 = true
        rw [htold]
        refine reported_noted _ _ _ _ ?_
        rw [← hcounted] at hnoted
        cases hcancel : ord.cancelPending with
        | true => rfl
        | false =>
          rw [hcancel] at hnoted
          cases hdelivered : outcome == 0 <;> rw [hdelivered] at hnoted <;> exact absurd hnoted (by decide)
      · refine (congrArg (look · k) hretired.trips).trans ?_
        have hne : ((told.untold o).trip k).orders.erase o ≠ [] := fun h => hleft (by
          rw [show (told.untold o).trip k = s.trip k from htrips k] at h
          exact congrArg List.length h)
        rw [htrip]
        refine (congrArg (fun b : State => b.trip k) (((told.untold o).leaveTrip_spec k o).2.1 hne ?_ ?_)).trans ?_
        · rw [show (told.untold o).trip k = s.trip k from htrips k, hout]
          decide
        · rw [show (told.untold o).trip k = s.trip k from htrips k, hout]
          decide
        · refine (look_put_self _ _ _).trans ?_
          rw [show (told.untold o).trip k = s.trip k from htrips k]
      · refine (congrArg (look · k) hretired.trips).trans ?_
        rw [htrip]
        refine (congrArg (fun b : State => b.trip k) (((told.untold o).leaveTrip_spec k o).1 ?_)).trans ?_
        · rw [show (told.untold o).trip k = s.trip k from htrips k]
          exact List.length_eq_zero_iff.mp hleft
        · rw [State.reformTrip_nil _ k (show told.readyList.erase o = [] by rw [hlist, hready]; rfl)]
          exact look_put_self _ _ _
      · exact (retireOrder_frame_eq told o).trans rfl

end Sys2Proof.Machine
end

section
/-! PROOF. CANCEL ORDER (O52). -/

namespace Sys2Proof.Machine

/-- An order that leaves a FIELD_HOLD trip of other orders is followed by ready orders of its field (R159). -/
theorem leaveTrip_held {s : State} {k : TripHandle} {f : FieldNo} {o : OrderHandle} (hstate : (s.trip k).state = .fieldHold)
    (hfield : (s.trip k).field = some f) (hrest : (s.trip k).orders.erase o ≠ []) :
    let rest := (s.trip k).orders.erase o
    let more := s.readyOf f (6 - rest.length)
    let t := s.leaveTrip k o
    t.trip k = { s.trip k with orders := rest ++ more } ∧
    t.readyList = s.readyList.filter (fun z => !more.contains z) ∧
    ∀ z ∈ more, t.order z = (s.order z).map fun y => { y with trip := some k } := by
  intro rest more t
  let b : State := { s with
    trips := put s.trips k { s.trip k with orders := rest }
    readyList := s.readyList.filter fun z => !more.contains z }
  have ht : t = b.joinTrip k more := (s.leaveTrip_spec k o).2.2 f hrest (.inr hstate) hfield
  have htrip : b.trip k = { s.trip k with orders := rest } := look_put_self _ _ _
  obtain ⟨horders, hframe⟩ := (b.joinTrip_spec k more).1 fun h => by
    have hgathers := h.1.1
    rw [htrip, hstate] at hgathers
    exact nomatch hgathers
  rw [← ht, htrip] at hframe
  rw [← ht] at horders
  refine ⟨?_, (congrArg State.readyList hframe :), fun z hz => (horders z).trans (if_pos hz)⟩
  refine ((congrArg (look · k) (congrArg State.trips hframe :)).trans (look_put_self _ _ _)).trans ?_
  dsimp only
  rw [hstate, if_neg fun h => nomatch h.1]

/-- What a cancellation can change. -/
theorem cancelAtStage_frame_eq (s : State) (o : OrderHandle) (ord : Order) : s.cancelAtStage o ord = { s with
    entries := (s.cancelAtStage o ord).entries, tallies := (s.cancelAtStage o ord).tallies
    orders := (s.cancelAtStage o ord).orders, parked := (s.cancelAtStage o ord).parked
    stations := (s.cancelAtStage o ord).stations, hold := (s.cancelAtStage o ord).hold
    trips := (s.cancelAtStage o ord).trips, readyList := (s.cancelAtStage o ord).readyList
    attention := (s.cancelAtStage o ord).attention } := by
  have h := s.cancelAtStage_frame o ord
  revert h
  generalize s.cancelAtStage o ord = t
  intro h
  cases t
  cases s
  simp_all

/-! ### CANCEL ORDER (R167 to R169) -/

theorem workCancelOrder_of_order (s : State) {o : OrderHandle} {ord : Order} (ho : s.order o = some ord) :
    (ord.cancelPending = true → workCancelOrder o s = s.deny .pending) ∧
    (ord.cancelPending = false → workCancelOrder o s =
      (s.cancelAtStage o ord).deny (if (s.cancelAtStage o ord).order o = none then .cancelled else .pending)) := by
  unfold workCancelOrder
  rw [s.withOrder_of_some ho]
  refine ⟨fun h => if_pos h, fun h => (if_neg (Bool.eq_false_iff.mp h)).trans ?_⟩
  dsimp only
  cases (s.cancelAtStage o ord).order o <;> rfl

theorem atWork_notes (s : State) (i : Instr) : (s.atWork i).attention.notes = s.attention.notes := by
  unfold State.atWork
  obtain ⟨-, e⟩ | ⟨-, e⟩ := (s.clockStatus i.frame.length).discardReply_spec <;> rw [e] <;> rfl

/-- The change from `s` to `b` counts a cancel with its waste and touches the car (R168, R169). -/
structure Charged (s b : State) (car : Option CarHandle) (waste : Nat) : Prop where
  entries : b.entries = s.touchedEntries car
  counted : b.tally (.kitchen .cancelled) = min 65535 (s.tally (.kitchen .cancelled) + 1)
  wasted : b.tally (.kitchen .wasteLines) = min 65535 (s.tally (.kitchen .wasteLines) + waste)

/-- The change from `s` to `t` counts a cancel with its waste, touches its car and retires the order (R151, R168, R169). -/
structure Cancelled (s t : State) (o : OrderHandle) (ord : Order) (waste : Nat) : Prop where
  free : t.order o = none
  entries : (∀ h c, ord.car = some h → s.car h = some c →
      t.entry h = { car := some { c with orders := c.orders.erase o }, touched := true }) ∧
    ∀ h, ord.car ≠ some h → t.entry h = s.entry h
  queues : ∀ n k, (o, k) ∉ (t.station n).queue
  counted : t.tally (.kitchen .cancelled) = min 65535 (s.tally (.kitchen .cancelled) + 1)
  wasted : t.tally (.kitchen .wasteLines) = min 65535 (s.tally (.kitchen .wasteLines) + waste)

theorem Retired.cancelled {s b t : State} {o : OrderHandle} {x ord : Order} {waste : Nat} (h : Retired b t o x)
    (hcar : x.car = ord.car) (hb : Charged s b ord.car waste) : Cancelled s t o ord waste :=
  ⟨h.free, hcar ▸ h.carSettled (hcar ▸ hb.entries), h.queues, (h.tallies _ (by simp)).trans hb.counted,
    (h.tallies _ (by simp)).trans hb.wasted⟩

theorem Retired.attention {s t : State} {o : OrderHandle} {ord : Order} (h : Retired s t o ord) :
    t.attention.notes = s.attention.notes ∧
      ∀ j, s.attention.causes.getLsbD j = true → t.attention.causes.getLsbD j = true := by
  have hraised := offTrip_raised (s.untold o) o ord.trip
  exact ⟨(congrArg Attention.notes h.flags :).trans (congrArg Attention.notes hraised.beside :),
    fun j hj => h.causes j (hraised.causes j hj)⟩

section
variable (s : State)

/-- The tally bank with one order more cancelled. -/
def State.cancelBank : Vector Nat 64 :=
  put s.tallies (Tally.kitchen .cancelled).index (min 65535 (s.tally (.kitchen .cancelled) + 1))

/-- The tally bank with one order more cancelled, and its waste. -/
def State.wasteBank (n : Nat) : Vector Nat 64 :=
  put s.cancelBank (Tally.kitchen .wasteLines).index (min 65535 (s.tally (.kitchen .wasteLines) + n))

theorem charged_cancelBank {b : State} {car : Option CarHandle} (hentries : b.entries = s.touchedEntries car)
    (htallies : b.tallies = s.cancelBank) (hbound : s.tally (.kitchen .wasteLines) ≤ 65535) : Charged s b car 0 := by
  refine ⟨hentries, ?_, ?_⟩ <;> rw [State.tally, htallies]
  · exact look_put_self _ _ _
  · exact (look_put_ne _ _ (by decide)).trans (min_eq_right hbound).symm

theorem charged_wasteBank {b : State} {car : Option CarHandle} {n : Nat} (hentries : b.entries = s.touchedEntries car)
    (htallies : b.tallies = s.wasteBank n) : Charged s b car n := by
  refine ⟨hentries, ?_, ?_⟩ <;> rw [State.tally, htallies]
  · exact (look_put_ne _ _ (by decide)).trans (look_put_self _ _ _)
  · exact look_put_self _ _ _

end

section
variable {s : State} {o : OrderHandle} {ord : Order}

/-- A cancel told: the tally bank, the car touched, the attention. -/
def State.toldCancel (s : State) (car : Option CarHandle) (tallies : Vector Nat 64) (a : Attention) : State :=
  { s with
    tallies := tallies
    entries := s.touchedEntries car
    attention := if car = none then a else { a with causes := a.causes ||| 0x100#10 } }

theorem toldCancel_notes (b : State) (car : Option CarHandle) (tallies : Vector Nat 64) (a : Attention) :
    (b.toldCancel car tallies a).attention.notes = a.notes := by
  unfold State.toldCancel
  dsimp only
  split <;> rfl

/-- An order that is PARKED, QUEUED or READY is cancelled at once (R167, R169). -/
theorem cancelAtStage_retires (ho : s.order o = some ord) :
    (ord.stage = .parked ∨ ord.stage = .queued →
      let b := s.toldCancel ord.car s.cancelBank s.attention
      s.cancelAtStage o ord = b.retireOrder o ∧ Retired b (b.retireOrder o) o ord) ∧
    (ord.stage = .ready →
      let b := s.toldCancel ord.car (s.wasteBank (ord.lines.map OrderLine.quantity).sum) s.attention
      s.cancelAtStage o ord = b.retireOrder o ∧ Retired b (b.retireOrder o) o ord) := by
  obtain ⟨hloose, hready, -⟩ := s.cancelAtStage_spec o ord
  exact ⟨fun h => ⟨hloose h, retireOrder_retired ho⟩, fun h => ⟨hready h, retireOrder_retired ho⟩⟩

theorem cancelAtStage_cancelled (ho : s.order o = some ord) (hstage : ord.stage = .parked ∨ ord.stage = .queued ∨ ord.stage = .ready)
    (hbound : s.tally (.kitchen .wasteLines) ≤ 65535) :
    Cancelled s (s.cancelAtStage o ord) o ord (if ord.stage = .ready then (ord.lines.map OrderLine.quantity).sum else 0) ∧
      (s.cancelAtStage o ord).attention.notes = s.attention.notes := by
  obtain ⟨hloose, hready⟩ := cancelAtStage_retires ho
  by_cases hr : ord.stage = .ready
  · obtain ⟨e, h⟩ := hready hr
    rw [e, if_pos hr]
    exact ⟨h.cancelled rfl (charged_wasteBank s rfl rfl), h.attention.1.trans (toldCancel_notes ..)⟩
  · obtain ⟨e, h⟩ := hloose (by tauto)
    rw [e, if_neg hr]
    exact ⟨h.cancelled rfl (charged_cancelBank s rfl rfl hbound), h.attention.1.trans (toldCancel_notes ..)⟩

/-- The order's line waits to be handed out. -/
def Order.Waits (ord : Order) (k : Nat) : Prop := ord.lines[k]?.map OrderLine.state = some .waiting

theorem waits_iff {o : OrderHandle} (ord : Order) (k : Nat) :
    ((o, k).1 == o && ord.lines[(o, k).2]?.map OrderLine.state == some .waiting) = true ↔ ord.Waits k := by
  simp [Order.Waits]

/-- A PREPARING order of which no line is on the stove settles at once (R146, R168). -/
theorem cancelAtStage_settles (hstage : ord.stage = .preparing)
    (hoff : ¬ ∃ n k, (o, k) ∈ (s.station n).queue ∧ ¬ ord.Waits k) :
    Cancelled s (s.cancelAtStage o ord) o ord
        ((ord.lines.filter fun l => l.state == .finished).map OrderLine.quantity).sum ∧
      (s.cancelAtStage o ord).attention.causes.getLsbD 6 = true ∧
      (s.attention.notes.length < 8 → (s.cancelAtStage o ord).attention.notes = s.attention.notes ++ [(o, .cancelSettled)]) := by
  obtain ⟨-, -, -, -, -, hfell, hstood⟩ := s.cancelAtStage_spec o ord
  let x : Order := { ord with cancelPending := true, timer := none }
  let w : State := { s with
    stations := Vector.ofFn fun n =>
      { s.station n with
        queue := (s.station n).queue.filter fun e => !(e.1 == o && ord.lines[e.2]?.map OrderLine.state == some .waiting) }
    orders := put s.orders o (some x) }
  let noted : Attention := { s.attention with
    causes := s.attention.causes ||| 0x40#10
    notes := if s.attention.notes.length < 8 then s.attention.notes ++ [(o, .cancelSettled)] else s.attention.notes
    overflow := if s.attention.notes.length < 8 then s.attention.overflow else true }
  let b := w.toldCancel ord.car (s.wasteBank ((ord.lines.filter fun l => l.state == .finished).map OrderLine.quantity).sum) noted
  have hretired : Retired b (b.retireOrder o) o x := retireOrder_retired (look_put_self _ _ _)
  have hstove : ¬ ∃ n k, (o, k) ∈ (s.station n).queue ∧
      ((o, k).1 == o && ord.lines[(o, k).2]?.map OrderLine.state == some .waiting) = false := by
    rintro ⟨n, k, hmem, hk⟩
    exact hoff ⟨n, k, hmem, mt (waits_iff ord k).mpr (Bool.eq_false_iff.mp hk)⟩
  have ht : Retired b (s.cancelAtStage o ord) o x := by
    by_cases h : ∃ n k, (o, k) ∈ (s.station n).queue ∧
        ((o, k).1 == o && ord.lines[(o, k).2]?.map OrderLine.state == some .waiting) = true
    · rw [show s.cancelAtStage o ord = (b.retireOrder o).afterFall from hfell hstage hstove h]
      exact hretired.afterwards (Checked.afterFall _) (Unparked.afterFall _)
    · rw [show s.cancelAtStage o ord = b.retireOrder o from hstood hstage hstove h]
      exact hretired
  refine ⟨ht.cancelled rfl (charged_wasteBank s rfl rfl), ht.attention.2 6 ?_, fun hroom => ?_⟩
  · have hnoted : noted.causes.getLsbD 6 = true := (BitVec.getLsbD_or ..).trans (Bool.or_true _)
    show BitVec.getLsbD (Attention.causes (if ord.car = none then noted else _)) 6 = true
    split
    · exact hnoted
    · exact (BitVec.getLsbD_or ..).trans (by rw [hnoted, Bool.true_or])
  · exact ht.attention.1.trans ((toldCancel_notes ..).trans (if_pos hroom))

/-- A PREPARING order with a line on the stove is pending, without its WAITING lines (R168). -/
theorem cancelAtStage_pends (hstage : ord.stage = .preparing)
    (hon : ∃ n k, (o, k) ∈ (s.station n).queue ∧ ¬ ord.Waits k) (hparked : o ∉ s.parked) :
    let t := s.cancelAtStage o ord
    t.order o = some { ord with cancelPending := true, timer := none } ∧ t.entries = s.entries ∧
      (∀ n k, (o, k) ∈ (t.station n).queue ↔ (o, k) ∈ (s.station n).queue ∧ ¬ ord.Waits k) ∧
      t.tally (.kitchen .cancelled) = s.tally (.kitchen .cancelled) ∧ t.attention.notes = s.attention.notes := by
  intro t
  let w : State := { s with
    stations := Vector.ofFn fun n =>
      { s.station n with
        queue := (s.station n).queue.filter fun e => !(e.1 == o && ord.lines[e.2]?.map OrderLine.state == some .waiting) }
    orders := put s.orders o (some { ord with cancelPending := true, timer := none }) }
  obtain ⟨-, -, -, hfell, hstood, -, -⟩ := s.cancelAtStage_spec o ord
  have hstove : ∃ n k, (o, k) ∈ (s.station n).queue ∧
      ((o, k).1 == o && ord.lines[(o, k).2]?.map OrderLine.state == some .waiting) = false := by
    obtain ⟨n, k, hmem, hk⟩ := hon
    exact ⟨n, k, hmem, Bool.eq_false_iff.mpr (mt (waits_iff ord k).mp hk)⟩
  have ht : Checked w t ∧ Unparked w t := by
    by_cases h : ∃ n k, (o, k) ∈ (s.station n).queue ∧
        ((o, k).1 == o && ord.lines[(o, k).2]?.map OrderLine.state == some .waiting) = true
    · rw [show t = w.afterFall from hfell hstage hstove h]
      exact ⟨Checked.afterFall w, Unparked.afterFall w⟩
    · rw [show t = w from hstood hstage hstove h]
      exact ⟨Checked.refl w, Unparked.refl w⟩
  obtain ⟨hchecked, hunparked⟩ := ht
  refine ⟨(hunparked.orders o (.inl hparked)).trans (look_put_self _ _ _), (congrArg State.entries hchecked.records :),
    fun n k => (hunparked.queues o (.inl hparked) n k).trans ?_, hchecked.tallies _ (by simp),
    (congrArg Attention.notes hchecked.flags :)⟩
  have hqueue : (w.station n).queue = (s.station n).queue.filter fun e =>
      !(e.1 == o && ord.lines[e.2]?.map OrderLine.state == some .waiting) := congrArg Station.queue (look_ofFn _ n)
  rw [hqueue, List.mem_filter, Bool.not_eq_true', ← Bool.not_eq_true, waits_iff]

end

/-- Settles O52: the retirement and the cancellation by their laws, then the command by the order's stage. -/
theorem cancelOrderSettlesByStage : Obligations.CancelOrderSettlesByStage := by
  refine ⟨fun s o ord => s.retireOrder_spec o ord, fun s o ord => s.cancelAtStage_spec o ord,
    fun s order hp h => denied_of_records rfl hp fun _ _ => State.withOrder_of_ge _ h _, fun s o hp => ?_⟩
  intro i
  refine ⟨fun h => denied_of_records rfl hp fun port attention => State.withOrder_of_none (s.facing port attention) h _,
    fun ord ho => ?_⟩
  intro pending carSettled gone frame isWaiting onStove
  obtain ⟨port, attention, hc⟩ := s.atWork_shape i
  have hbase : (s.atWork i).order o = some ord := (State.order_atWork s i o).trans ho
  let t := (s.atWork i).cancelAtStage o ord
  have hexec (hcancel : ord.cancelPending = false) :
      exec i s = .next (t.answered (if t.order o = none then .cancelled else .pending) []) := by
    rw [exec_free i rfl hp, ← Answer.complete_deny]
    exact congrArg (fun a : Answer => Host.Outcome.next a.complete) ((workCancelOrder_of_order _ hbase).2 hcancel)
  have hgone (hcancel : ord.cancelPending = false) (hfree : t.order o = none) : exec i s = .next (t.answered .cancelled []) :=
    (hexec hcancel).trans (by rw [if_pos hfree])
  have hstays (hcancel : ord.cancelPending = false) {x : Order} (hx : t.order o = some x) :
      exec i s = .next (t.answered .pending []) := (hexec hcancel).trans (by rw [if_neg (by simp [hx])])
  have hframe : frame t := cancelAtStage_frame_eq _ o ord
  have hcancelled {n : Nat} (h : Cancelled (s.atWork i) t o ord n) : gone t n := by
    rw [hc] at h
    exact ⟨h.free, h.entries, h.queues, h.counted, h.wasted⟩
  refine ⟨fun h => ?_, hexec, fun k f hcancel hstage htrip hstate hfield hrest => ?_, fun hcancel hstage => ?_,
    fun hcancel hstage hbound => ⟨t, ?_⟩, fun hcancel hstage hon hparked => ⟨t, ?_⟩, fun hcancel hstage hoff => ⟨t, ?_⟩⟩
  · exact denied_of_records rfl hp fun port attention => (workCancelOrder_of_order (s.facing port attention) ho).1 h
  · intro rest more
    let b := (s.atWork i).toldCancel ord.car ((s.atWork i).wasteBank (ord.lines.map OrderLine.quantity).sum)
      (s.atWork i).attention
    obtain ⟨ht, hretired⟩ := (cancelAtStage_retires hbase).2 hstage
    have ht : t = b.retireOrder o := ht
    have hretired : Retired b (b.retireOrder o) o ord := hretired
    rw [← ht] at hretired
    have hb : b = { s with tallies := b.tallies, entries := b.entries, attention := b.attention, port := b.port } := by
      unfold b State.toldCancel
      rw [hc]
    have htripb : (b.untold o).trip k = s.trip k := (congrArg (fun x : State => x.trip k) hb :)
    have horderb (z : OrderHandle) : (b.untold o).order z = s.order z := (congrArg (fun x : State => x.order z) hb :)
    have hlistb : (b.untold o).readyList = s.readyList.erase o := (congrArg (fun x : State => x.readyList.erase o) hb :)
    have hheld := leaveTrip_held (s := b.untold o) (k := k) (f := f) (o := o) (by rwa [htripb]) (by rwa [htripb]) (by rwa [htripb])
    have hmore : (b.untold o).readyOf f (6 - ((b.untold o).trip k |>.orders.erase o).length) = more := by
      rw [htripb]
      unfold State.readyOf
      rw [hlistb]
      simp only [horderb]
      rfl
    dsimp only at hheld
    rw [hmore, htripb, hlistb] at hheld
    obtain ⟨hleft, hlist, horders⟩ := hheld
    have hoff : (b.untold o).offTrip o ord.trip = (b.untold o).leaveTrip k o := by rw [htrip]; rfl
    refine ⟨t, hgone hcancel hretired.free, ?_, ?_, fun z hz hzo hparked => ?_⟩
    · refine (congrArg (look · k) hretired.trips).trans ?_
      rw [hoff]
      exact hleft
    · rw [hretired.ready, hoff]
      exact hlist
    · refine (hretired.orders z hzo ?_).trans ?_
      · rwa [show b.parked = s.parked from (congrArg State.parked hb :)]
      · rw [hoff, horders z hz, horderb]
  · have ht : t = { s.atWork i with orders := put s.orders o (some pending) } := by
      refine (((s.atWork i).cancelAtStage_spec o ord).2.2.1 hstage).trans ?_
      rw [hc]
    rw [← ht]
    exact hstays hcancel ((congrArg (fun b : State => b.order o) ht).trans (look_put_self _ _ _))
  · have hbound' : (s.atWork i).tally (.kitchen .wasteLines) ≤ 65535 := by rwa [State.tally_atWork]
    obtain ⟨h, hnotes⟩ := cancelAtStage_cancelled hbase hstage hbound'
    exact ⟨hgone hcancel h.free, hframe, hcancelled h, hnotes.trans (atWork_notes s i)⟩
  · have hon' : ∃ n k, (o, k) ∈ ((s.atWork i).station n).queue ∧ ¬ ord.Waits k := by
      simp only [State.station_atWork]
      exact hon
    have hparked' : o ∉ (s.atWork i).parked := by
      rw [hc]
      exact hparked
    obtain ⟨hpends, hentries, hqueues, htally, -⟩ := cancelAtStage_pends hstage hon' hparked'
    refine ⟨hstays hcancel hpends, hframe, hpends, hentries.trans ?_, fun n k => ?_, htally.trans ?_⟩
    · rw [hc]
    · rw [hqueues n k, State.station_atWork]
      exact Iff.rfl
    · rw [State.tally_atWork]
  · have hoff' : ¬ ∃ n k, (o, k) ∈ ((s.atWork i).station n).queue ∧ ¬ ord.Waits k := by
      simp only [State.station_atWork]
      exact hoff
    obtain ⟨h, hnoted, hnotes⟩ := cancelAtStage_settles (s := s.atWork i) hstage hoff'
    rw [atWork_notes] at hnotes
    exact ⟨hgone hcancel h.free, hframe, hcancelled h, hnoted, hnotes⟩

end Sys2Proof.Machine
end

section
/-! PROOF. STATION NEXT and LINE DONE, and where a READY order goes (O53). -/

namespace Sys2Proof.Machine

/-! ### Where a READY order goes (R158) -/

/-- The change from `w` to `p` leaves the order waiting, READY, on a trip or on none; no other order changes. -/
structure ReadyAt (w p : State) (o : OrderHandle) (x : Order) : Prop where
  stage : x.stage = .ready
  orders : p.orders = put w.orders o (some x)
  frame : p = { w with orders := p.orders, trips := p.trips, readyList := p.readyList }

/-- The change from `w` to `p` dispatches the order's trip: the order and those that stood on it are ON_TRIP (R162). -/
structure DispatchedAt (w p : State) (o : OrderHandle) (x : Order) (k : TripHandle) : Prop where
  stage : x.stage = .onTrip
  order : p.order o = some x
  others : ∀ z, z ≠ o → p.order z =
    if z ∈ (w.trip k).orders then (w.order z).map fun y => { y with stage := .onTrip } else w.order z
  frame : p = { w with
    orders := p.orders, trips := p.trips
    attention :=
      { w.attention with
        causes := w.attention.causes ||| 0x20#10
        dispatched := w.attention.dispatched ||| BitVec.twoPow 8 k.val } }

theorem ReadyAt.of_frame {w p : State} {o : OrderHandle} {x : Order} {trips : Vector Trip 8} (hstage : x.stage = .ready)
    (horders : p.orders = put w.orders o (some x)) (hframe : p = { w with trips := trips, orders := p.orders }) :
    ReadyAt w p o x ∧ p.trips = trips := by
  have htrips : p.trips = trips := (congrArg State.trips hframe :)
  have hready : p.readyList = w.readyList := (congrArg State.readyList hframe :)
  refine ⟨⟨hstage, horders, ?_⟩, htrips⟩
  rw [htrips, hready]
  exact hframe

section
variable {w : State} {o : OrderHandle} {r : Order}

/-- One READY order joins a trip: behind its others, and with the sixth a GATHERING trip closes (R158, R160). -/
theorem joinTrip_one (hr : w.order o = some r) (hstage : r.stage = .ready) {k : TripHandle} {f : FieldNo}
    (hfield : (w.trip k).field = some f) :
    let x := w.trip k
    let p := w.joinTrip k [o]
    let joined := { x with orders := x.orders ++ [o] }
    let closes := x.state = .gathering ∧ x.orders.length = 5
    p.readyList = w.readyList ∧
    (¬ closes → ReadyAt w p o { r with trip := some k } ∧ p.trips = put w.trips k
      { joined with timer := if x.state = .gathering then some (w.window * 1000) else x.timer }) ∧
    (closes → ¬ (w.program f).Walkable → ReadyAt w p o { r with trip := some k } ∧
      p.trips = put w.trips k { joined with state := .fieldHold, timer := none }) ∧
    (closes → (w.program f).Walkable → DispatchedAt w p o { r with trip := some k, stage := .onTrip } k ∧
      p.trips = put w.trips k { joined with state := .out, timer := none }) := by
  intro x p joined closes
  have hcloses : ((x.state = .gathering ∧ [o] ≠ []) ∧ (x.orders ++ [o]).length = 6) ↔ closes := by
    simp [closes]
  obtain ⟨hstays, hfull⟩ := w.joinTrip_spec k [o]
  have horders (h : ∀ z, p.order z = if z ∈ [o] then (w.order z).map fun ord => { ord with trip := some k } else w.order z) :
      p.orders = put w.orders o (some { r with trip := some k }) := by
    apply table_ext
    intro z
    refine (h z).trans ?_
    by_cases hz : z = o
    · rw [hz, if_pos (List.mem_singleton_self o), hr, look_put_self]
      rfl
    · rw [if_neg (by simpa using hz), look_put_ne _ _ (Ne.symm hz)]
      rfl
  refine ⟨by simp [p], fun h => ?_, fun h hwalk => ?_, fun h hwalk => ?_⟩
  · obtain ⟨hord, hframe⟩ := hstays (mt hcloses.mp h)
    obtain ⟨hready, htrips⟩ := ReadyAt.of_frame (x := { r with trip := some k }) hstage (horders hord) hframe
    refine ⟨hready, htrips.trans (congrArg (fun t : Option Nat => put w.trips k { joined with timer := t }) ?_)⟩
    exact if_congr (and_iff_left (List.cons_ne_nil o [])) rfl rfl
  · obtain ⟨hgathers, hsix⟩ := hcloses.mpr h
    obtain ⟨hord, hframe⟩ := (hfull f hgathers hsix hfield).1 hwalk
    exact ReadyAt.of_frame (x := { r with trip := some k }) hstage (horders hord) hframe
  · obtain ⟨hgathers, hsix⟩ := hcloses.mpr h
    obtain ⟨hord, hframe⟩ := (hfull f hgathers hsix hfield).2 hwalk
    have htrips : p.trips = put w.trips k { joined with state := .out, timer := none } := (congrArg State.trips hframe :)
    refine ⟨⟨rfl, ?_, fun z hz => ?_, ?_⟩, htrips⟩
    · refine (hord o).trans ?_
      dsimp only
      rw [if_pos (List.mem_append_right _ (List.mem_singleton_self o)), if_pos (List.mem_singleton_self o), hr]
      rfl
    · refine (hord z).trans ?_
      dsimp only
      rw [if_neg (show z ∉ [o] by simpa using hz)]
      exact if_congr (by simp [hz]) rfl rfl
    · rw [htrips]
      exact hframe

/-- A READY order forms a trip that was IDLE (R158). -/
theorem formTrip_one (hr : w.order o = some r) (hstage : r.stage = .ready) (k : TripHandle) (f : FieldNo) :
    let p := w.formTrip k f [o]
    p.readyList = w.readyList ∧ ReadyAt w p o { r with trip := some k } ∧
    p.trips = put w.trips k { state := .gathering, field := some f, orders := [o], timer := some (w.window * 1000) } := by
  intro p
  let b := w.setTrip k { state := .gathering, field := some f, orders := [], timer := none }
  have htrip : b.trip k = { state := .gathering, field := some f, orders := [], timer := none } := look_put_self _ _ _
  obtain ⟨hlist, hjoins, -, -⟩ := joinTrip_one (w := b) (k := k) (f := f) hr hstage (by rw [htrip])
  rw [htrip] at hjoins
  obtain ⟨hready, htrips⟩ := hjoins fun h => nomatch h.2
  exact ⟨hlist, ⟨hstage, hready.orders, hready.frame⟩, htrips.trans (put_put _ _ _ _)⟩

/-- The three places of a READY order: a trip of its field that takes joins, an IDLE trip, the ready list (R158). -/
theorem placeReady_spec (w : State) (o : OrderHandle) (f : FieldNo) :
    let takes (k : TripHandle) : Prop := (w.trip k).Joinable ∧ (w.trip k).field = some f
    (∀ k, takes k → (∀ k', k' < k → ¬ takes k') → w.placeReady o f = w.joinTrip k [o]) ∧
    ((∀ k, ¬ takes k) →
      (∀ k, (w.trip k).state = .idle → (∀ k', k' < k → (w.trip k').state ≠ .idle) → w.placeReady o f = w.formTrip k f [o]) ∧
      ((∀ k, (w.trip k).state ≠ .idle) → w.placeReady o f = { w with readyList := w.readyList ++ [o] })) := by
  intro takes
  have htakes (k : TripHandle) : ((w.trip k).takesJoins && (w.trip k).field == some f) = true ↔ takes k := by
    simp [takes, Trip.takesJoins, Trip.Joinable]
  refine ⟨fun k hk hbelow => ?_, fun hnone => ⟨fun k hk hbelow => ?_, fun hidle => ?_⟩⟩
  · have hlowest : lowest (fun t => (w.trip t).takesJoins && (w.trip t).field == some f) = some k :=
      lowest_eq_some_iff.mpr ⟨(htakes k).mpr hk, fun j hj => Bool.eq_false_iff.mpr (mt (htakes j).mp (hbelow j hj))⟩
    rw [State.placeReady, hlowest]
  all_goals
    have hno : lowest (fun t => (w.trip t).takesJoins && (w.trip t).field == some f) = none :=
      lowest_eq_none.mpr fun j => Bool.eq_false_iff.mpr (mt (htakes j).mp (hnone j))
  · have hlowest : lowest (fun t => (w.trip t).state == .idle) = some k :=
      lowest_eq_some_iff.mpr ⟨beq_iff_eq.mpr hk, fun j hj => beq_eq_false_iff_ne.mpr (hbelow j hj)⟩
    rw [State.placeReady, hno]
    simp only [hlowest]
  · have hlowest : lowest (fun t => (w.trip t).state == .idle) = none :=
      lowest_eq_none.mpr fun j => beq_eq_false_iff_ne.mpr (hidle j)
    rw [State.placeReady, hno]
    simp only [hlowest]

end

/-! ### STATION NEXT (R144) -/

/-- The line waits to be handed out. -/
def State.LineWaits (s : State) (e : OrderHandle × Nat) : Prop :=
  ∃ ord l, s.order e.1 = some ord ∧ ord.lines[e.2]? = some l ∧ l.state = .waiting

theorem lineWaits_iff (s : State) (e : OrderHandle × Nat) : s.lineWaits e = true ↔ s.LineWaits e := by
  unfold State.lineWaits State.LineWaits
  cases s.order e.1 with
  | none => simp
  | some ord => cases h : ord.lines[e.2]? <;> simp [Order.lineState, h]

theorem workStationNext_of_station (s : State) (n : StationNo) :
    ((∀ e ∈ (s.station n).queue, ¬ s.LineWaits e) → workStationNext n s = s.deny .notFound) ∧
    ∀ (ahead behind : List (OrderHandle × Nat)) (o : OrderHandle) (k : Nat) (ord : Order) (l : OrderLine),
      (s.station n).queue = ahead ++ (o, k) :: behind → (∀ e ∈ ahead, ¬ s.LineWaits e) →
      s.order o = some ord → ord.lines[k]? = some l → l.state = .waiting →
      workStationNext n s = (s.setOrder o (some
        { ord with
          lines := ord.lines.set k { l with state := .started }
          stage := if ord.stage = .queued then .preparing else ord.stage })).ok
        [o.val, k, l.item, l.quantity, ord.field.val, flag ord.late] := by
  unfold workStationNext State.oldestWaiting
  rw [s.withHandle_fin]
  refine ⟨fun h => ?_, fun ahead behind o k ord l hqueue hahead ho hl hstate => ?_⟩
  · rw [List.find?_eq_none.mpr fun e he => mt (lineWaits_iff s e).mp (h e he)]
  · have hfirst : (s.station n).queue.find? s.lineWaits = some (o, k) := by
      rw [hqueue, List.find?_append, List.find?_eq_none.mpr fun e he => mt (lineWaits_iff s e).mp (hahead e he),
        Option.none_or, List.find?_cons_of_pos ((lineWaits_iff s (o, k)).mpr ⟨ord, l, ho, hl, hstate⟩)]
    have hhanded : ord.handOut k = { ord with
        lines := ord.lines.set k { l with state := .started }
        stage := if ord.stage = .queued then .preparing else ord.stage } := by
      unfold Order.handOut Order.withLine
      rw [List.modify_eq_set_getElem?, hl]
      simp
    rw [hfirst]
    dsimp only
    rw [ho]
    dsimp only
    rw [hl]
    dsimp only
    rw [hhanded]

end Sys2Proof.Machine
end

section
/-! PROOF. LINE DONE: the order stands, settles or becomes READY (O53). -/

namespace Sys2Proof.Machine

section
variable (s : State) (o : OrderHandle) (k : Nat)

/-- A line out of its queue, its order written (R145). -/
def State.withoutLine (x : Order) : State := { s with
  orders := put s.orders o (some x)
  stations := Vector.ofFn fun n => { s.station n with queue := (s.station n).queue.filter fun e => !(e == (o, k)) } }

theorem mem_queue_withoutLine (x : Order) (n : StationNo) (j : Nat) :
    (o, j) ∈ ((s.withoutLine o k x).station n).queue ↔ (o, j) ∈ (s.station n).queue ∧ j ≠ k := by
  have hqueue : ((s.withoutLine o k x).station n).queue = (s.station n).queue.filter fun e => !(e == (o, k)) :=
    congrArg Station.queue (look_ofFn _ n)
  rw [hqueue, List.mem_filter, Bool.not_eq_true', beq_eq_false_iff_ne]
  simp

theorem inQueues_withoutLine (x : Order) :
    (s.withoutLine o k x).inQueues o = true ↔ ∃ n j, (o, j) ∈ (s.station n).queue ∧ j ≠ k :=
  inQueues_iff.trans (exists_congr fun n => exists_congr fun j => mem_queue_withoutLine s o k x n j)

/-- The line done and out of its queue; the order finished if no line of it is queued; then what follows the fall. -/
theorem finishLine_eq {ord : Order} {l : OrderLine} (hl : ord.lines[k]? = some l) :
    let w := s.withoutLine o k { ord with lines := ord.lines.set k { l with state := .finished } }
    s.finishLine o ord k = (if w.inQueues o then w else w.finishOrder o).afterFall := by
  intro w
  have hline : ord.withLine k .finished = { ord with lines := ord.lines.set k { l with state := .finished } } := by
    unfold Order.withLine
    rw [List.modify_eq_set_getElem?, hl]
    simp
  have hw : (s.setOrder o (some (ord.withLine k .finished))).withdrawLines (fun l => l == (o, k)) = w := by
    rw [State.withdrawLines_eq, hline]
    rfl
  unfold State.finishLine
  rw [hw]

/-- What LINE DONE can change. -/
theorem finishLine_frame_eq (ord : Order) : s.finishLine o ord k = { s with
    entries := (s.finishLine o ord k).entries, tallies := (s.finishLine o ord k).tallies
    orders := (s.finishLine o ord k).orders, parked := (s.finishLine o ord k).parked
    stations := (s.finishLine o ord k).stations, hold := (s.finishLine o ord k).hold
    trips := (s.finishLine o ord k).trips, readyList := (s.finishLine o ord k).readyList
    attention := (s.finishLine o ord k).attention } := by
  have h := s.finishLine_frame o ord k
  revert h
  generalize s.finishLine o ord k = t
  intro h
  cases t
  cases s
  simp_all

theorem workLineDone_of_order {ord : Order} (ho : s.order o = some ord) (hk : k ≤ 5) :
    (ord.lines.length ≤ k → workLineDone o k s = s.deny .badArg) ∧
    ∀ l, ord.lines[k]? = some l →
      (l.state ≠ .started → workLineDone o k s = s.deny .state) ∧
      (l.state = .started → workLineDone o k s = (s.finishLine o ord k).ok [(s.finishLine o ord k).stageAfter o]) := by
  have hwork : workLineDone o k s = s.checked
      [(decide (k < ord.lines.length), .badArg), (ord.lineState k == some .started, .state)]
      ((s.finishLine o ord k).ok [(s.finishLine o ord k).stageAfter o]) := by
    refine (s.checked_holds ?_ _ _ _).trans ((s.checked_nil _).trans (s.withOrder_of_some ho _))
    simp only [Bool.and_eq_true, decide_eq_true_eq]
    exact ⟨o.isLt, hk⟩
  rw [hwork]
  refine ⟨fun h => s.checked_fails (decide_eq_false h.not_gt) _ _ _, fun l hl => ?_⟩
  have hstate : ord.lineState k = some l.state := by rw [Order.lineState, hl]; rfl
  rw [s.checked_holds (decide_eq_true (List.getElem?_eq_some_iff.mp hl).1), hstate]
  exact ⟨fun h => s.checked_fails (beq_eq_false_iff_ne.mpr fun e => h (Option.some.inj e)) _ _ _,
    fun h => s.checked_holds (beq_iff_eq.mpr (congrArg some h)) _ _ _⟩

theorem workLineDone_denied (order line : Nat) :
    (256 ≤ order ∨ 5 < line → workLineDone order line s = s.deny .badArg) ∧
    (s.order o = none → o.val = order → line ≤ 5 → workLineDone order line s = s.deny .notFound) := by
  refine ⟨fun h => s.checked_fails ?_ _ _ _, ?_⟩
  · simp only [Bool.and_eq_false_iff, decide_eq_false_iff_not]
    omega
  · rintro hfree rfl hline
    refine (s.checked_holds ?_ _ _ _).trans ((s.checked_nil _).trans (s.withOrder_of_none hfree _))
    simp only [Bool.and_eq_true, decide_eq_true_eq]
    exact ⟨o.isLt, hline⟩

end

/-- A READY order is placed: it waits, or its trip is dispatched with it. -/
theorem placeReady_cases {b : State} {o : OrderHandle} {r : Order} (hr : b.order o = some r) (hstage : r.stage = .ready)
    (f : FieldNo) : (∃ trip, ReadyAt b (b.placeReady o f) o { r with trip := trip }) ∨
      ∃ k, DispatchedAt b (b.placeReady o f) o { r with trip := some k, stage := .onTrip } k := by
  unfold State.placeReady
  split
  · rename_i k hk
    have htakes := (lowest_spec hk).1
    simp only [Bool.and_eq_true, beq_iff_eq] at htakes
    obtain ⟨-, hstays, hheld, hwalks⟩ := joinTrip_one hr hstage htakes.2
    by_cases hcloses : (b.trip k).state = .gathering ∧ (b.trip k).orders.length = 5
    · by_cases hwalk : (b.program f).Walkable
      · exact .inr ⟨k, (hwalks hcloses hwalk).1⟩
      · exact .inl ⟨_, (hheld hcloses hwalk).1⟩
    · exact .inl ⟨_, (hstays hcloses).1⟩
  · split
    · exact .inl ⟨_, (formTrip_one hr hstage _ f).2.1⟩
    · refine .inl ⟨r.trip, hstage, ?_, rfl⟩
      rw [show ({ r with trip := r.trip } : Order) = r from rfl, ← hr]
      exact (put_look _ _).symm

/-- An order not parked, and its lines, after the fall that follows its work. -/
theorem afterFall_stands {p : State} {o : OrderHandle} (hparked : o ∉ p.parked) :
    p.afterFall.order o = p.order o ∧ p.afterFall.entries = p.entries ∧ p.afterFall.trips = p.trips ∧
    p.afterFall.readyList = p.readyList ∧ p.afterFall.attention.flags = p.attention.flags ∧
    ∀ n j, (o, j) ∈ (p.afterFall.station n).queue ↔ (o, j) ∈ (p.station n).queue := by
  have hchecked := Checked.afterFall p
  have hunparked := Unparked.afterFall p
  exact ⟨hunparked.orders o (.inl hparked), (congrArg State.entries hchecked.records :), hchecked.trips,
    (congrArg State.readyList hchecked.records :), hchecked.flags, hunparked.queues o (.inl hparked)⟩

theorem stageAfter_of_order {t : State} {o : OrderHandle} {x : Order} (h : t.order o = some x) :
    t.stageAfter o = stageCode x.stage := by
  unfold State.stageAfter
  rw [h]
  rfl

/-- Settles O53: the checks; the oldest line handed out; the line done, and its order standing, READY or settled. -/
theorem stationsHandOutAndFinishLines : Obligations.StationsHandOutAndFinishLines := by
  refine ⟨fun s station order line hp => ⟨fun h => ?_, fun h => ?_, fun o ho hline => ⟨fun hfree => ?_, fun ord hord hlength => ?_⟩⟩,
    fun s n hp => ?_, fun s o k ord l hp hk => ?_⟩
  · exact denied_of_records rfl hp fun _ _ => State.withHandle_of_ge _ h _
  · exact denied_of_records rfl hp fun port attention => (workLineDone_denied (s.facing port attention) 0 order line).1 h
  · exact denied_of_records rfl hp fun port attention =>
      (workLineDone_denied (s.facing port attention) o order line).2 hfree ho hline
  · subst ho
    exact denied_of_records rfl hp fun port attention =>
      (workLineDone_of_order (s.facing port attention) o line hord hline).1 hlength
  · intro i waits
    refine ⟨fun h => ?_, fun ahead behind o k ord l hqueue hahead ho hl hstate => ?_⟩
    · exact denied_of_records rfl hp fun port attention => (workStationNext_of_station (s.facing port attention) n).1 h
    · exact answered_of_records rfl hp (g := fun t => { t with orders := _ }) fun port attention =>
        (workStationNext_of_station (s.facing port attention) n).2 ahead behind o k ord l hqueue hahead ho hl hstate
  · intro i ho hl
    refine ⟨fun h => ?_, fun hstarted hparked => ?_⟩
    · exact denied_of_records rfl hp fun port attention =>
        ((workLineDone_of_order (s.facing port attention) o k ho hk).2 l hl).1 h
    · intro lines more a written frame
      obtain ⟨port, attention, hc⟩ := s.atWork_shape i
      have hbase : (s.atWork i).order o = some ord := (State.order_atWork s i o).trans ho
      let x : Order := { ord with lines := lines }
      let t := (s.atWork i).finishLine o ord k
      have hw : (s.atWork i).withoutLine o k x = written := by
        unfold written State.withoutLine
        rw [hc]
        rfl
      have ht : t = (if written.inQueues o then written else written.finishOrder o).afterFall :=
        hw ▸ finishLine_eq (s.atWork i) o k hl
      have hmore : written.inQueues o = true ↔ more := by
        rw [← hw, inQueues_withoutLine, hc]
        exact Iff.rfl
      have hexec : exec i s = .next (t.answered .ok [t.stageAfter o]) :=
        exec_of_work_eq_ok rfl hp (((workLineDone_of_order _ o k hbase hk).2 l hl).2 hstarted)
      have hframe : frame t := finishLine_frame_eq _ o k ord
      have hws : written = { s with
          orders := written.orders, stations := written.stations, attention := a, port := written.port } := by
        unfold written a
        rw [hc]
      have hwparked : o ∉ written.parked := by
        rwa [show written.parked = s.parked from (congrArg State.parked hws :)]
      have hworder : written.order o = some x := look_put_self _ _ _
      refine ⟨fun h => ?_, fun h hcancel => ?_, fun h hcancel => ?_⟩
      · rw [if_pos (hmore.mpr h)] at ht
        obtain ⟨horder, hentries, -, -, -, hqueues⟩ := afterFall_stands hwparked
        rw [← ht] at horder hentries hqueues
        have hx := horder.trans hworder
        refine ⟨t, hexec.trans ?_, hframe, ht, hx, hentries.trans (congrArg State.entries hws :), fun n j => ?_⟩
        · rw [stageAfter_of_order hx]
        · refine (hqueues n j).trans ?_
          rw [← hw, mem_queue_withoutLine, hc]
          exact Iff.rfl
      · rw [if_neg (mt hmore.mp h)] at ht
        let r : Order := { x with stage := .ready, timer := none }
        let b := written.setOrder o (some r)
        have hr : b.order o = some r := look_put_self _ _ _
        let placed := b.placeReady o ord.field
        have hfinish : written.finishOrder o = placed := by
          unfold State.finishOrder
          rw [hworder]
          exact if_neg (Bool.eq_false_iff.mp hcancel)
        rw [hfinish] at ht
        have hplaced : placed.parked = s.parked ∧ placed.entries = s.entries ∧ placed.stations = written.stations := by
          refine ⟨?_, ?_, ?_⟩
          · simpa [placed, b] using (congrArg State.parked hws :)
          · simpa [placed, b] using (congrArg State.entries hws :)
          · simp [placed, b]
        obtain ⟨hpparked, hpentries, hpstations⟩ := hplaced
        obtain ⟨y, hy, hystage, hyx⟩ : ∃ y, placed.order o = some y ∧ (y.stage = .ready ∨ y.stage = .onTrip) ∧
            y = { r with stage := y.stage, trip := y.trip } := by
          rcases placeReady_cases hr rfl ord.field with ⟨trip, h⟩ | ⟨k, h⟩
          · exact ⟨{ r with trip := trip }, (congrArg (look · o) h.orders).trans (look_put_self _ _ _), .inl rfl, rfl⟩
          · exact ⟨_, h.order, .inr rfl, rfl⟩
        obtain ⟨horder, hentries, htrips, hlist, hflags, hqueues⟩ := afterFall_stands (hpparked.symm ▸ hparked : o ∉ placed.parked)
        rw [← ht] at horder hentries htrips hlist hflags hqueues
        have hty : t.order o = some y := horder.trans hy
        refine ⟨placed, t, y, hexec.trans ?_, hframe, ht, hty, hystage, ?_, hyx, hentries.trans hpentries, fun n j => ?_, ?_⟩
        · rw [stageAfter_of_order hty]
        · rw [hyx]
        · rw [hqueues n j, State.station, hpstations, ← State.station, ← hw, mem_queue_withoutLine, hc]
          rintro ⟨hmem, hj⟩
          exact h ⟨n, j, hmem, hj⟩
        · intro takes othersStand stands ready p allowed
          have hbs : b = { s with orders := b.orders, stations := b.stations, attention := a, port := b.port } :=
            congrArg (fun c : State => { c with orders := b.orders }) hws
          have hbtrips : b.trips = s.trips := (congrArg State.trips hbs :)
          have hbtrip (j : TripHandle) : b.trip j = s.trip j := congrArg (look · j) hbtrips
          have hbprogram : b.program ord.field = p := (congrArg (fun c : State => c.program ord.field) hbs :)
          have hbwindow : b.window = s.window := (congrArg State.window hbs :)
          have hblist : b.readyList = s.readyList := (congrArg State.readyList hbs :)
          have hborder {z : OrderHandle} (hz : z ≠ o) : b.order z = s.order z :=
            (look_put_ne _ _ (Ne.symm hz)).trans (look_put_ne _ _ (Ne.symm hz))
          have hunparked {z : OrderHandle} (hz : z ∉ s.parked) : t.order z = placed.order z := by
            rw [ht]
            exact (Unparked.afterFall placed).orders z (.inl (hpparked.symm ▸ hz))
          have hdispatched : t.attention.dispatched = placed.attention.dispatched := (congrArg Attention.dispatched hflags :)
          have hadispatched : a.dispatched = s.attention.dispatched := atWork_dispatched s i
          have hready {trip : Option TripHandle} (hat : ReadyAt b placed o { r with trip := trip }) : ready trip := by
            have hyr : y = { r with trip := trip } :=
              Option.some.inj (hy.symm.trans ((congrArg (look · o) hat.orders).trans (look_put_self _ _ _)))
            have horders : put s.orders o (some y) = placed.orders := by
              rw [hat.orders, ← hyr]
              exact ((put_put _ _ _ _).trans (put_put _ _ _ _)).symm
            refine ⟨congrArg Order.stage hyr, congrArg Order.trip hyr, fun z hzo hz => ?_, ?_, ?_⟩
            · exact (hunparked hz).trans (((congrArg (look · z) hat.orders).trans (look_put_ne _ _ (Ne.symm hzo))).trans (hborder hzo))
            · rw [hdispatched, hat.frame, ← hadispatched]
              exact (congrArg (fun c : State => c.attention.dispatched) hbs :)
            · rw [htrips, hlist, horders]
              exact hat.frame
          have hstand {k : TripHandle} {v : Trip} (hput : placed.trips = put b.trips k v) (hplist : placed.readyList = b.readyList) :
              othersStand k ∧ t.trip k = v := by
            refine ⟨⟨hlist.trans (hplist.trans hblist), fun k' hk' => ?_⟩, ?_⟩
            · exact (congrArg (look · k') (htrips.trans hput)).trans ((look_put_ne _ _ (Ne.symm hk')).trans (hbtrip k'))
            · exact (congrArg (look · k) (htrips.trans hput)).trans (look_put_self _ _ _)
          obtain ⟨hjoins, hnone⟩ := placeReady_spec b o ord.field
          simp only [hbtrip] at hjoins hnone
          refine ⟨fun k hk hbelow => ?_, fun hno => ⟨fun k hk hbelow => ?_, fun hidle => ?_⟩⟩
          · intro x' joined closes
            have hjoin : placed = b.joinTrip k [o] := hjoins k hk hbelow
            obtain ⟨hplist, hstays, hheld, hwalks⟩ := joinTrip_one hr rfl (k := k) (f := ord.field) ((hbtrip k).symm ▸ hk.2)
            rw [← hjoin] at hplist hstays hheld hwalks
            rw [hbtrip] at hstays hheld hwalks
            rw [hbwindow] at hstays
            rw [hbprogram] at hheld hwalks
            refine ⟨?_, fun h => ?_, fun h h' => ?_, fun h h' => ?_⟩
            · by_cases hc : closes
              · by_cases hw : allowed
                · exact (hstand (hwalks hc hw).2 hplist).1
                · exact (hstand (hheld hc hw).2 hplist).1
              · exact (hstand (hstays hc).2 hplist).1
            · exact ⟨hready (hstays h).1, (hstand (hstays h).2 hplist).2⟩
            · exact ⟨hready (hheld h h').1, (hstand (hheld h h').2 hplist).2⟩
            · obtain ⟨hat, hput⟩ := hwalks h h'
              have hyr : y = { r with trip := some k, stage := .onTrip } := Option.some.inj (hy.symm.trans hat.order)
              have hother {z : OrderHandle} (hz : z ≠ o) : placed.order z =
                  if z ∈ x'.orders then (s.order z).map fun y => { y with stage := .onTrip } else s.order z := by
                rw [hat.others z hz, hbtrip, hborder hz]
              have hbattention : b.attention = a := (congrArg State.attention hbs :)
              refine ⟨congrArg Order.stage hyr, congrArg Order.trip hyr, (hstand hput hplist).2, fun z hz hzo hzp => ?_,
                fun z hz hzo hzp => ?_, ?_, ?_, hy, fun z hz => hother hz, ?_⟩
              · exact (hunparked hzp).trans ((hother hzo).trans (if_neg hz))
              · exact (hunparked hzp).trans ((hother hzo).trans (if_pos hz))
              · rw [ht]
                refine (Checked.afterFall placed).causes 5 ?_
                rw [hat.frame]
                exact (BitVec.getLsbD_or ..).trans (Bool.or_true _)
              · rw [hdispatched, hat.frame, hbattention, hadispatched]
              · rw [htrips, ← hbattention]
                exact hat.frame
          · have hform : placed = b.formTrip k ord.field [o] := (hnone hno).1 k hk hbelow
            obtain ⟨hplist, hat, hput⟩ := formTrip_one hr rfl k ord.field
            rw [← hform] at hplist hat hput
            rw [hbwindow] at hput
            obtain ⟨hothers, hk'⟩ := hstand hput hplist
            exact ⟨hothers, hready hat, hk'⟩
          · have hlast : placed = { b with readyList := b.readyList ++ [o] } := (hnone hno).2 hidle
            have hat : ReadyAt b placed o { r with trip := ord.trip } := by
              refine ⟨rfl, ?_, ?_⟩
              · rw [hlast, show ({ r with trip := ord.trip } : Order) = r from rfl, ← hr]
                exact (put_look _ _).symm
              · rw [hlast]
            refine ⟨hready hat, htrips.trans ?_, hlist.trans ?_⟩
            · rw [hlast]
              exact hbtrips
            · rw [hlast, ← hblist]
      · rw [if_neg (mt hmore.mp h)] at ht
        intro settled
        have hfinish : written.finishOrder o = settled.retireOrder o := by
          have hsettle : written.finishOrder o = written.settleCancel o x := by
            unfold State.finishOrder
            rw [hworder]
            exact if_pos hcancel
          rw [hsettle, State.settleCancel_eq]
          refine congrArg (State.retireOrder · o) ?_
          unfold settled written a
          rw [hc]
          cases hcar : ord.car with
          | none =>
            simp only [x, if_true, BitVec.or_zero]
            rfl
          | some h =>
            simp only [x, reduceCtorEq, if_false]
            rfl
        rw [hfinish] at ht
        have hsorder : settled.order o = some x := hworder
        have hretired : Retired settled t o x := by
          rw [ht]
          exact (retireOrder_retired hsorder).afterwards (Checked.afterFall _) (Unparked.afterFall _)
        have hcharged : Charged s settled ord.car ((lines.filter fun x => x.state == .finished).map OrderLine.quantity).sum :=
          charged_wasteBank s rfl rfl
        obtain ⟨hfree, ⟨hcar, hcars⟩, hqueues, hcounted, hwasted⟩ := hretired.cancelled (ord := ord) rfl hcharged
        refine ⟨t, hexec.trans ?_, hframe, ht, hfree, hqueues, hcar, hcars, hcounted, hwasted, hretired.attention.2 6 ?_⟩
        · unfold State.stageAfter
          rw [hfree]
          rfl
        · exact (BitVec.getLsbD_or ..).trans (by rw [show BitVec.getLsbD (a.causes ||| 0x40#10) 6 = true from (BitVec.getLsbD_or ..).trans (Bool.or_true _), Bool.true_or])

end Sys2Proof.Machine
end

section
/-! PROOF. The release pass, and PLACE ORDER (O51). -/

namespace Sys2Proof.Machine

/-! ### The walk of a release pass (R140, R141, R142) -/

section
variable (s : State)

/-- The lines of an order at a station, as its queue takes them. -/
def State.linesOf (o : OrderHandle) (n : StationNo) : List (OrderHandle × Nat) :=
  ((((s.order o).map Order.lines).getD []).zipIdx.filter fun l => l.1.station == n).map fun l => (o, l.2)

/-- The order is marked due. -/
def State.dueAt (o : OrderHandle) : Bool := ((s.order o).map Order.due).getD false

/-- A station's backlog with these orders released. -/
def State.backlogAfter (done : List OrderHandle) (n : StationNo) : Nat :=
  (s.station n).queue.length + (done.flatMap fun o => s.linesOf o n).length

/-- The order finds room behind these. -/
def State.FitsAfter (done : List OrderHandle) (o : OrderHandle) : Prop :=
  ∀ n, s.linesOf o n = [] ∨ s.backlogAfter done n + (s.linesOf o n).length ≤ 255

/-- A backlog is at its xoff with these orders released. -/
def State.FullAfter (done : List OrderHandle) : Prop := ∃ n, (s.station n).xoff ≤ s.backlogAfter done n

end

/-- An item of a list with one more at its end: the last, or one of the list. -/
theorem snoc_eq_append_cons {α : Type} {l before after : List α} {x z : α} (h : l ++ [x] = before ++ z :: after) :
    (before = l ∧ z = x ∧ after = []) ∨ ∃ rest, l = before ++ z :: rest ∧ after = rest ++ [x] := by
  rcases List.eq_nil_or_concat after with rfl | ⟨rest, y, rfl⟩
  · obtain ⟨e, e'⟩ := List.append_inj' h rfl
    exact .inl ⟨e.symm, (List.cons.inj e').1.symm, rfl⟩
  · have h : l ++ [x] = (before ++ z :: rest) ++ [y] := by simpa using h
    obtain ⟨e, e'⟩ := List.append_inj' h rfl
    exact .inr ⟨rest, e, by rw [(List.cons.inj e').1, List.concat_eq_append]⟩

/-- A walk from `s` that has passed the orders `walked` and released some of them stands at `t`. -/
structure Walk (s t : State) (walked released : List OrderHandle) : Prop where
  each : ∀ before o after, walked = before ++ o :: after →
    (o ∈ released ↔ s.dueAt o = true ∧ s.FitsAfter (released.filter (before.contains ·)) o)
  sub : released.Sublist walked
  full : ∀ done o more, released = done ++ o :: more → (s.FullAfter (done ++ [o]) ↔ more = [] ∧ t.hold = true)
  parked : t.parked = s.parked.filter fun o => !released.contains o
  station : ∀ n, t.station n =
    { s.station n with queue := (s.station n).queue ++ released.flatMap fun o => s.linesOf o n }
  queued : ∀ o ∈ released, t.order o = (s.order o).map fun ord =>
    { ord with stage := .queued, due := false, timer := some (s.prepLimit * 60000) }
  others : ∀ o, o ∉ released → t.order o = s.order o
  deferrals : s.tally (.kitchen .stationDeferrals) ≤ 65535 →
    t.tally (.kitchen .stationDeferrals) = min 65535 (s.tally (.kitchen .stationDeferrals) +
      (walked.filter fun o => s.dueAt o && !released.contains o).length)
  tallies : ∀ k, k ≠ .kitchen .stationDeferrals → t.tally k = s.tally k
  frame : t = { s with
    orders := t.orders, parked := t.parked, stations := t.stations, tallies := t.tallies, hold := t.hold
    attention :=
      if t.hold = true then { s.attention with causes := s.attention.causes ||| 0x80#10 } else s.attention }

/-- A state with the records that a release pass writes taken from another, and an attention. -/
def State.withBook (s v : State) (a : Attention) : State :=
  { s with
    orders := v.orders, parked := v.parked, stations := v.stations, tallies := v.tallies, hold := v.hold, attention := a }

namespace Walk
variable {s t : State} {walked released : List OrderHandle} {o : OrderHandle}

theorem start (hhold : s.hold = false) : Walk s s [] [] where
  each before o after h := by simp at h
  sub := List.Sublist.refl _
  full done o more h := by simp at h
  parked := by simp
  station n := by simp
  queued o h := nomatch h
  others o _ := rfl
  deferrals h := by simpa using h
  tallies k _ := rfl
  frame := by rw [if_neg (by rw [hhold]; decide)]

theorem filter_walked (h : Walk s t walked released) : released.filter (walked.contains ·) = released :=
  List.filter_eq_self.mpr fun z hz => by simpa using h.sub.subset hz

/-- The order is passed without release, its deferral counted where it is due. -/
theorem pass {t' : State} (h : Walk s t walked released) (ho : o ∉ walked)
    (hnot : ¬ (s.dueAt o = true ∧ s.FitsAfter released o))
    (ht : t' = { t with tallies := t'.tallies })
    (hdeferrals : t'.tally (.kitchen .stationDeferrals) =
      if s.dueAt o = true then min 65535 (t.tally (.kitchen .stationDeferrals) + 1)
      else t.tally (.kitchen .stationDeferrals))
    (htallies : ∀ k, k ≠ .kitchen .stationDeferrals → t'.tally k = t.tally k) :
    Walk s t' (walked ++ [o]) released where
  each before z after hz := by
    rcases snoc_eq_append_cons hz with ⟨rfl, rfl, -⟩ | ⟨rest, hrest, -⟩
    · rw [h.filter_walked]
      exact iff_of_false (fun hz => ho (h.sub.subset hz)) hnot
    · exact h.each before z rest hrest
  sub := h.sub.trans (List.sublist_append_left _ _)
  full := by
    rw [ht]
    exact h.full
  parked := by
    rw [ht]
    exact h.parked
  station := by
    rw [ht]
    exact h.station
  queued := by
    rw [ht]
    exact h.queued
  others := by
    rw [ht]
    exact h.others
  deferrals hbound := by
    have hnotReleased : released.contains o = false := by simpa using fun hz => ho (h.sub.subset hz)
    rw [hdeferrals, h.deferrals hbound, List.filter_append, List.length_append]
    by_cases hdue : s.dueAt o = true
    · simp only [hdue, if_true, List.filter_cons, hnotReleased, Bool.not_false, Bool.and_self, List.filter_nil,
        List.length_singleton]
      omega
    · simp [hdue]
  tallies k hk := (htallies k hk).trans (h.tallies k hk)
  frame := by
    have hframe := h.frame
    rw [ht]
    exact congrArg (fun c : State => { c with tallies := t'.tallies }) hframe

theorem mem_queue_after (h : Walk s t walked released) (n : StationNo) : t.backlog n = s.backlogAfter released n := by
  rw [State.backlog, h.station n]
  exact List.length_append

/-- The order finds room at every station it names (R141). -/
theorem fits_iff (h : Walk s t walked released) {ord : Order} (hord : s.order o = some ord) :
    t.fitsQueues ord = true ↔ s.FitsAfter released o := by
  have hlines (n : StationNo) : s.linesOf o n = ord.linesFor o n := by
    unfold State.linesOf
    rw [hord]
    rfl
  rw [State.fitsQueues_iff]
  refine forall_congr' fun n => ?_
  rw [hlines, ← Order.length_linesFor ord o n, h.mem_queue_after, List.length_eq_zero_iff]

theorem linesOf_eq {ord : Order} (hord : s.order o = some ord) (n : StationNo) : s.linesOf o n = ord.linesFor o n := by
  unfold State.linesOf
  rw [hord]
  rfl

theorem backlogAfter_snoc (s : State) (done : List OrderHandle) (o : OrderHandle) (n : StationNo) :
    s.backlogAfter (done ++ [o]) n = s.backlogAfter done n + (s.linesOf o n).length := by
  simp [State.backlogAfter, List.flatMap_append, Nat.add_assoc]

/-- The order is released, and HOLD evaluated (R142, R148). -/
theorem release (h : Walk s t walked released) (hnodup : s.parked.Nodup) (hhold : t.hold = false) (ho : o ∉ walked)
    {ord : Order} (hord : s.order o = some ord) (hdue : s.dueAt o = true) (hfits : s.FitsAfter released o) :
    Walk s (t.release o ord).evaluateHold (walked ++ [o]) (released ++ [o]) := by
  have hnew : o ∉ released := fun hz => ho (h.sub.subset hz)
  have hprep : t.prepLimit = s.prepLimit := (congrArg State.prepLimit h.frame :)
  let u := t.release o ord
  have hu : u = { t with
      stations := Vector.ofFn fun n => { t.station n with queue := (t.station n).queue ++ ord.linesFor o n }
      orders := put t.orders o (some { ord with stage := .queued, due := false, timer := some (t.prepLimit * 60000) })
      parked := t.parked.erase o } := t.release_eq o ord
  have hustation (n : StationNo) : u.station n =
      { s.station n with queue := (s.station n).queue ++ (released ++ [o]).flatMap fun z => s.linesOf z n } := by
    rw [hu]
    refine (look_ofFn _ n).trans ?_
    rw [h.station n, List.flatMap_append, ← List.append_assoc, List.flatMap_singleton, linesOf_eq hord]
  have huparked : u.parked = s.parked.filter fun z => !(released ++ [o]).contains z := by
    have herase : u.parked = t.parked.erase o := (congrArg State.parked hu :)
    rw [herase, h.parked, (hnodup.filter _).erase_eq_filter, List.filter_filter]
    refine List.filter_congr fun z _ => ?_
    by_cases hz : z = o <;> simp [hz, hnew]
  have huorder (z : OrderHandle) : u.order z = if z = o then
      some { ord with stage := .queued, due := false, timer := some (s.prepLimit * 60000) } else t.order z := by
    rw [hu, ← hprep]
    split
    · rename_i hz
      rw [hz]
      exact look_put_self _ _ _
    · rename_i hz
      exact look_put_ne _ _ (Ne.symm hz)
  have huhold : u.hold = false := ((congrArg State.hold hu :)).trans hhold
  have hfull : (∃ n, (u.station n).xoff ≤ (u.station n).queue.length) ↔ s.FullAfter (released ++ [o]) := by
    refine exists_congr fun n => ?_
    rw [hustation, List.length_append]
    exact Iff.rfl
  have hv := u.evaluateHold_eq
  have hvhold : u.evaluateHold.hold = true ↔ s.FullAfter (released ++ [o]) := by
    rw [← hfull, congrArg State.hold hv]
    dsimp only
    split
    · rename_i hf
      exact iff_of_true rfl hf
    · rename_i hf
      rw [huhold]
      exact iff_of_false (by split <;> simp) hf
  have hvorder (z : OrderHandle) : u.evaluateHold.order z = u.order z := congrArg (look · z) (by simp)
  refine ⟨fun before z after hz => ?_, h.sub.append (List.Sublist.refl _), fun done z more hz => ?_, ?_, fun n => ?_,
    fun z hz => ?_, fun z hz => ?_, fun hbound => ?_, fun k hk => ?_, ?_⟩
  · rcases snoc_eq_append_cons hz with ⟨rfl, rfl, -⟩ | ⟨rest, hrest, -⟩
    · rw [List.filter_append, h.filter_walked]
      refine iff_of_true (List.mem_append_right _ (List.mem_singleton_self z)) ⟨hdue, ?_⟩
      simpa [ho] using hfits
    · have hzo : z ≠ o := fun e => ho (by rw [hrest, e]; simp)
      have hbefore : o ∉ before := fun hm => ho (by rw [hrest]; exact List.mem_append_left _ hm)
      rw [List.filter_append, show [o].filter (before.contains ·) = [] by simp [hbefore], List.append_nil,
        ← h.each before z rest hrest]
      simp [hzo]
  · rcases snoc_eq_append_cons hz with ⟨rfl, rfl, rfl⟩ | ⟨rest, hrest, rfl⟩
    · exact hvhold.symm.trans (by simp [u])
    · rw [h.full done z rest hrest, hhold]
      simp
  · exact (show u.evaluateHold.parked = u.parked by simp).trans huparked
  · exact (congrArg (look · n) (show u.evaluateHold.stations = u.stations by simp)).trans (hustation n)
  · rw [hvorder, huorder]
    by_cases hzo : z = o
    · rw [if_pos hzo, hzo, hord]
      rfl
    · rw [if_neg hzo]
      exact h.queued z (by simpa [hzo] using hz)
  · have hz : z ∉ released ∧ z ≠ o := by simpa using hz
    rw [hvorder, huorder, if_neg hz.2]
    exact h.others z hz.1
  · have htally : u.evaluateHold.tally (.kitchen .stationDeferrals) = t.tally (.kitchen .stationDeferrals) := by
      simp [State.tally, u]
    rw [htally, h.deferrals hbound]
    congr 3
    rw [List.filter_append, show [o].filter (fun z => s.dueAt z && !(released ++ [o]).contains z) = [] by simp, List.append_nil]
    refine List.filter_congr fun z hz => ?_
    have hzo : z ≠ o := fun e => ho (e ▸ hz)
    simp [hzo]
  · exact (show u.evaluateHold.tally k = t.tally k by simp [State.tally, u]).trans (h.tallies k hk)
  · let v := u.evaluateHold
    have htattention : u.attention = s.attention := by
      refine (congrArg State.attention hu :).trans ((congrArg State.attention h.frame :).trans (if_neg ?_))
      rw [hhold]
      exact Bool.false_ne_true
    have hvattention : v.attention =
        if v.hold = true then { s.attention with causes := s.attention.causes ||| 0x80#10 } else s.attention := by
      have hraised : v.attention = if v.hold = u.hold then u.attention
          else { u.attention with causes := u.attention.causes ||| 0x80#10 } := by
        unfold v
        rw [hv]
      rw [hraised, huhold, htattention]
      cases v.hold <;> rfl
    calc
      v = u.withBook v v.attention := by unfold v State.withBook; rw [hv]
      _ = t.withBook v v.attention := (congrArg (State.withBook · v v.attention) hu :)
      _ = s.withBook v v.attention := (congrArg (State.withBook · v v.attention) h.frame :)
      _ = s.withBook v _ := congrArg (s.withBook v) hvattention

end Walk

/-- The orders of a list that has no double stand behind those walked before them. -/
theorem releaseWalk_walk {s : State} (hnodup : s.parked.Nodup) (hlive : ∀ o ∈ s.parked, s.order o ≠ none)
    {rest walked released : List OrderHandle} {t : State} (h : Walk s t walked released) (hhold : t.hold = false)
    (hparked : s.parked = walked ++ rest) :
    ∃ walked' left released', s.parked = walked' ++ left ∧ Walk s (releaseWalk rest t) walked' released' ∧
      ((releaseWalk rest t).hold = false → left = []) ∧
      ((releaseWalk rest t).hold = true → ∃ done o, walked' = done ++ [o] ∧ o ∈ released') := by
  induction rest generalizing walked released t with
  | nil =>
    refine ⟨walked, [], released, hparked, h, fun _ => rfl, fun hon => ?_⟩
    exact nomatch hhold.symm.trans hon
  | cons o rest ih =>
    have hnext : s.parked = (walked ++ [o]) ++ rest := by rw [hparked, List.append_assoc]; rfl
    have ho : o ∉ walked := fun hmem => by
      rw [hparked] at hnodup
      exact (List.disjoint_of_nodup_append hnodup) hmem List.mem_cons_self
    obtain ⟨ord, hord⟩ := Option.ne_none_iff_exists'.mp (hlive o (hparked ▸ List.mem_append_right _ List.mem_cons_self))
    have hdueAt : s.dueAt o = ord.due := by
      unfold State.dueAt
      rw [hord]
      rfl
    unfold releaseWalk
    rw [h.others o fun hz => ho (h.sub.subset hz), hord]
    dsimp only
    split
    · rename_i hdue
      have hdue : s.dueAt o = false := by simpa [hdueAt] using hdue
      exact ih (h.pass ho (fun hc => nomatch hdue.symm.trans hc.1) rfl (by rw [hdue]; rfl) fun _ _ => rfl) hhold hnext
    rename_i hdue
    have hdue : s.dueAt o = true := by simpa [hdueAt] using hdue
    split
    · rename_i hfits
      have hfits : ¬ s.FitsAfter released o := by
        rw [← h.fits_iff hord]
        simpa using hfits
      refine ih (h.pass ho (fun hc => hfits hc.2) rfl ?_ fun k hk => ?_) hhold hnext
      · rw [hdue, State.tally_count]
        simp
      · rw [State.tally_count, if_neg (Ne.symm hk)]
    rename_i hfits
    have hreleased := h.release hnodup hhold ho hord hdue ((h.fits_iff hord).mp (by simpa using hfits))
    split
    · rename_i hon
      refine ⟨walked ++ [o], rest, released ++ [o], hnext, hreleased, fun hoff => ?_, fun _ => ⟨walked, o, rfl, by simp⟩⟩
      exact nomatch hoff.symm.trans hon
    · rename_i hoff
      exact ih hreleased (Bool.eq_false_iff.mpr hoff) hnext

/-- A law that deferrals and releases keep stands after a release pass. -/
theorem releaseWalk_induct {P : State → Prop} (hdeferral : ∀ t, P t → P (t.count (.kitchen .stationDeferrals)))
    (hrelease : ∀ t o ord, t.order o = some ord → P t → P (t.release o ord).evaluateHold) (os : List OrderHandle)
    {s : State} (h : P s) : P (releaseWalk os s) := by
  induction os generalizing s with
  | nil => exact h
  | cons o rest ih =>
    unfold releaseWalk
    cases hord : s.order o with
    | none => exact ih h
    | some ord =>
      dsimp only
      split
      · exact ih h
      split
      · exact ih (hdeferral s h)
      have hreleased := hrelease s o ord hord h
      split
      · exact hreleased
      · exact ih hreleased

/-- The order is PARKED or QUEUED. -/
def Unprepared (o : OrderHandle) (s : State) : Prop :=
  ∃ ord, s.order o = some ord ∧ (ord.stage = .parked ∨ ord.stage = .queued)

/-- A release pass makes no order but PARKED into QUEUED (R142). -/
theorem unprepared_releasePass {s : State} {o : OrderHandle} (h : Unprepared o s) : Unprepared o s.releasePass := by
  unfold State.releasePass
  split
  · exact h
  · refine releaseWalk_induct (fun _ => id) (fun t z ord _ ht => ?_) _ h
    have horders : (t.release z ord).evaluateHold.orders = put t.orders z
        (some { ord with stage := .queued, due := false, timer := some (t.prepLimit * 60000) }) :=
      (show (t.release z ord).evaluateHold.orders = (t.release z ord).orders by simp).trans (by rw [t.release_eq])
    by_cases hz : z = o
    · subst hz
      exact ⟨_, (congrArg (look · z) horders).trans (look_put_self _ _ _), .inr rfl⟩
    · obtain ⟨x, hx, hstage⟩ := ht
      exact ⟨x, (congrArg (look · o) horders).trans ((look_put_ne _ _ hz).trans hx), hstage⟩

/-- A walk passes orders that are not due. -/
theorem releaseWalk_undue {os rest : List OrderHandle} {s : State}
    (h : ∀ o ∈ os, ∀ ord, s.order o = some ord → ord.due = false) : releaseWalk (os ++ rest) s = releaseWalk rest s := by
  induction os with
  | nil => rfl
  | cons o os ih =>
    obtain ⟨ho, hos⟩ := List.forall_mem_cons.mp h
    rw [List.cons_append]
    conv_lhs => unfold releaseWalk
    cases hord : s.order o with
    | none => exact ih hos
    | some ord =>
      dsimp only
      rw [ho ord hord]
      exact ih hos

/-- The only due order of a pass is released where it finds room. -/
theorem releaseWalk_last {s : State} {o : OrderHandle} {ord : Order} (hord : s.order o = some ord) (hdue : ord.due = true)
    (hfits : s.fitsQueues ord = true) : releaseWalk [o] s = (s.release o ord).evaluateHold := by
  unfold releaseWalk
  rw [hord]
  dsimp only
  rw [hdue, hfits]
  simp only [Bool.not_true, Bool.false_eq_true, if_false]
  unfold releaseWalk
  exact ite_id _

/-! ### PLACE ORDER (R134, R135) -/

theorem releaseModeOf_eq_none_iff {mode : Nat} : releaseModeOf mode = none ↔ 1 < mode := by
  unfold releaseModeOf
  split
  · simp
  · simp
  · rename_i hzero hone
    simp only [true_iff]
    have h0 : mode ≠ 0 := hzero
    have h1 : mode ≠ 1 := hone
    omega

theorem releaseModeOf_releaseModeCode (mode : ReleaseMode) : releaseModeOf (releaseModeCode mode) = some mode := by
  cases mode <;> rfl

theorem placeRequest_eq_none {car mode count : Nat} {lines : List LineArg}
    (h : 1024 ≤ car ∨ 1 < mode ∨ count = 0 ∨ 6 < count ∨ count ≠ lines.length) :
    placeRequest? car mode count lines = none := by
  unfold placeRequest?
  split
  · rename_i k m hk hm
    have hcar : car < 1024 := by
      by_contra hge
      rw [handle?_of_ge (not_lt.mp hge)] at hk
      exact nomatch hk
    have hmode : ¬ 1 < mode := fun hlt => by
      rw [releaseModeOf_eq_none_iff.mpr hlt] at hm
      exact nomatch hm
    refine if_neg ?_
    rw [Bool.and_eq_true, within_eq_true, beq_iff_eq]
    omega
  · rfl

theorem placeRequest_eq_some {h : CarHandle} {mode count : Nat} {m : ReleaseMode} {lines : List LineArg}
    (hm : releaseModeOf mode = some m) (hlow : 1 ≤ count) (hhigh : count ≤ 6) (hcount : count = lines.length) :
    placeRequest? h mode count lines = some (h, m) := by
  unfold placeRequest?
  rw [handle?_fin, hm]
  refine if_pos ?_
  rw [Bool.and_eq_true, within_eq_true, beq_iff_eq]
  exact ⟨⟨hlow, hhigh⟩, hcount⟩

theorem lineOf_eq_none_iff {l : LineArg} : lineOf l = none ↔ l.quantity = 0 ∨ 9 < l.quantity ∨ 4 ≤ l.station := by
  unfold lineOf
  split
  · rename_i n hn
    have hstation : l.station < 4 := by
      by_contra hge
      rw [handle?_of_ge (not_lt.mp hge)] at hn
      exact nomatch hn
    rw [ite_eq_right_iff, within_eq_true]
    simp only [reduceCtorEq, imp_false]
    omega
  · rename_i hn
    refine iff_of_true rfl (.inr (.inr ?_))
    by_contra hlt
    rw [handle?_of_lt (not_le.mp hlt)] at hn
    exact nomatch hn

theorem linesOf_eq_none_iff {lines : List LineArg} :
    linesOf lines = none ↔ ∃ l ∈ lines, l.quantity = 0 ∨ 9 < l.quantity ∨ 4 ≤ l.station := by
  unfold linesOf
  induction lines with
  | nil => simp
  | cons l rest ih =>
    rw [List.mapM_cons, List.exists_mem_cons_iff, ← ih, ← lineOf_eq_none_iff]
    cases lineOf l <;> cases rest.mapM lineOf <;> simp

theorem linesOf_map {lines : List OrderLine} (h : ∀ l ∈ lines, 1 ≤ l.quantity ∧ l.quantity ≤ 9 ∧ l.state = .waiting) :
    linesOf (lines.map fun l => ⟨l.item, l.quantity, l.station⟩) = some lines := by
  unfold linesOf
  induction lines with
  | nil => rfl
  | cons l rest ih =>
    obtain ⟨⟨hlow, hhigh, hstate⟩, hrest⟩ := List.forall_mem_cons.mp h
    have hl : lineOf ⟨l.item, l.quantity, l.station⟩ = some l := by
      unfold lineOf
      rw [handle?_fin]
      dsimp only
      rw [if_pos (within_eq_true.mpr ⟨hlow, hhigh⟩), ← hstate]
    rw [List.map_cons, List.mapM_cons, hl, ih hrest]
    rfl

section
variable (s : State) {car mode count : Nat} {lines : List LineArg} {h : CarHandle} {m : ReleaseMode}

theorem workPlaceOrder_vacant (hrequest : placeRequest? car mode count lines = some (h, m)) (hc : s.car h = none) :
    workPlaceOrder car mode count lines s = s.deny .state := by
  unfold workPlaceOrder
  rw [hrequest]
  dsimp only
  rw [hc]

/-- Behind the checks of the entry stand the free slot and the lines. -/
theorem workPlaceOrder_of_car (hrequest : placeRequest? car mode count lines = some (h, m)) {c : Car} (hc : s.car h = some c) :
    (s.freeOrder = none → workPlaceOrder car mode count lines s = s.checked (s.placeChecks c) (s.deny .full)) ∧
    ∀ o, s.freeOrder = some o →
      (linesOf lines = none → workPlaceOrder car mode count lines s = s.checked (s.placeChecks c) (s.deny .badArg)) ∧
      ∀ ls, linesOf lines = some ls →
        let t := (s.parkOrder o h c.field m ls).placeDueCheck o c.field m
        workPlaceOrder car mode count lines s =
          s.checked (s.placeChecks c) (t.ok [o.val, t.stageAfter o, flag ((s.program c.field).isDue m)]) := by
  unfold workPlaceOrder
  rw [hrequest]
  dsimp only
  rw [hc]
  dsimp only
  refine ⟨fun hfree => ?_, fun o hfree => ⟨fun hlines => ?_, fun ls hlines => ?_⟩⟩
  · rw [hfree]
  · rw [hfree, hlines]
  · rw [hfree, hlines]

end

/-- The first check of PLACE ORDER that fails, behind those of its arguments. -/
theorem workPlaceOrder_refused (s : State) {car mode count : Nat} {lines : List LineArg} {h : CarHandle} {m : ReleaseMode}
    (hrequest : placeRequest? car mode count lines = some (h, m)) {c : Car} (hc : s.car h = some c) {code : ResultCode}
    (hcode : (if c.state ≠ .present then some ResultCode.state
       else if c.held = true then some .editing
       else if (s.program c.field).state = .ended then some .showOver
       else if 4 ≤ c.orders.length then some .orderLimit
       else if ∀ o, s.order o ≠ none then some .full
       else if ∃ l ∈ lines, l.quantity = 0 ∨ 9 < l.quantity ∨ 4 ≤ l.station then some .badArg
       else none) = some code) : workPlaceOrder car mode count lines s = s.deny code := by
  obtain ⟨work, hwork, hrest⟩ : ∃ work, workPlaceOrder car mode count lines s = s.checked (s.placeChecks c) work ∧
      ((∀ o, s.order o ≠ none) → work = s.deny .full) ∧ ((∃ l ∈ lines, l.quantity = 0 ∨ 9 < l.quantity ∨ 4 ≤ l.station) →
        (¬ ∀ o, s.order o ≠ none) → work = s.deny .badArg) := by
    obtain ⟨hnone, hsome⟩ := workPlaceOrder_of_car s hrequest hc
    cases hfound : s.freeOrder with
    | none =>
      have hall (o : OrderHandle) : s.order o ≠ none := fun e => by
        have := lowest_eq_none.mp hfound o
        rw [e] at this
        exact nomatch this
      exact ⟨_, hnone hfound, fun _ => rfl, fun _ h => absurd hall h⟩
    | some o =>
      have hfree : s.order o = none := Option.isNone_iff_eq_none.mp (lowest_spec hfound).1
      obtain ⟨hbad, hgood⟩ := hsome o hfound
      cases hlines : linesOf lines with
      | none => exact ⟨_, hbad hlines, fun h => absurd hfree (h o), fun _ _ => rfl⟩
      | some ls =>
        refine ⟨_, hgood ls hlines, fun h => absurd hfree (h o), fun h => ?_⟩
        exact nomatch (linesOf_eq_none_iff.mpr h).symm.trans hlines
  rw [hwork, State.placeChecks]
  split at hcode
  · rename_i hfails
    cases hcode
    exact s.checked_fails (beq_eq_false_iff_ne.mpr hfails) _ _ _
  rename_i hpresent
  rw [s.checked_holds (beq_iff_eq.mpr (not_not.mp hpresent))]
  split at hcode
  · rename_i hfails
    cases hcode
    exact s.checked_fails (by rw [hfails]; rfl) _ _ _
  rename_i hheld
  rw [s.checked_holds (by rw [Bool.eq_false_iff.mpr hheld]; rfl)]
  split at hcode
  · rename_i hfails
    cases hcode
    exact s.checked_fails (bne_eq_false_iff_eq.mpr hfails) _ _ _
  rename_i hended
  rw [s.checked_holds (bne_iff_ne.mpr hended)]
  split at hcode
  · rename_i hfails
    cases hcode
    exact s.checked_fails (decide_eq_false (by omega)) _ _ _
  rename_i hroom
  rw [s.checked_holds (decide_eq_true (by omega)), s.checked_nil]
  split at hcode
  · rename_i hfails
    cases hcode
    exact hrest.1 hfails
  rename_i hfree
  split at hcode
  · rename_i hfails
    cases hcode
    exact hrest.2 hfails hfree
  · exact nomatch hcode

/-- The order in its slot, the parked list and the car's list, counted, with its due mark (R135, R139). -/
def State.placed (s : State) (o : OrderHandle) (h : CarHandle) (c : Car) (new : Order) : State := { s with
  orders := put s.orders o (some new)
  placement := min 4294967295 (s.placement + 1)
  parked := s.parked ++ [o]
  entries := put s.entries h { s.entry h with car := some { c with orders := c.orders ++ [o] } }
  tallies := put s.tallies (Tally.kitchen .placed).index (min 65535 (s.tally (.kitchen .placed) + 1)) }

theorem placeDueCheck_eq (s : State) {o : OrderHandle} {h : CarHandle} {c : Car} (hc : s.car h = some c) (mode : ReleaseMode)
    (lines : List OrderLine) :
    let new := newOrder h c.field mode (min 4294967295 (s.placement + 1)) lines
    let due := (s.program c.field).isDue mode
    let placed := s.placed o h c { new with due := due }
    (s.parkOrder o h c.field mode lines).placeDueCheck o c.field mode = if due then placed.releasePass else placed := by
  intro new due placed
  have hpark : s.parkOrder o h c.field mode lines = s.placed o h c new := by
    refine (congrArg (fun t : State => t.count (.kitchen .placed)) (modCar_eq (c := c) ?_ _)).trans ?_
    · exact hc
    · rfl
  rw [hpark]
  unfold State.placeDueCheck
  have hmarked : (s.placed o h c new).modOrder o (fun ord => { ord with due := true }) = s.placed o h c { new with due := true } := by
    have horder : (s.placed o h c new).order o = some new := look_put_self _ _ _
    unfold State.modOrder
    rw [horder]
    exact congrArg (fun v : Vector (Option Order) 256 => ({ s.placed o h c new with orders := v } : State)) (put_put _ _ _ _)
  by_cases hdue : due = true
  · rw [if_pos (by exact hdue), if_pos hdue, hmarked]
    unfold placed
    rw [hdue]
  · rw [if_neg (by exact hdue), if_neg hdue]
    unfold placed
    rw [Bool.eq_false_iff.mpr hdue]
    rfl

theorem workPlaceOrder_accepted (s : State) {o : OrderHandle} {h : CarHandle} {c : Car} {mode : ReleaseMode}
    {lines : List OrderLine} (hc : s.car h = some c) (hpresent : c.state = .present) (hheld : c.held = false)
    (hfield : (s.program c.field).state ≠ .ended) (hroom : c.orders.length < 4) (hfree : s.order o = none)
    (hbelow : ∀ z, z < o → s.order z ≠ none) (hsome : 1 ≤ lines.length) (hfew : lines.length ≤ 6)
    (hlines : ∀ l ∈ lines, 1 ≤ l.quantity ∧ l.quantity ≤ 9 ∧ l.state = .waiting) :
    let due := (s.program c.field).isDue mode
    let placed := s.placed o h c { newOrder h c.field mode (min 4294967295 (s.placement + 1)) lines with due := due }
    let t := if due then placed.releasePass else placed
    workPlaceOrder h (releaseModeCode mode) lines.length (lines.map fun l => ⟨l.item, l.quantity, l.station⟩) s =
      t.ok [o.val, t.stageAfter o, flag due] := by
  intro due placed t
  have hlowest : s.freeOrder = some o := lowest_eq_some_iff.mpr
    ⟨Option.isNone_iff_eq_none.mpr hfree, fun z hz => Option.isNone_eq_false_iff.mpr (Option.isSome_iff_ne_none.mpr (hbelow z hz))⟩
  have hrequest : placeRequest? h (releaseModeCode mode) lines.length (lines.map fun l => ⟨l.item, l.quantity, l.station⟩) =
      some (h, mode) := placeRequest_eq_some (releaseModeOf_releaseModeCode mode) hsome hfew (List.length_map _).symm
  refine (((workPlaceOrder_of_car s hrequest hc).2 o hlowest).2 lines (linesOf_map hlines)).trans ?_
  rw [placeDueCheck_eq s hc mode lines]
  refine s.checked_of_none ((firstFailure_eq_none _).mpr ?_) _
  simp [State.placeChecks, hpresent, hheld, hfield, hroom]

/-- Settles O51: the release pass as a walk; the refusals in their order; the order placed, and the pass it starts. -/
theorem placeOrderParksOrReleases : Obligations.PlaceOrderParksOrReleases := by
  refine ⟨fun s => ⟨fun hhold => if_pos hhold, fun hhold hnodup hlive => ?_⟩, fun s car mode count lines hp => ?_,
    fun s h c mode o lines hp => ?_⟩
  · intro linesOf isDue backlog fits full t
    obtain ⟨walked, left, released, hparked, hwalk, hoff, hon⟩ :=
      releaseWalk_walk hnodup hlive (rest := s.parked) (Walk.start hhold) hhold rfl
    have ht : t = releaseWalk s.parked s := if_neg (Bool.eq_false_iff.mp hhold)
    rw [← ht] at hwalk hoff hon
    exact ⟨walked, left, released, hparked, hwalk.each, hwalk.sub, hwalk.full, hoff, hon, hwalk.parked, hwalk.station,
      hwalk.queued, hwalk.others, hwalk.deferrals, hwalk.tallies, hwalk.frame⟩
  · intro i
    refine ⟨fun h => ?_, ?_⟩
    · refine denied_of_records rfl hp fun port attention => show workPlaceOrder _ _ _ _ _ = _ from ?_
      unfold workPlaceOrder
      rw [placeRequest_eq_none h]
    · rintro h rfl hmode hlow hhigh hcount
      obtain ⟨m, hm⟩ := Option.ne_none_iff_exists'.mp (mt releaseModeOf_eq_none_iff.mp (not_lt.mpr hmode))
      have hrequest := placeRequest_eq_some (h := h) hm hlow hhigh hcount
      refine ⟨fun hc => ?_, fun c hc code hcode => ?_⟩
      · exact denied_of_records rfl hp fun port attention => workPlaceOrder_vacant (s.facing port attention) hrequest hc
      · exact denied_of_records rfl hp fun port attention =>
          workPlaceOrder_refused (s.facing port attention) hrequest hc hcode
  · intro i hc hpresent hheld hfield hroom hfree hbelow hsome hfew hlines isDue serial new placed
    obtain ⟨port, attention, hat⟩ := s.atWork_shape i
    let c0 := s.atWork i
    have hexec : exec i s = .next ((if isDue = true then placed.releasePass else placed).answered .ok
        [o.val, (if isDue = true then placed.releasePass else placed).stageAfter o, if isDue = true then 1 else 0]) := by
      refine exec_of_work_eq_ok rfl hp ?_
      have hwork := workPlaceOrder_accepted (s.facing port attention) (mode := mode) hc hpresent hheld hfield hroom hfree hbelow
        hsome hfew hlines
      unfold placed
      rw [hat]
      exact hwork
    have horder : placed.order o = some (new isDue) := look_put_self _ _ _
    refine ⟨fun hdue => ?_, fun hdue hhold => ?_, fun hdue => ?_, fun hdue hhold hnew hothers hroom' => ?_⟩
    · rw [hexec, if_neg (by rw [hdue]; exact Bool.false_ne_true), if_neg (by rw [hdue]; exact Bool.false_ne_true), stageAfter_of_order horder]
      rfl
    · have hpass : placed.releasePass = placed := if_pos (by
        unfold placed
        rw [hat]
        exact hhold)
      rw [hexec, if_pos hdue, if_pos hdue, hpass, stageAfter_of_order horder]
      rfl
    · obtain ⟨ord, hord, hstage⟩ := unprepared_releasePass (s := placed) ⟨_, horder, .inl rfl⟩
      refine ⟨ord, hord, hstage, ?_⟩
      rw [hexec, if_pos hdue, if_pos hdue, stageAfter_of_order hord]
    · intro queue full
      let queuedOrder : Order := { new false with stage := .queued, timer := some (s.prepLimit * 60000) }
      let u : State := { placed with
        orders := put s.orders o (some queuedOrder)
        parked := s.parked
        stations := Vector.ofFn fun n => { s.station n with queue := queue n } }
      have hps : placed = { s with
          orders := placed.orders, placement := placed.placement, parked := placed.parked, entries := placed.entries
          tallies := placed.tallies, attention := placed.attention, port := placed.port } := by
        unfold placed
        rw [hat]
      have hpstation (n : StationNo) : placed.station n = s.station n := (congrArg (fun t : State => t.station n) hps :)
      have hphold : placed.hold = false := (congrArg State.hold hps :).trans hhold
      have hu : placed.release o (new isDue) = u := by
        rw [State.release_eq]
        have horders : put placed.orders o (some { new isDue with
            stage := .queued, due := false, timer := some (placed.prepLimit * 60000) }) = put s.orders o (some queuedOrder) := by
          rw [show placed.prepLimit = s.prepLimit from (congrArg State.prepLimit hps :)]
          exact put_put _ _ _ _
        have hparked : placed.parked.erase o = s.parked := by
          rw [show placed.parked = s.parked ++ [o] from rfl, List.erase_append_right _ hnew]
          simp
        rw [horders, hparked]
        simp only [hpstation]
        rfl
      have hpass : placed.releasePass = u.evaluateHold := by
        have hfits : placed.fitsQueues (new isDue) = true := by
          rw [State.fitsQueues_iff]
          intro n
          rw [State.backlog, hpstation]
          exact hroom' n
        have hundue (z : OrderHandle) (hz : z ∈ s.parked) (ord : Order) (hord : placed.order z = some ord) : ord.due = false :=
          hothers z hz ord ((look_put_ne _ _ fun e : o = z => hnew (e ▸ hz)).symm.trans hord)
        have hrun : placed.releasePass = releaseWalk (s.parked ++ [o]) placed := if_neg (Bool.eq_false_iff.mp hphold)
        rw [hrun, releaseWalk_undue hundue, releaseWalk_last horder hdue hfits, hu]
      have hfull : (if ∃ n, (u.station n).xoff ≤ (u.station n).queue.length then true
          else if ∀ n, (u.station n).queue.length ≤ (u.station n).xon then false else u.hold) = full := by
        have hustation (n : StationNo) : u.station n = { s.station n with queue := queue n } := look_ofFn _ n
        have huhold : u.hold = false := hphold
        simp only [hustation, huhold, ite_self]
        unfold full
        split
        · exact (decide_eq_true ‹_›).symm
        · exact (decide_eq_false ‹_›).symm
      have huorder : u.evaluateHold.order o = some queuedOrder :=
        (congrArg (look · o) (show u.evaluateHold.orders = u.orders by simp)).trans (look_put_self _ _ _)
      rw [hexec, if_pos hdue, if_pos hdue, hpass, stageAfter_of_order huorder]
      have hheldEq := u.evaluateHold_eq
      dsimp only at hheldEq
      rw [hfull] at hheldEq
      rw [hheldEq, show u.hold = false from hphold]
      rcases Bool.eq_false_or_eq_true full with h | h <;> rw [h] <;> rfl

end Sys2Proof.Machine
end

section
/-! PROOF. The order book does not see the records aside from it: field units, entries, lanes, sets, the tallies that
are not the kitchen's, and the causes. What it makes of orders whose car is gone stands over any change of those. -/

namespace Sys2Proof.Machine

/-! ### Records aside from the order book -/

/-- Records that the order book does not read, and causes that are raised aside from it. -/
structure Aside where
  fieldUnits : Vector FieldUnit 4
  entries : Vector Entry 1024
  lanes : Vector Lane 6
  sets : Vector SetSlot 128
  bank : Vector Nat 64
  causes : BitVec 10

/-- The kitchen's tallies of one bank with the others of a second (R61). -/
def laid (kitchen rest : Vector Nat 64) : Vector Nat 64 :=
  Vector.ofFn fun i => if 52 ≤ i.val ∧ i.val < 59 then look kitchen i else look rest i

/-- The attention with more causes raised. -/
def Attention.plus (a : Attention) (causes : BitVec 10) : Attention := { a with causes := a.causes ||| causes }

/-- A state with other records aside from the order book. -/
def State.aside (s : State) (d : Aside) : State :=
  { s with
    fieldUnits := d.fieldUnits, entries := d.entries, lanes := d.lanes, sets := d.sets
    tallies := laid s.tallies d.bank
    attention := s.attention.plus d.causes }

theorem or_plus (a b c : BitVec 10) : a ||| b ||| c = a ||| c ||| b := by
  rw [BitVec.or_assoc, BitVec.or_comm b c, ← BitVec.or_assoc]

theorem plus_withCause (a : Attention) (causes : BitVec 10) (c : Cause) :
    (a.plus causes).withCause c = (a.withCause c).plus causes :=
  congrArg (fun b : BitVec 10 => ({ a with causes := b } : Attention)) (or_plus _ _ _)

theorem kitchen_index (k : Tally) : (∃ j, k = .kitchen j) ↔ 52 ≤ k.index.val ∧ k.index.val < 59 := by
  cases k with
  | field f k => simp only [Tally.index, reduceCtorEq, exists_false, false_iff]; omega
  | lane l k => simp only [Tally.index, reduceCtorEq, exists_false, false_iff]; omega
  | unidentifiedExits x => simp only [Tally.index, reduceCtorEq, exists_false, false_iff]; omega
  | kitchen k => simp only [Tally.index, Tally.kitchen.injEq, exists_eq', true_iff]; omega
  | sets k => simp only [Tally.index, reduceCtorEq, exists_false, false_iff]; omega

theorem look_laid (v w : Vector Nat 64) (i : Fin 64) :
    look (laid v w) i = if 52 ≤ i.val ∧ i.val < 59 then look v i else look w i := look_ofFn _ i

theorem laid_self (v : Vector Nat 64) : laid v v = v := table_ext fun i => by rw [look_laid, ite_self]

theorem laid_laid (u v w : Vector Nat 64) : laid (laid u v) w = laid u w := table_ext fun i => by
  rw [look_laid, look_laid, look_laid]
  split <;> rfl

theorem laid_put_kitchen (v w : Vector Nat 64) (j : KitchenTally) (x : Nat) :
    laid (put v (Tally.kitchen j).index x) w = put (laid v w) (Tally.kitchen j).index x := table_ext fun i => by
  by_cases hi : (Tally.kitchen j).index = i
  · subst hi
    rw [look_laid, if_pos ((kitchen_index _).mp ⟨j, rfl⟩), look_put_self, look_put_self]
  · rw [look_laid, look_put_ne _ _ hi, look_put_ne _ _ hi, look_laid]

theorem laid_put {k : Tally} (hk : ∀ j, k ≠ .kitchen j) (v w : Vector Nat 64) (x : Nat) :
    laid v (put w k.index x) = put (laid v w) k.index x := table_ext fun i => by
  by_cases hi : k.index = i
  · subst hi
    rw [look_laid, if_neg fun h => ?_, look_put_self, look_put_self]
    obtain ⟨j, hj⟩ := (kitchen_index k).mpr h
    exact hk j hj
  · rw [look_laid, look_put_ne _ _ hi, look_put_ne _ _ hi, look_laid]

theorem aside_tally_kitchen (s : State) (d : Aside) (j : KitchenTally) : (s.aside d).tally (.kitchen j) = s.tally (.kitchen j) :=
  (look_laid _ _ _).trans (if_pos ((kitchen_index _).mp ⟨j, rfl⟩))

theorem aside_tally {k : Tally} (hk : ∀ j, k ≠ .kitchen j) (s : State) (d : Aside) : (s.aside d).tally k = look d.bank k.index :=
  (look_laid _ _ _).trans (if_neg fun h => by
    obtain ⟨j, hj⟩ := (kitchen_index k).mpr h
    exact hk j hj)

/-- A change of state that neither reads nor writes the records aside from the order book. -/
def Blind (F : State → State) : Prop := ∀ s d, F (s.aside d) = (F s).aside d

namespace Blind
variable {F G : State → State}

theorem comp (hF : Blind F) (hG : Blind G) : Blind fun s => G (F s) := fun s d =>
  (congrArg G (hF s d)).trans (hG (F s) d)

/-- A choice by what is not aside. -/
theorem choice (b : State → Bool) (hb : ∀ s d, b (s.aside d) = b s) (hF : Blind F) (hG : Blind G) :
    Blind fun s => if b s = true then F s else G s := by
  intro s d
  dsimp only
  rw [hb]
  split
  · exact hF s d
  · exact hG s d

theorem id : Blind fun s => s := fun _ _ => rfl

/-- A walk of blind changes. -/
theorem forEach {α : Type} (xs : List α) {g : α → State → State} (hg : ∀ x, Blind (g x)) : Blind fun s => s.forEach xs g := by
  induction xs with
  | nil => exact id
  | cons x rest ih => exact (hg x).comp ih

end Blind

/-! ### Causes, tallies, HOLD and release passes -/

theorem blind_count (j : KitchenTally) (n : Nat) : Blind fun s => s.count (.kitchen j) n := by
  intro s d
  refine congrArg (fun v : Vector Nat 64 => ({ s.aside d with tallies := v } : State)) ?_
  rw [aside_tally_kitchen]
  exact (laid_put_kitchen _ _ j _).symm

theorem blind_raise (c : Cause) : Blind fun s => s.raise c := fun s d =>
  congrArg (fun a : Attention => ({ s.aside d with attention := a } : State)) (plus_withCause s.attention d.causes c)

theorem blind_raiseOrder (o : OrderHandle) (k : NoteKind) : Blind fun s => s.raiseOrder o k := by
  intro s d
  simp only [State.raiseOrder_eq]
  exact congrArg (fun b : BitVec 10 => ({ s.aside d with
    attention := { s.attention with
      causes := b
      notes := if s.attention.notes.length < 8 then s.attention.notes ++ [(o, k)] else s.attention.notes
      overflow := if s.attention.notes.length < 8 then s.attention.overflow else true } } : State))
    (or_plus s.attention.causes d.causes 0x40#10)

theorem blind_raiseTrip (k : TripHandle) : Blind fun s => s.raiseTrip k := fun s d =>
  congrArg (fun a : Attention => ({ s.aside d with
    attention := { a with dispatched := setFlag s.attention.dispatched k.val } } : State)) (plus_withCause s.attention d.causes .trip)

theorem blind_raiseSegment (f : FieldNo) : Blind fun s => s.raiseSegment f := fun s d =>
  congrArg (fun a : Attention => ({ s.aside d with
    attention := { a with segment := setFlag s.attention.segment f.val } } : State)) (plus_withCause s.attention d.causes .segment)

theorem blind_setOrder (o : OrderHandle) (x : Option Order) : Blind fun s => s.setOrder o x := fun _ _ => rfl

theorem blind_modOrder (o : OrderHandle) (g : Order → Order) : Blind fun s => s.modOrder o g := fun _ _ => rfl

theorem blind_setTrip (k : TripHandle) (x : State → Trip) (hx : ∀ s d, x (s.aside d) = x s) :
    Blind fun s => s.setTrip k (x s) := fun s d => congrArg (fun y => (s.aside d).setTrip k y) (hx s d)

theorem blind_evaluateHold : Blind State.evaluateHold := by
  intro s d
  let hold := if s.anyAtXoff then true else if s.allAtXon then false else s.hold
  show (if (hold == s.hold) = true then s.aside d else ({ s.aside d with hold := hold } : State).raise .kitchen) =
    (if (hold == s.hold) = true then s else ({ s with hold := hold } : State).raise .kitchen).aside d
  split
  · rfl
  · exact blind_raise .kitchen { s with hold := hold } d

theorem blind_markDue (which : Order → Bool) : Blind fun s => s.markDue which := by
  intro s d
  refine Blind.forEach s.parked (fun o => ?_) s d
  intro t e
  dsimp only
  rw [show (t.aside e).order o = t.order o from rfl]
  cases t.order o with
  | none => rfl
  | some ord =>
    dsimp only
    rw [show (t.aside e).fallsDue ord = t.fallsDue ord from rfl]
    split <;> rfl

theorem blind_release (o : OrderHandle) (ord : Order) : Blind fun s => s.release o ord := by
  intro s d
  simp only [State.release_eq]
  rfl

theorem blind_releaseWalk (os : List OrderHandle) : Blind (releaseWalk os) := by
  induction os with
  | nil => exact Blind.id
  | cons o rest ih =>
    intro s d
    unfold releaseWalk
    rw [show (s.aside d).order o = s.order o from rfl]
    cases s.order o with
    | none => exact ih s d
    | some ord =>
      dsimp only
      rw [show (s.aside d).fitsQueues ord = s.fitsQueues ord from rfl]
      split
      · exact ih s d
      split
      · exact ((blind_count .stationDeferrals 1).comp ih) s d
      have hreleased := ((blind_release o ord).comp blind_evaluateHold) s d
      dsimp only at hreleased
      rw [hreleased, show ∀ t : State, (t.aside d).hold = t.hold from fun _ => rfl]
      split
      · rfl
      · exact ih _ d

theorem blind_releasePass : Blind State.releasePass :=
  Blind.choice State.hold (fun _ _ => rfl) Blind.id fun s d => blind_releaseWalk s.parked s d

theorem blind_evaluateHoldAndDue : Blind State.evaluateHoldAndDue := by
  intro s d
  unfold State.evaluateHoldAndDue
  dsimp only
  rw [blind_evaluateHold s d]
  rw [show ((s.aside d).hold && !((s.evaluateHold).aside d).hold) = (s.hold && !s.evaluateHold.hold) from rfl]
  split
  · exact blind_markDue _ _ d
  · rfl

theorem blind_afterFall : Blind State.afterFall := blind_evaluateHoldAndDue.comp blind_releasePass

theorem blind_withdrawLines (gone : OrderHandle × Nat → Bool) : Blind fun s => s.withdrawLines gone := by
  intro s d
  simp only [State.withdrawLines_eq]
  rfl

/-! ### Trips -/

theorem blind_dispatch (k : TripHandle) : Blind fun s => s.dispatch k := by
  intro s d
  have hwalk : Blind fun t => (t.forEach (s.trip k).orders fun o acc =>
      acc.modOrder o fun ord => { ord with stage := .onTrip }).raiseTrip k :=
    (Blind.forEach _ fun o => blind_modOrder o _).comp (blind_raiseTrip k)
  exact hwalk (s.setTrip k { s.trip k with state := .out, timer := none }) d

theorem blind_closeTrip (k : TripHandle) : Blind fun s => s.closeTrip k := by
  intro s d
  dsimp only
  unfold State.closeTrip
  rw [show (s.aside d).trip k = s.trip k from rfl]
  cases (s.trip k).field with
  | none => rfl
  | some f =>
    dsimp only
    rw [show (s.aside d).program f = s.program f from rfl]
    split
    · exact blind_dispatch k s d
    · rfl

theorem blind_joinTrip (k : TripHandle) (os : List OrderHandle) : Blind fun s => s.joinTrip k os := by
  intro s d
  have hmarked : Blind fun t => t.forEach os fun o acc => acc.modOrder o fun ord => { ord with trip := some k } :=
    Blind.forEach _ fun o => blind_modOrder o _
  dsimp only
  unfold State.joinTrip
  dsimp only
  rw [show (s.aside d).trip k = s.trip k from rfl]
  split
  · exact (hmarked.comp (blind_closeTrip k)) (s.setTrip k _) d
  · exact hmarked (s.setTrip k _) d

theorem blind_formTrip (k : TripHandle) (f : FieldNo) (os : List OrderHandle) : Blind fun s => s.formTrip k f os := fun s d =>
  blind_joinTrip k os (s.setTrip k { state := .gathering, field := some f, orders := [], timer := none }) d

theorem blind_placeReady (o : OrderHandle) (f : FieldNo) : Blind fun s => s.placeReady o f := by
  intro s d
  dsimp only
  unfold State.placeReady
  have hjoins : (lowest fun k => ((s.aside d).trip k).takesJoins && ((s.aside d).trip k).field == some f) =
    lowest fun k => (s.trip k).takesJoins && (s.trip k).field == some f := rfl
  have hidle : (lowest fun k => ((s.aside d).trip k).state == .idle) = lowest fun k => (s.trip k).state == .idle := rfl
  rw [hjoins, hidle]
  split
  · exact blind_joinTrip _ [o] s d
  split
  · exact blind_formTrip _ f [o] s d
  · rfl

theorem blind_reformTrip (k : TripHandle) : Blind fun s => s.reformTrip k := by
  intro s d
  dsimp only
  unfold State.reformTrip
  rw [show (s.aside d).readyList = s.readyList from rfl]
  cases s.readyList with
  | nil => rfl
  | cons first rest =>
    dsimp only
    rw [show (s.aside d).order first = s.order first from rfl]
    cases s.order first with
    | none => rfl
    | some ord => exact blind_formTrip k ord.field _ (s.withoutReady _) d

theorem blind_refillTrip (k : TripHandle) : Blind fun s => s.refillTrip k := by
  intro s d
  dsimp only
  unfold State.refillTrip
  rw [show (s.aside d).trip k = s.trip k from rfl]
  cases (s.trip k).field with
  | none => rfl
  | some f => exact blind_joinTrip k _ (s.withoutReady _) d

theorem blind_leaveTrip (k : TripHandle) (o : OrderHandle) : Blind fun s => s.leaveTrip k o := by
  intro s d
  dsimp only
  unfold State.leaveTrip
  dsimp only
  rw [show (s.aside d).trip k = s.trip k from rfl]
  split
  · exact blind_reformTrip k (s.setTrip k {}) d
  split
  · exact blind_refillTrip k (s.setTrip k _) d
  · rfl

theorem blind_releaseFieldHold (f : FieldNo) : Blind fun s => s.releaseFieldHold f := by
  intro s d
  dsimp only
  unfold State.releaseFieldHold
  rw [show (s.aside d).program f = s.program f from rfl]
  split
  · exact Blind.forEach _ (fun k => Blind.choice (fun t => (t.trip k).state == .fieldHold && (t.trip k).field == some f)
      (fun _ _ => rfl) (blind_dispatch k) Blind.id) s d
  · rfl

/-! ### Orders whose car is gone -/

section
variable {s : State} {d : Aside} {o : OrderHandle}

theorem retireOrder_aside (hcar : ∀ ord, s.order o = some ord → ord.car = none) :
    (s.aside d).retireOrder o = (s.retireOrder o).aside d := by
  unfold State.retireOrder
  rw [show (s.aside d).order o = s.order o from rfl]
  cases hord : s.order o with
  | none => rfl
  | some ord =>
    dsimp only
    rw [hcar ord hord, show ((s.aside d).anyLine fun l => l.1 == o) = s.anyLine fun l => l.1 == o from rfl]
    have hfreed : ∀ F : State → State, Blind F → Blind fun t =>
        ((F (t.withdrawLines fun l => l.1 == o)).unlistOrder o none).setOrder o none := fun F hF =>
      ((blind_withdrawLines fun l => l.1 == o).comp hF).comp (blind_setOrder o none)
    let unlisted := { s with parked := s.parked.erase o, readyList := s.readyList.erase o }
    cases ord.trip with
    | none =>
      split
      · exact ((hfreed _ Blind.id).comp blind_afterFall) unlisted d
      · exact hfreed _ Blind.id unlisted d
    | some k =>
      split
      · exact ((hfreed _ (blind_leaveTrip k o)).comp blind_afterFall) unlisted d
      · exact hfreed _ (blind_leaveTrip k o) unlisted d

theorem settleCancel_aside {ord : Order} (hord : s.order o = some ord) (hcar : ord.car = none) :
    (s.aside d).settleCancel o ord = (s.settleCancel o ord).aside d := by
  have hpaid := (((blind_count .cancelled 1).comp (blind_count .wasteLines ord.waste)).comp
    (blind_raiseOrder o .cancelSettled)) s d
  dsimp only at hpaid
  unfold State.settleCancel
  rw [hcar]
  show State.retireOrder (State.raiseOrder _ o .cancelSettled) o = _
  rw [hpaid]
  refine retireOrder_aside fun x hx => ?_
  have horder : ((((s.count (.kitchen .cancelled)).count (.kitchen .wasteLines) ord.waste).raiseOrder o .cancelSettled)).order o
    = s.order o := by simp
  obtain rfl := Option.some.inj (hord.symm.trans (horder.symm.trans hx))
  exact hcar

theorem finishOrder_aside (hcar : ∀ ord, s.order o = some ord → ord.car = none) :
    (s.aside d).finishOrder o = (s.finishOrder o).aside d := by
  unfold State.finishOrder
  rw [show (s.aside d).order o = s.order o from rfl]
  cases hord : s.order o with
  | none => rfl
  | some ord =>
    dsimp only
    split
    · exact settleCancel_aside hord (hcar ord hord)
    · exact blind_placeReady o ord.field (s.setOrder o _) d

theorem cancelPreparing_aside {ord : Order} (hcar : ord.car = none) :
    (s.aside d).cancelPreparing o ord = (s.cancelPreparing o ord).aside d := by
  let waits (l : OrderHandle × Nat) : Bool := l.1 == o && ord.lineState l.2 == some .waiting
  let marked := (s.withdrawLines waits).setOrder o (some { ord with cancelPending := true, timer := none })
  have hmarked : ((s.aside d).withdrawLines waits).setOrder o (some { ord with cancelPending := true, timer := none }) =
    marked.aside d := ((blind_withdrawLines waits).comp (blind_setOrder o _)) s d
  have hfinish : (marked.aside d).finishOrder o = (marked.finishOrder o).aside d := by
    refine finishOrder_aside fun x hx => ?_
    have horder : marked.order o = some { ord with cancelPending := true, timer := none } := by simp [marked]
    obtain rfl := Option.some.inj (horder.symm.trans hx)
    exact hcar
  unfold State.cancelPreparing
  dsimp only
  rw [hmarked, hfinish, show ((s.aside d).anyLine waits) = s.anyLine waits from rfl,
    show (marked.aside d).inQueues o = marked.inQueues o from rfl]
  split <;> split
  · exact blind_afterFall _ d
  · exact blind_afterFall _ d
  · rfl
  · rfl

theorem cancelAtStage_aside {ord : Order} (hord : s.order o = some ord) (hcar : ord.car = none) :
    (s.aside d).cancelAtStage o ord = (s.cancelAtStage o ord).aside d := by
  have hretired : ∀ F : State → State, Blind F → (F s).order o = s.order o →
      ((F (s.aside d)).touchCar ord.car).retireOrder o = (((F s).touchCar ord.car).retireOrder o).aside d := by
    intro F hF horder
    rw [hcar, hF s d]
    refine retireOrder_aside fun x hx => ?_
    obtain rfl := Option.some.inj (hord.symm.trans (horder.symm.trans hx))
    exact hcar
  unfold State.cancelAtStage
  cases ord.stage with
  | parked => exact hretired _ (blind_count .cancelled 1) (by simp)
  | queued => exact hretired _ (blind_count .cancelled 1) (by simp)
  | preparing => exact cancelPreparing_aside hcar
  | ready => exact hretired _ ((blind_count .cancelled 1).comp (blind_count .wasteLines ord.quantities)) (by simp)
  | onTrip => rfl

end

theorem blind_orderLosesCar (o : OrderHandle) : Blind fun s => s.orderLosesCar o := by
  intro s d
  dsimp only
  unfold State.orderLosesCar
  rw [show (s.aside d).order o = s.order o from rfl]
  cases s.order o with
  | none => rfl
  | some ord =>
    dsimp only
    split
    · rfl
    · exact cancelAtStage_aside (s := s.setOrder o (some { ord with car := none })) (by simp) rfl

theorem blind_ordersLoseCar (os : List OrderHandle) : Blind fun s => s.ordersLoseCar os :=
  Blind.forEach os blind_orderLosesCar

theorem blind_dueCheckField (f : FieldNo) : Blind fun s => s.dueCheckField f :=
  Blind.choice (fun s => s.someFallsDue fun ord => ord.field == f) (fun _ _ => rfl)
    ((blind_markDue fun ord => ord.field == f).comp blind_releasePass) Blind.id

theorem blind_fieldChange (f : FieldNo) : Blind fun s => s.fieldChange f :=
  ((blind_raiseSegment f).comp (blind_dueCheckField f)).comp (blind_releaseFieldHold f)

end Sys2Proof.Machine
end

section
/-! PROOF. The retirement of a car (R38) as the order book's work and what is written aside from it. -/

namespace Sys2Proof.Machine
variable {s t : State} {h : CarHandle} {c : Car} {cause : RetireCause}

/-! ### Records laid over records -/

theorem aside_aside (s : State) (d e : Aside) : (s.aside d).aside e = s.aside { e with causes := d.causes ||| e.causes } := by
  have hcauses : s.attention.causes ||| d.causes ||| e.causes = s.attention.causes ||| (d.causes ||| e.causes) :=
    BitVec.or_assoc _ _ _
  exact (congrArg (fun v : Vector Nat 64 => ({ s.aside e with
      tallies := v, attention := (s.attention.plus d.causes).plus e.causes } : State)) (laid_laid _ _ _)).trans
    (congrArg (fun b : BitVec 10 => ({ s.aside e with attention := { s.attention with causes := b } } : State)) hcauses)

/-- The records of a state that the order book does not see. -/
def State.besides (s : State) : Aside :=
  { fieldUnits := s.fieldUnits, entries := s.entries, lanes := s.lanes, sets := s.sets, bank := s.tallies, causes := 0#10 }

theorem plus_zero (a : Attention) : a.plus 0#10 = a :=
  congrArg (fun b : BitVec 10 => ({ a with causes := b } : Attention)) BitVec.or_zero

/-- A state that differs in those records alone is the state with them laid over it. -/
theorem eq_aside (ht : t = { s with
      fieldUnits := t.fieldUnits, entries := t.entries, lanes := t.lanes, sets := t.sets, tallies := t.tallies })
    (hkitchen : laid s.tallies t.tallies = t.tallies) : t = s.aside t.besides :=
  ht.trans (congrArg₂ (fun (v : Vector Nat 64) (a : Attention) => ({ s with
      fieldUnits := t.fieldUnits, entries := t.entries, lanes := t.lanes, sets := t.sets
      tallies := v, attention := a } : State)) hkitchen (plus_zero s.attention)).symm

/-- The order book leaves the tallies that are not the kitchen's. -/
theorem ordersLoseCar_tally {k : Tally} (hk : ∀ j, k ≠ .kitchen j) (s : State) (os : List OrderHandle) :
    (s.ordersLoseCar os).tally k = s.tally k := by
  have h := (congrArg (·.ordersLoseCar os) (eq_aside (s := s) (t := s) rfl (laid_self _))).trans
    (blind_ordersLoseCar os s s.besides)
  exact (congrArg (·.tally k) h).trans (aside_tally hk _ _)

theorem aside_touch (s : State) (d : Aside) (h : CarHandle) :
    (s.aside d).touch h = s.aside { d with
      entries := put d.entries h { look d.entries h with touched := true }, causes := d.causes ||| 0x100#10 } :=
  congrArg (fun b : BitVec 10 => ({ s.aside d with
    entries := put d.entries h { look d.entries h with touched := true }
    attention := { s.attention with causes := b } } : State)) (BitVec.or_assoc _ _ _)

theorem aside_count {k : Tally} (hk : ∀ j, k ≠ .kitchen j) (s : State) (d : Aside) (n : Nat) :
    (s.aside d).count k n = s.aside { d with bank := put d.bank k.index (min 65535 (look d.bank k.index + n)) } := by
  refine congrArg (fun v : Vector Nat 64 => ({ s.aside d with tallies := v } : State)) ?_
  rw [aside_tally hk]
  exact (laid_put hk _ _ _).symm

/-! ### The set of a car that is retired -/

theorem setCarSet_frame (s : State) (car : Option CarHandle) (x : Option (SetHandle × SetMark)) :
    s.setCarSet car x = { s with entries := (s.setCarSet car x).entries } := by cases car <;> rfl

theorem setAtRetirement_bank (s : State) (c : Car) : (s.setAtRetirement c).tallies =
    if ∃ n, c.lent = some (n, .lent) then put s.tallies (Tally.sets .lost).index (min 65535 (s.tally (.sets .lost) + 1))
    else s.tallies := by
  unfold State.setAtRetirement
  rcases c.lent with _ | ⟨n, mark⟩
  · exact (if_neg (by simp)).symm
  · cases mark with
    | issuing => rw [if_neg (by simp)]; simp [State.cancelIssue]
    | lent => rw [if_pos ⟨n, rfl⟩]; simp [State.loseSet, State.count, State.tally]

theorem setAtRetirement_frame (s : State) (c : Car) : s.setAtRetirement c = { s with
    entries := (s.setAtRetirement c).entries, sets := (s.setAtRetirement c).sets, tallies := (s.setAtRetirement c).tallies } := by
  have hcar : ∀ (v : Vector SetSlot 128) (car : Option CarHandle), ∃ entries,
      ({ s with sets := v } : State).setCarSet car none = { s with entries := entries, sets := v } :=
    fun v car => ⟨_, setCarSet_frame _ car none⟩
  unfold State.setAtRetirement
  rcases c.lent with _ | ⟨n, mark⟩
  · rfl
  · cases mark with
    | issuing =>
      obtain ⟨entries, he⟩ := hcar (put s.sets n { s.slot n with
        state := s.byCharge (s.slot n).charge, car := none, timer := none }) (s.slot n).car
      dsimp only
      rw [show s.cancelIssue n = _ from he]
    | lent =>
      obtain ⟨entries, he⟩ := hcar (put s.sets n { s.slot n with state := .lost, car := none }) (s.slot n).car
      dsimp only
      rw [show s.loseSet n = _ from congrArg (fun u : State => u.count (.sets .lost)) he]
      rfl

theorem setAtRetirement_aside (s : State) (c : Car) : s.setAtRetirement c = s.aside (s.setAtRetirement c).besides := by
  have hunits : (s.setAtRetirement c).fieldUnits = s.fieldUnits := by simp
  have hlanes : (s.setAtRetirement c).lanes = s.lanes := by simp
  refine eq_aside ?_ ?_
  · rw [hunits, hlanes]
    exact setAtRetirement_frame s c
  · rw [setAtRetirement_bank]
    split
    · rw [laid_put (by simp), laid_self]
    · exact laid_self _

theorem setAtRetirement_touched (s : State) (c : Car) (h : CarHandle) :
    ((s.setAtRetirement c).entry h).touched = (s.entry h).touched := by
  have hsetCar : ∀ (u : State) (car : Option CarHandle), ((u.setCarSet car none).entry h).touched = (u.entry h).touched := by
    intro u car
    cases car with
    | none => rfl
    | some k => exact u.touched_setCar k h _
  unfold State.setAtRetirement
  rcases c.lent with _ | ⟨n, mark⟩
  · rfl
  · cases mark with
    | issuing => exact hsetCar _ _
    | lent => exact hsetCar _ _

/-! ### The retirement -/

/-- The lanes that serve an entry serve none (R38, R58). -/
def State.lanesWithout (s : State) (h : CarHandle) : Vector Lane 6 :=
  Vector.ofFn fun l => if (s.lane l).served = some h then { s.lane l with served := none } else s.lane l

/-- What a retirement writes aside from the order book (R38, R128). -/
def State.retiredAside (s : State) (h : CarHandle) (c : Car) (cause : RetireCause) : Aside where
  fieldUnits := put s.fieldUnits c.field
    (if cause = .forceClose then (s.unit c.field).setStall c.stall none
      else ((s.unit c.field).setStall c.stall none).evaluateSign)
  entries := put (s.setAtRetirement c).entries h
    { car := none, touched := if cause = .retire then (s.entry h).touched else true }
  lanes := s.lanesWithout h
  sets := (s.setAtRetirement c).sets
  bank := (s.setAtRetirement c).tallies
  causes := if cause = .retire then 0#10 else 0x100#10

/-- What is the same over one table of lanes is the same over another. -/
theorem eq_of_kept_lanes {v w : Vector Lane 6} (hkept : ({ t with lanes := v } : State) = { s with lanes := v }) (hlanes : t.lanes = w) :
    t = { s with lanes := w } := by
  subst hlanes
  exact congrArg (fun u : State => { u with lanes := t.lanes }) hkept

theorem lanesLoseCar_eq (s : State) (h : CarHandle) : s.lanesLoseCar h = { s with lanes := s.lanesWithout h } := by
  refine eq_of_kept_lanes (v := s.lanes) ?_ (lanesLoseCar_lanes s h)
  exact State.forEach_keeps (fun t : State => { t with lanes := s.lanes }) s (List.finRange 6)
    (fun l acc => if (acc.lane l).served == some h then acc.setLane l { acc.lane l with served := none } else acc)
    fun l acc => by dsimp only; split <;> rfl

/-- The steps of a retirement behind the order book's, on the records aside from it. -/
theorem aside_retired (b : State) (d : Aside) (h : CarHandle) (c : Car) (cause : RetireCause) :
    let freed := ((b.aside d).setStall c.field c.stall none).lanesLoseCar h
    let vacant := freed.setCar h none
    let signed := if cause == .forceClose then vacant else vacant.evaluateSign c.field
    (if cause == .retire then signed else signed.touch h) = b.aside
      { fieldUnits := put d.fieldUnits c.field
          (if cause = .forceClose then (look d.fieldUnits c.field).setStall c.stall none
            else ((look d.fieldUnits c.field).setStall c.stall none).evaluateSign)
        entries := put d.entries h
          { car := none, touched := if cause = .retire then (look d.entries h).touched else true }
        lanes := (b.aside d).lanesWithout h
        sets := d.sets, bank := d.bank
        causes := if cause = .retire then d.causes else d.causes ||| 0x100#10 } := by
  intro freed vacant signed
  let units := put d.fieldUnits c.field ((look d.fieldUnits c.field).setStall c.stall none)
  let vacated : Aside := { d with
    fieldUnits := units, entries := put d.entries h { look d.entries h with car := none }, lanes := (b.aside d).lanesWithout h }
  have hvacant : vacant = b.aside vacated := congrArg (·.setCar h none) (lanesLoseCar_eq _ h)
  have hsigned : signed = b.aside { vacated with
      fieldUnits := put d.fieldUnits c.field
        (if cause = .forceClose then (look d.fieldUnits c.field).setStall c.stall none
          else ((look d.fieldUnits c.field).setStall c.stall none).evaluateSign) } := by
    by_cases hforce : cause = .forceClose
    · rw [if_pos hforce]
      exact (if_pos (by simp [hforce])).trans hvacant
    · rw [if_neg hforce]
      refine (if_neg (by simpa using hforce)).trans ((congrArg (·.evaluateSign c.field) hvacant).trans ?_)
      have hsign : put units c.field (look units c.field).evaluateSign =
          put d.fieldUnits c.field ((look d.fieldUnits c.field).setStall c.stall none).evaluateSign := by
        simp only [units, look_put_self, put_put]
      exact congrArg (fun v : Vector FieldUnit 4 => b.aside { vacated with fieldUnits := v }) hsign
  rw [hsigned]
  by_cases hretire : cause = .retire
  · rw [if_pos hretire, if_pos hretire, if_pos (by simp [hretire])]
  · rw [if_neg hretire, if_neg hretire, if_neg (by simpa using hretire), aside_touch]
    simp only [vacated, look_put_self, put_put]

theorem retireCar_aside (hcar : s.car h = some c) (cause : RetireCause) :
    s.retireCar h cause = (s.ordersLoseCar c.orders).aside (s.retiredAside h c cause) := by
  let x := s.setAtRetirement c
  let d : Aside := { x.besides with
    entries := put x.entries h { x.entry h with car := (x.car h).map fun y => { y with lent := none, orders := [] } } }
  have hbook : x.ordersAtRetirement h c = (s.ordersLoseCar c.orders).aside d := by
    have e : x.modCar h (fun y => { y with lent := none, orders := [] }) = s.aside d :=
      congrArg (fun u : State => { u with entries := d.entries }) (setAtRetirement_aside s c)
    exact (congrArg (fun u : State => u.ordersLoseCar c.orders) e).trans (blind_ordersLoseCar c.orders s d)
  have hunits : d.fieldUnits = s.fieldUnits := show x.fieldUnits = s.fieldUnits by simp [x]
  have hlanes : d.lanes = s.lanes := show x.lanes = s.lanes by simp [x]
  have htouched : (look d.entries h).touched = (s.entry h).touched :=
    (congrArg Entry.touched (look_put_self _ _ _)).trans (setAtRetirement_touched s c h)
  have hentries : ∀ e, put d.entries h e = put x.entries h e := fun e => put_put _ _ _ _
  have hlanes' : ((s.ordersLoseCar c.orders).aside d).lanesWithout h = s.lanesWithout h :=
    congrArg (fun v : Vector Lane 6 => ({ s with lanes := v } : State).lanesWithout h) hlanes
  have hretired := aside_retired (s.ordersLoseCar c.orders) d h c cause
  rw [hunits, htouched, hentries, hlanes', show d.causes = 0#10 from rfl, BitVec.zero_or] at hretired
  unfold State.retireCar
  rw [hcar]
  dsimp only
  rw [hbook]
  exact hretired

/-- The same with other lanes: the order book and the set pool do not see them. -/
theorem retireCar_over (hcar : s.car h = some c) (cause : RetireCause) (v : Vector Lane 6) :
    ({ s with lanes := v } : State).retireCar h cause = (s.ordersLoseCar c.orders).aside { s.retiredAside h c cause with
      lanes := ({ s with lanes := v } : State).lanesWithout h } := by
  let u : State := { s with lanes := v }
  have hset : u.setAtRetirement c = { s.setAtRetirement c with lanes := v } := by
    have hcarSet : ∀ (t : State) (car : Option CarHandle),
        ({ t with lanes := v } : State).setCarSet car none = { t.setCarSet car none with lanes := v } :=
      fun t car => by cases car <;> rfl
    unfold State.setAtRetirement
    rcases c.lent with _ | ⟨n, mark⟩
    · rfl
    · cases mark with
      | issuing => exact hcarSet (s.setSlot n _) _
      | lent => exact congrArg (·.count (.sets .lost)) (hcarSet (s.setSlot n _) _)
  have hu : u = s.aside u.besides := eq_aside rfl (laid_self _)
  have hbook : u.ordersLoseCar c.orders = (s.ordersLoseCar c.orders).aside u.besides :=
    (congrArg (·.ordersLoseCar c.orders) hu).trans (blind_ordersLoseCar c.orders s u.besides)
  have haside : u.retiredAside h c cause = { s.retiredAside h c cause with lanes := u.lanesWithout h } := by
    unfold State.retiredAside
    rw [hset]
    rfl
  refine (retireCar_aside (s := u) hcar cause).trans ?_
  rw [hbook, aside_aside, haside]
  exact congrArg (fun b : BitVec 10 => (s.ordersLoseCar c.orders).aside { s.retiredAside h c cause with
    lanes := u.lanesWithout h, causes := b }) BitVec.zero_or

end Sys2Proof.Machine
end

section
/-! PROOF. What the retirement of a car leaves, record by record: O42. -/

namespace Sys2Proof.Machine
variable {s t : State} {h : CarHandle} {c : Car} {cause : RetireCause}

/-! ### The records that a retirement leaves -/

section
variable (hslot : ∀ n m, c.lent = some (n, m) → (s.slot n).car = some h)
include hslot

theorem setAtRetirement_entry {h' : CarHandle} (hne : h' ≠ h) : (s.setAtRetirement c).entry h' = s.entry h' := by
  have hsetCar : ∀ u : State, (u.setCarSet (some h) none).entry h' = u.entry h' := fun u => look_put_ne _ _ hne.symm
  unfold State.setAtRetirement
  rcases hlent : c.lent with _ | ⟨n, mark⟩
  · rfl
  · have hn := hslot n mark hlent
    cases mark with
    | issuing => exact (congrArg (fun k => (State.setCarSet _ k none).entry h') hn).trans (hsetCar _)
    | lent => exact (congrArg (fun k => ((State.setCarSet _ k none).count (.sets .lost)).entry h') hn).trans (hsetCar _)

theorem carRetired_of (hcause : cause ≠ .forceClose) {lanes : Vector Lane 6} {bank : Vector Nat 64} {causes : BitVec 10}
    (ht : t = (s.ordersLoseCar c.orders).aside { s.retiredAside h c cause with
      lanes := lanes, bank := bank, causes := causes })
    (hbank : look bank (Tally.sets .lost).index = (s.setAtRetirement c).tally (.sets .lost)) : CarRetired s t h c := by
  have hunits : t.fieldUnits = put s.fieldUnits c.field ((s.unit c.field).setStall c.stall none).evaluateSign :=
    (congrArg State.fieldUnits ht :).trans (congrArg (put s.fieldUnits c.field) (if_neg hcause))
  have hentries : t.entries = (s.retiredAside h c cause).entries := (congrArg State.entries ht :)
  have hsets : t.sets = (s.setAtRetirement c).sets := (congrArg State.sets ht :)
  have horders : t.orders = (s.ordersLoseCar c.orders).orders := (congrArg State.orders ht :)
  have hlost : t.tally (.sets .lost) = (s.setAtRetirement c).tally (.sets .lost) :=
    (congrArg (·.tally (.sets .lost)) ht).trans ((aside_tally (by simp) _ _).trans hbank)
  constructor
  case car => exact congrArg Entry.car ((congrArg (look · h) hentries).trans (look_put_self _ _ _))
  case others =>
    intro h' hne
    exact ((congrArg (look · h') hentries).trans (look_put_ne _ _ hne.symm)).trans (setAtRetirement_entry hslot hne)
  case stall => exact (congrArg (look · c.field) hunits).trans (look_put_self _ _ _)
  case units => exact fun f hf => (congrArg (look · f) hunits).trans (look_put_ne _ _ hf.symm)
  case noSet =>
    intro hnone
    rw [hsets, State.setAtRetirement, hnone]
  case lent =>
    intro n hn
    have hlose : s.setAtRetirement c = s.loseSet n := by rw [State.setAtRetirement, hn]
    refine ⟨by rw [hsets, hlose, loseSet_sets], ?_⟩
    rw [hlost, hlose]
    simp [State.loseSet, State.count, State.tally]
  case issuing =>
    intro n hn
    have hcancel : s.setAtRetirement c = s.cancelIssue n := by rw [State.setAtRetirement, hn]
    rw [hsets, hcancel, cancelIssue_sets]
    rfl
  case notLost =>
    intro hno
    rw [hlost, State.tally, setAtRetirement_bank, if_neg fun ⟨n, hn⟩ => hno n hn]
    rfl
  case gone =>
    intro o ho ord hord
    have hcar := (ordersLoseCar_refs s c.orders).1 o
    rw [if_pos ho, State.carOf, State.order, ← horders] at hcar
    exact (congrArg (·.bind Order.car) hord).symm.trans hcar
  case kitchen => exact fun j => (congrArg (·.tally (.kitchen j)) ht).trans (aside_tally_kitchen _ _ j)
  case told =>
    subst ht
    rfl

end

/-- The order book's work at a retirement changes nothing besides its own records and the attention. -/
theorem ordersLoseCar_frame_eq (s : State) (os : List OrderHandle) : s.ordersLoseCar os = { s with
    tallies := (s.ordersLoseCar os).tallies, orders := (s.ordersLoseCar os).orders, parked := (s.ordersLoseCar os).parked
    stations := (s.ordersLoseCar os).stations, hold := (s.ordersLoseCar os).hold, trips := (s.ordersLoseCar os).trips
    readyList := (s.ordersLoseCar os).readyList, attention := (s.ordersLoseCar os).attention } := by
  have h := s.ordersLoseCar_frame os
  have hentries := s.ordersLoseCar_entries os
  revert h hentries
  generalize s.ordersLoseCar os = t
  intro h hentries
  cases t
  cases s
  simp_all

/-! ### An order whose car is retired -/

/-- An order without its car. -/
def Order.carless (ord : Order) : Order := { ord with car := none }

/-- A state in which an order has lost its car. -/
def State.carless (s : State) (o : OrderHandle) (ord : Order) : State := s.setOrder o (some ord.carless)

section
variable {o : OrderHandle} {ord : Order} (ho : s.order o = some ord)
include ho

theorem orderLosesCar_stands (hstage : ord.stage = .onTrip ∨ ord.cancelPending = true) : s.orderLosesCar o = s.carless o ord := by
  unfold State.orderLosesCar
  rw [ho]
  exact if_pos (by simpa using hstage)

theorem orderLosesCar_cancels (hstage : ord.stage ≠ .onTrip) (hcancel : ord.cancelPending = false) :
    s.orderLosesCar o = (s.carless o ord).cancelAtStage o ord.carless := by
  unfold State.orderLosesCar
  rw [ho]
  exact if_neg (by simpa [hcancel] using hstage)

end

theorem order_carless (s : State) (o : OrderHandle) (ord : Order) : (s.carless o ord).order o = some ord.carless :=
  look_put_self _ _ _

theorem cancelAtStage_carless_frame {o : OrderHandle} {ord : Order} (ht : t = (s.carless o ord).cancelAtStage o ord.carless)
    (hentries : t.entries = s.entries) : t = { s with
      tallies := t.tallies, orders := t.orders, parked := t.parked, stations := t.stations, hold := t.hold
      trips := t.trips, readyList := t.readyList, attention := t.attention } := by
  have h := cancelAtStage_frame_eq (s.carless o ord) o ord.carless
  rw [← ht] at h
  rw [hentries] at h
  exact h

theorem Cancelled.carless {b : State} {o : OrderHandle} {ord : Order} {waste : Nat} (h : Cancelled b t o ord.carless waste) :
    t.entries = b.entries := table_ext fun k => h.entries.2 k (by simp [Order.carless])

/-! ### RETIRE ENTRY -/

theorem workRetireEntry_of_car {car force : Nat} (hcar : h.val = car) (hlive : s.car h = some c) : workRetireEntry car force s =
    s.checked [(isFlag force, .badArg)] (s.checked
      [(c.state == .present, .state), (!c.held, .editing), (force == 1 || c.lent.isNone, .setOut)]
      ((s.retireCar h .retire).ok [c.report.orders, c.report.lost + 2 * c.report.issuesCancelled])) := by
  subst hcar
  unfold workRetireEntry
  rw [State.withHandle_fin]
  unfold State.withCar
  rw [hlive]

theorem workRetireEntry_of_vacant {car force : Nat} (hcar : h.val = car) (hvacant : s.car h = none) : workRetireEntry car force s =
    s.checked [(isFlag force, .badArg)] (s.deny .state) := by
  subst hcar
  unfold workRetireEntry
  rw [State.withHandle_fin]
  unfold State.withCar
  rw [hvacant]

section
variable {base : State}

/-- What RETIRE ENTRY leaves of the records aside from the order book's (R37, R38, R40). -/
theorem retireCar_retire (hslot : ∀ n m, c.lent = some (n, m) → (base.slot n).car = some h) (hcar : base.car h = some c)
    (ht : t = base.retireCar h .retire) :
    CarRetired base t h c ∧ t.entry h = { car := none, touched := (base.entry h).touched } ∧
      (∀ l, t.lane l = { base.lane l with served := if (base.lane l).served = some h then none else (base.lane l).served }) ∧
      (∀ k, k ≠ .sets .lost → (∀ j, k ≠ .kitchen j) → t.tally k = base.tally k) ∧
      t.attention = (base.ordersLoseCar c.orders).attention ∧
      t = { base with
        entries := t.entries, fieldUnits := t.fieldUnits, sets := t.sets, lanes := t.lanes, tallies := t.tallies
        orders := t.orders, parked := t.parked, stations := t.stations, hold := t.hold, trips := t.trips
        readyList := t.readyList, attention := t.attention } := by
  replace ht := ht.trans (retireCar_aside hcar .retire)
  refine ⟨carRetired_of hslot (by decide) ht rfl, ?_, fun l => ?_, fun k hk hkitchen => ?_, ?_, ?_⟩
  · exact (congrArg (·.entry h) ht).trans (look_put_self _ _ _)
  · refine ((congrArg (·.lane l) ht).trans (look_ofFn _ l)).trans ?_
    split <;> rfl
  · refine ((congrArg (·.tally k) ht).trans (aside_tally hkitchen _ _)).trans ?_
    show look (base.setAtRetirement c).tallies k.index = _
    rw [setAtRetirement_bank]
    split
    · exact look_put_ne _ _ fun e => hk (Tally.index_injective e).symm
    · rfl
  · exact (congrArg State.attention ht).trans (plus_zero _)
  · have hframe := ordersLoseCar_frame_eq base c.orders
    subst ht
    rw [hframe]
    rfl

end

/-- Settles O42: what each order of the car's list comes to by its stage, and the retirement over it. -/
theorem retireEntryEndsTheCar : Obligations.RetireEntryEndsTheCar := by
  refine ⟨fun s o os => ⟨rfl, rfl⟩, fun s o => ?_, fun s car force hp => ⟨?_, ?_⟩, fun s h c force hp hcar hforce => ?_⟩
  · intro t
    refine ⟨fun hnone => ?_, fun ord ho => ?_⟩
    · show s.orderLosesCar o = s
      rw [State.orderLosesCar, hnone]
    intro without isWaiting onStove cancelled frame
    have hcancels (hcancel : ord.cancelPending = false) {st : Stage} (hst : ord.stage = st) (hne : st ≠ .onTrip) :
        t = (s.carless o ord).cancelAtStage o ord.carless := orderLosesCar_cancels ho (by rwa [hst]) hcancel
    have hcancelled {n : Nat} (ht : t = (s.carless o ord).cancelAtStage o ord.carless)
        (h : Cancelled (s.carless o ord) ((s.carless o ord).cancelAtStage o ord.carless) o ord.carless n) : frame ∧ cancelled n := by
      rw [← ht] at h
      exact ⟨cancelAtStage_carless_frame ht h.carless, h.free, h.queues, h.counted, h.wasted⟩
    refine ⟨orderLosesCar_stands ho, fun hstage hcancel => orderLosesCar_cancels ho hstage hcancel,
      fun hcancel hstage hbound => ?_, fun hcancel hstage hon hparked => ?_, fun hcancel hstage hoff => ?_⟩
    · have ht := hcancels hcancel rfl (by rcases hstage with e | e | e <;> simp [e])
      have hbound : (s.carless o ord).tally (.kitchen .wasteLines) ≤ 65535 := hbound
      obtain ⟨h, hnotes⟩ := cancelAtStage_cancelled (order_carless s o ord) hstage hbound
      obtain ⟨hframe, hgone⟩ := hcancelled ht h
      rw [← ht] at hnotes
      exact ⟨hframe, hgone, hnotes⟩
    · have ht := hcancels hcancel hstage (by decide)
      obtain ⟨hpends, hentries, hqueues, htally, hnotes⟩ :=
        cancelAtStage_pends (s := s.carless o ord) (ord := ord.carless) hstage hon hparked
      rw [← ht] at hpends hentries hqueues htally hnotes
      exact ⟨cancelAtStage_carless_frame ht hentries, hpends, hqueues, htally, hnotes⟩
    · have ht := hcancels hcancel hstage (by decide)
      obtain ⟨h, hnoted, hnotes⟩ := cancelAtStage_settles (s := s.carless o ord) (ord := ord.carless) hstage hoff
      obtain ⟨hframe, hgone⟩ := hcancelled ht h
      rw [← ht] at hnoted hnotes
      exact ⟨hframe, hgone, hnoted, hnotes⟩
  · rintro (h | h)
    · exact denied_of_records rfl hp fun _ _ => State.withHandle_of_ge _ h _
    · refine denied_of_records rfl hp fun port attention => ?_
      by_cases hcar : car < 1024
      · refine (State.withHandle_of_lt _ hcar _).trans (State.checked_fails _ ?_ _ _ _)
        simpa [isFlag] using h
      · exact State.withHandle_of_ge _ (Nat.le_of_not_lt hcar) _
  · intro h hh hvacant hforce
    refine denied_of_records rfl hp fun port attention => ?_
    exact (workRetireEntry_of_vacant (s := s.facing port attention) hh hvacant).trans
      (State.checked_holds _ (by simpa [isFlag] using hforce) _ _ _)
  · intro i
    have hwork (port : Port) (attention : Attention) := workRetireEntry_of_car (s := s.facing port attention) (force := force) rfl hcar
    have hflag : isFlag force = true := by simpa [isFlag] using hforce
    refine ⟨fun hstate => denied_of_records rfl hp fun port attention => (hwork port attention).trans ?_,
      fun hstate hheld => denied_of_records rfl hp fun port attention => (hwork port attention).trans ?_,
      fun hstate hheld hzero hset => denied_of_records rfl hp fun port attention => (hwork port attention).trans ?_,
      fun hstate hheld hout hslot => ⟨(s.atWork i).retireCar h .retire, ?_⟩⟩
    · exact (State.checked_holds _ hflag _ _ _).trans (State.checked_fails _ (by simpa using hstate) _ _ _)
    · exact (State.checked_holds _ hflag _ _ _).trans ((State.checked_holds _ (by simpa using hstate) _ _ _).trans
        (State.checked_fails _ (by simpa using hheld) _ _ _))
    · exact (State.checked_holds _ hflag _ _ _).trans ((State.checked_holds _ (by simpa using hstate) _ _ _).trans
        ((State.checked_holds _ (by simpa using hheld) _ _ _).trans
          (State.checked_fails _ (by simpa [hzero, Option.isSome_iff_ne_none] using hset) _ _ _)))
    · refine ⟨?_, ?_⟩
      · have hexec : exec i s = .next (((s.atWork i).retireCar h .retire).answered .ok
            [c.report.orders, c.report.lost + 2 * c.report.issuesCancelled]) := by
          obtain ⟨port, attention, e⟩ := s.atWork_shape i
          refine exec_of_work_eq_ok rfl hp ?_
          rw [e]
          exact (hwork port attention).trans ((State.checked_holds _ hflag _ _ _).trans
            ((State.checked_holds _ (by simpa using hstate) _ _ _).trans ((State.checked_holds _ (by simpa using hheld) _ _ _).trans
              (State.checked_holds _ (by simpa using hout) _ _ _))))
        refine hexec.trans (congrArg (fun x => Host.Outcome.next (State.answered _ .ok [c.orders.length, x])) ?_)
        unfold Car.report
        rcases c.lent with _ | ⟨n, mark⟩
        · rfl
        · cases mark <;> rfl
      · have hlaws := retireCar_retire (base := s.atWork i) (by simpa using hslot) ((s.car_atWork i h).trans hcar) rfl
        simpa only [State.entry_atWork, State.lane_atWork, State.tally_atWork] using hlaws

end Sys2Proof.Machine
end

section
/-! PROOF. Passes that complete and pass timers that run out: O36 and O37. -/

namespace Sys2Proof.Machine
variable {s t : State} {l : LaneNo} {h : CarHandle} {c : Car}

/-! ### A lane that closes -/

/-- A lane behind its close (R47). -/
def Lane.shut (x : Lane) : Lane :=
  { x with
    state := if x.arrival.level = .occupied then .waiting else .idle
    barrier := false, timer := none, served := none, begun := false }

/-- The cause that a lane raises if it waits after its close (R47, R180). -/
def Lane.waitCause (x : Lane) : BitVec 10 := if x.arrival.level = .occupied then 1#10 else 0#10

theorem closeLane_eq (s : State) (l : LaneNo) : s.closeLane l = { s with
    lanes := put s.lanes l (s.lane l).shut, attention := s.attention.plus (s.lane l).waitCause } := by
  unfold State.closeLane State.laneWaits Lane.shut Lane.waitCause
  simp only [beq_iff_eq]
  by_cases hlevel : (s.lane l).arrival.level = .occupied
  · rw [if_pos hlevel, if_pos hlevel, if_pos hlevel, State.lane_setLane_self]
    exact congrArg (fun v : Vector Lane 6 => ({ s with lanes := v, attention := s.attention.plus 1#10 } : State)) (put_put _ _ _ _)
  · rw [if_neg hlevel, if_neg hlevel, if_neg hlevel, plus_zero]
    rfl

theorem closeLane_self (s : State) (l : LaneNo) : (s.closeLane l).lane l = (s.lane l).shut := by
  rw [closeLane_eq]
  exact look_put_self _ _ _

theorem closeLane_raises (s : State) (l : LaneNo) (hlevel : (s.lane l).arrival.level = .occupied) :
    (s.closeLane l).attention.causes.getLsbD 0 = true := by
  rw [closeLane_eq, Lane.waitCause, if_pos hlevel]
  exact (BitVec.getLsbD_or ..).trans (Bool.or_true _)

theorem aside_closeLane (s : State) (d : Aside) (l : LaneNo) : (s.aside d).closeLane l = s.aside { d with
    lanes := put d.lanes l (look d.lanes l).shut, causes := d.causes ||| (look d.lanes l).waitCause } := by
  rw [closeLane_eq]
  exact congrArg (fun b : BitVec 10 => ({ s.aside d with
    lanes := put d.lanes l (look d.lanes l).shut, attention := { s.attention with causes := b } } : State)) (BitVec.or_assoc _ _ _)

/-! ### A lane that closes behind a car it has lost -/

theorem setAtRetirement_tally {k : Tally} (hk : k ≠ .sets .lost) (s : State) (c : Car) :
    (s.setAtRetirement c).tally k = s.tally k := by
  rw [State.tally, setAtRetirement_bank]
  split
  · exact look_put_ne _ _ fun e => hk (Tally.index_injective e).symm
  · rfl

/-- What the retirement of a lane's car writes aside from the order book: `y` is the lane without the car, `bank` holds the
tallies that are not the kitchen's. -/
def State.lapsed (s : State) (l : LaneNo) (h : CarHandle) (c : Car) (cause : RetireCause) (y : Lane) (bank : State) : Aside :=
  { s.retiredAside h c cause with
    lanes := ({ s with lanes := put s.lanes l y } : State).lanesWithout h, bank := bank.tallies }

/-- What is left once the lane has closed behind it. -/
def State.passed (s : State) (l : LaneNo) (h : CarHandle) (c : Car) (cause : RetireCause) (y : Lane) (bank : State) : State :=
  (s.ordersLoseCar c.orders).aside { s.lapsed l h c cause y bank with
    lanes := put (s.lapsed l h c cause y bank).lanes l y.shut, causes := 0x100#10 ||| y.waitCause }

section
variable {cause : RetireCause} {y : Lane} {bank : State}

theorem retireCar_lapsed (hcar : s.car h = some c) (cause : RetireCause) (l : LaneNo) (y : Lane) :
    (s.setLane l y).retireCar h cause = (s.ordersLoseCar c.orders).aside (s.lapsed l h c cause y (s.setAtRetirement c)) :=
  retireCar_over hcar cause (put s.lanes l y)

theorem lapsed_count {k : Tally} (hk : ∀ j, k ≠ .kitchen j) (b : State) (n : Nat) :
    (b.aside (s.lapsed l h c cause y bank)).count k n = b.aside (s.lapsed l h c cause y (bank.count k n)) := aside_count hk b _ n

theorem lapsed_closeLane (hcause : cause ≠ .retire) (hserved : y.served = none) :
    ((s.ordersLoseCar c.orders).aside (s.lapsed l h c cause y bank)).closeLane l = s.passed l h c cause y bank := by
  have hlane : look (s.lapsed l h c cause y bank).lanes l = y := by
    refine (look_ofFn _ l).trans ?_
    have hy : ({ s with lanes := put s.lanes l y } : State).lane l = y := look_put_self _ _ _
    rw [hy, hserved]
    rfl
  rw [aside_closeLane, hlane]
  exact congrArg (fun b : BitVec 10 => (s.ordersLoseCar c.orders).aside { s.lapsed l h c cause y bank with
    lanes := put (s.lapsed l h c cause y bank).lanes l y.shut, causes := b ||| y.waitCause }) (if_neg hcause)

/-! ### What is left of the car and its lane -/

variable (hcause : cause = .depart ∨ cause = .withdrawn) (ht : t = s.passed l h c cause y bank)
include ht

theorem passed_tally {k : Tally} (hk : ∀ j, k ≠ .kitchen j) : t.tally k = bank.tally k := by
  subst ht
  exact aside_tally hk _ _

theorem passed_attention : t.attention = { (s.ordersLoseCar c.orders).attention with
    causes := (s.ordersLoseCar c.orders).attention.causes ||| 0x100#10 ||| y.waitCause } := by
  subst ht
  exact congrArg (fun b : BitVec 10 => ({ (s.ordersLoseCar c.orders).attention with causes := b } : Attention))
    (BitVec.or_assoc _ _ _).symm

theorem passed_others {l' : LaneNo} (hne : l' ≠ l) :
    t.lane l' = { s.lane l' with served := if (s.lane l').served = some h then none else (s.lane l').served } := by
  subst ht
  have hlane : ({ s with lanes := put s.lanes l y } : State).lane l' = s.lane l' := look_put_ne _ _ hne.symm
  refine ((look_put_ne _ _ hne.symm).trans (look_ofFn _ l')).trans ?_
  rw [hlane]
  split <;> rfl

include hcause

theorem passed_car : t.car h = none ∧ (t.entry h).touched = true ∧ t.attention.causes.getLsbD 8 = true ∧
    (t.unit c.field).at c.stall = none := by
  have hentry : t.entry h = { car := none, touched := true } := by
    subst ht
    refine (look_put_self _ _ _).trans ?_
    rw [if_neg (by rcases hcause with e | e <;> simp [e])]
  have hunit : t.unit c.field = ((s.unit c.field).setStall c.stall none).evaluateSign := by
    subst ht
    refine (look_put_self _ _ _).trans ?_
    rw [if_neg (by rcases hcause with e | e <;> simp [e])]
  refine ⟨congrArg Entry.car hentry, congrArg Entry.touched hentry, ?_, ?_⟩
  · rw [passed_attention ht]
    simp
  · rw [hunit]
    exact look_put_self _ _ _

theorem passed_retired (hslot : ∀ n m, c.lent = some (n, m) → (s.slot n).car = some h)
    (hlost : bank.tally (.sets .lost) = (s.setAtRetirement c).tally (.sets .lost)) : CarRetired s t h c :=
  carRetired_of hslot (by rcases hcause with e | e <;> simp [e]) ht hlost

end

/-! ### Complete passes -/

/-- A lane whose pass loop is CLEAR (R45). -/
def Lane.passClear (x : Lane) : Lane := { x with pass := LoopInput.settled .clear }

theorem commitCar_lanes (s : State) (h : CarHandle) : (s.commitCar h).lanes = s.lanes := by
  unfold State.commitCar
  split <;> rfl

/-- A complete pass leaves the lane as it is, but for the car that it serves. -/
theorem completePass_lane (s : State) (l : LaneNo) : ∃ served, (s.completePass l).lane l = { s.lane l with served := served } := by
  have hself (t : State) (hlanes : t.lanes = s.lanes) : ∃ served, t.lane l = { s.lane l with served := served } :=
    ⟨(s.lane l).served, congrArg (look · l) hlanes⟩
  unfold State.completePass
  split
  · rename_i h hserved
    split
    · exact hself _ (commitCar_lanes s h)
    split
    · exact hself s rfl
    · rename_i c hcar
      refine ⟨none, ?_⟩
      have hlane := retireCar_lane (s := s.setLane l { s.lane l with served := none }) hcar .depart l
      rw [State.lane_setLane_self] at hlane
      exact hlane
  · split
    · exact hself s rfl
    · exact hself _ rfl

theorem completePass_entry (hserved : (s.lane l).served = some h) (hl : l.val < 4) : s.completePass l = s.commitCar h := by
  unfold State.completePass
  rw [hserved]
  exact if_pos (decide_eq_true hl)

theorem completePass_exit (hserved : (s.lane l).served = some h) (hl : 4 ≤ l.val) (hcar : s.car h = some c) :
    s.completePass l =
      ((s.setLane l { s.lane l with served := none }).retireCar h .depart).count (.field c.field .departed) := by
  unfold State.completePass
  rw [hserved]
  dsimp only
  rw [if_neg (by simpa [isEntryLane] using hl), hcar]

theorem completePass_free (hserved : (s.lane l).served = none) : s.completePass l = { s with
    tallies :=
      if h : 4 ≤ l.val then
        put s.tallies (Tally.unidentifiedExits ⟨l.val - 4, by omega⟩).index
          (min 65535 (s.tally (.unidentifiedExits ⟨l.val - 4, by omega⟩) + 1))
      else s.tallies } := by
  unfold State.completePass
  rw [hserved]
  dsimp only
  by_cases hl : 4 ≤ l.val
  · rw [if_neg (by simpa [isEntryLane] using hl), dif_pos hl]
    rfl
  · rw [if_pos (by simpa [isEntryLane] using hl), dif_neg hl]

theorem setLane_setLane (s : State) (l : LaneNo) (x y : Lane) : (s.setLane l x).setLane l y = s.setLane l y :=
  congrArg (fun v : Vector Lane 6 => ({ s with lanes := v } : State)) (put_put _ _ _ _)

theorem passCleared_opened {x : Lane} (hx : s.lane l = x) (hstate : x.state = .opened) (hbegun : x.begun = true)
    (hlevel : x.pass.level = .occupied) : s.passCleared l = ((s.setLane l x.passClear).completePass l).closeLane l := by
  subst hx
  unfold State.passCleared State.setPass
  rw [hlevel, hstate, hbegun]
  rfl

theorem committed_eq (s : State) {h : CarHandle} (hcar : s.car h = some c) : s.commitCar h = { s with
    entries := put s.entries h { car := some { c with state := .present }, touched := true }
    tallies := ((s.count (.field c.field .carsAdmitted)).count (.field c.field .personsAdmitted) c.party).tallies
    attention := s.attention.plus 0x100#10 } := by
  unfold State.commitCar
  rw [hcar]
  have hentries : put (put s.entries h { s.entry h with car := some { c with state := .present } }) h
      { look (put s.entries h { s.entry h with car := some { c with state := .present } }) h with touched := true } =
      put s.entries h { car := some { c with state := .present }, touched := true } := by
    rw [look_put_self, put_put]
  exact congrArg (fun v : Vector Entry 1024 => ({ s with
    entries := v
    tallies := ((s.count (.field c.field .carsAdmitted)).count (.field c.field .personsAdmitted) c.party).tallies
    attention := s.attention.plus 0x100#10 } : State)) hentries

/-- Settles O36: the pass by the lane's kind and the car it serves, and the lane that closes behind it. -/
theorem aPassCompletesAndClosesTheLane : Obligations.APassCompletesAndClosesTheLane := by
  intro s l x hstate hbegun hlevel closed freed raised
  let noted := s.setLane l x.passClear
  obtain ⟨t, ht⟩ : ∃ t, t = (noted.completePass l).closeLane l := ⟨_, rfl⟩
  have hexec : exec (.passCleared l) s = .next t := by
    rw [ht, ← passCleared_opened rfl hstate hbegun hlevel]
    rfl
  have hnoted : noted.lane l = x.passClear := State.lane_setLane_self _ _ _
  have hlanes : put noted.lanes l (noted.lane l).shut = put s.lanes l closed := by
    rw [hnoted]
    exact put_put _ _ _ _
  obtain ⟨served, hbehind⟩ := completePass_lane noted l
  have hbehind : (noted.completePass l).lane l = { x.passClear with served := served } := by
    rw [hbehind, hnoted]
  refine ⟨t, hexec, ?_, fun hwaits => ?_, fun h c hl hserved hcar => ?_, fun h c hl hserved hcar => ?_, fun hserved => ?_⟩
  · rw [ht, closeLane_self, hbehind]
    rfl
  · rw [ht]
    refine closeLane_raises _ l ?_
    rw [hbehind]
    exact hwaits
  · rw [completePass_entry (s := noted) (by rw [hnoted]; exact hserved) hl, committed_eq noted hcar,
      closeLane_eq] at ht
    have ht : t = { s with
        entries := put s.entries h { car := some { c with state := .present }, touched := true }
        lanes := put s.lanes l closed
        tallies := ((s.count (.field c.field .carsAdmitted)).count (.field c.field .personsAdmitted) c.party).tallies
        attention := raised s.attention 0x100#10 } := by
      have hattention : (s.attention.plus 0x100#10).plus (noted.lane l).waitCause = raised s.attention 0x100#10 := by
        rw [hnoted]
        rfl
      exact ht.trans (congrArg₂ (fun (v : Vector Lane 6) (a : Attention) => ({ s with
        entries := put s.entries h { car := some { c with state := .present }, touched := true }
        lanes := v
        tallies := ((s.count (.field c.field .carsAdmitted)).count (.field c.field .personsAdmitted) c.party).tallies
        attention := a } : State)) hlanes hattention)
    have htally (k : Tally) : t.tally k =
        ((s.count (.field c.field .carsAdmitted)).count (.field c.field .personsAdmitted) c.party).tally k := congrArg (·.tally k) ht
    refine ⟨(congrArg (·.entry h) ht).trans (look_put_self _ _ _), ?_, ?_, ?_, fun k hcars hpersons => ?_,
      fun h' hne => (congrArg (·.entry h') ht).trans (look_put_ne _ _ hne.symm), congrArg State.lanes ht,
      congrArg State.attention ht, ?_⟩
    · rw [ht]
      exact (BitVec.getLsbD_or ..).trans (by rw [BitVec.getLsbD_or]; simp)
    · rw [htally, State.tally_count, if_neg (by simp), State.tally_count, if_pos rfl]
    · rw [htally, State.tally_count, if_pos rfl, State.tally_count, if_neg (by simp)]
    · rw [htally, State.tally_count, if_neg hpersons.symm, State.tally_count, if_neg hcars.symm]
    · rw [ht]
  · have ht : t = s.passed l h c .depart { x.passClear with served := none } ((s.setAtRetirement c).count (.field c.field .departed)) := by
      rw [ht, completePass_exit (s := noted) (by rw [hnoted]; exact hserved) hl hcar, hnoted, setLane_setLane, retireCar_lapsed hcar,
        lapsed_count (by simp), lapsed_closeLane (by decide) rfl]
    obtain ⟨hgone, htouched, hcauses, hstall⟩ := passed_car (.inl rfl) ht
    have hraised := passed_attention ht
    have hwait : Lane.waitCause { x.passClear with served := none } = if x.arrival.level = .occupied then 1#10 else 0#10 := rfl
    rw [hwait] at hraised
    refine ⟨hgone, htouched, hcauses, hstall, ?_, fun hslot => ⟨passed_retired (.inl rfl) ht hslot ?_, fun k hk hlost hkitchen => ?_,
      fun l' hne => passed_others ht hne, hraised⟩⟩
    · rw [passed_tally ht (by simp), State.tally_count, if_pos rfl, setAtRetirement_tally (by simp)]
    · rw [State.tally_count, if_neg (by simp)]
    · rw [passed_tally ht hkitchen, State.tally_count, if_neg hk.symm, setAtRetirement_tally hlost]
  · rw [ht, completePass_free (s := noted) (by rw [hnoted]; exact hserved), closeLane_eq]
    have hattention : s.attention.plus (noted.lane l).waitCause = if x.arrival.level = .occupied then
        { s.attention with causes := s.attention.causes ||| 1#10 } else s.attention := by
      rw [hnoted, Lane.waitCause]
      show s.attention.plus (if x.arrival.level = .occupied then 1#10 else 0#10) = _
      split
      · rfl
      · exact plus_zero _
    exact congrArg₂ (fun (v : Vector Lane 6) (a : Attention) => ({ s with
      lanes := v, tallies := _, attention := a } : State)) hlanes hattention

/-! ### Pass timers that run out -/

/-- What a pass timer that runs out behind a car that did not pass does to the car (R52, R56). -/
def State.notPassed (s : State) (l : LaneNo) : State :=
  match (s.lane l).served with
  | none => s
  | some h =>
    match s.car h with
    | none => s
    | some c =>
      if isEntryLane l then
        ((s.setLane l { s.lane l with served := none }).retireCar h .withdrawn).count (.field c.field .withdrawn)
      else (s.setCar h (some { c with state := .present })).touch h

theorem notPassed_free (hserved : (s.lane l).served = none) : s.notPassed l = s := by rw [State.notPassed, hserved]

theorem notPassed_entry (hserved : (s.lane l).served = some h) (hl : l.val < 4) (hcar : s.car h = some c) : s.notPassed l =
    ((s.setLane l { s.lane l with served := none }).retireCar h .withdrawn).count (.field c.field .withdrawn) := by
  rw [State.notPassed, hserved]
  dsimp only
  rw [hcar]
  exact if_pos (decide_eq_true hl)

theorem notPassed_exit (hserved : (s.lane l).served = some h) (hl : 4 ≤ l.val) (hcar : s.car h = some c) : s.notPassed l = { s with
    entries := put s.entries h { car := some { c with state := .present }, touched := true }
    attention := s.attention.plus 0x100#10 } := by
  rw [State.notPassed, hserved]
  dsimp only
  rw [hcar]
  have hentries : put (put s.entries h { s.entry h with car := some { c with state := .present } }) h
      { look (put s.entries h { s.entry h with car := some { c with state := .present } }) h with touched := true } =
      put s.entries h { car := some { c with state := .present }, touched := true } := by
    rw [look_put_self, put_put]
  refine (if_neg (by simpa [isEntryLane] using hl)).trans ?_
  exact congrArg (fun v : Vector Entry 1024 => ({ s with entries := v, attention := s.attention.plus 0x100#10 } : State)) hentries

/-- The lane stands, but for the car that it serves, and so does the count of its no-passes. -/
theorem notPassed_lane (s : State) (l : LaneNo) : (∃ served, (s.notPassed l).lane l = { s.lane l with served := served }) ∧
    (s.notPassed l).tally (.lane l .noPass) = s.tally (.lane l .noPass) := by
  have hself (t : State) (hlanes : t.lanes = s.lanes) (htallies : t.tallies = s.tallies) :
      (∃ served, t.lane l = { s.lane l with served := served }) ∧ t.tally (.lane l .noPass) = s.tally (.lane l .noPass) :=
    ⟨⟨(s.lane l).served, congrArg (look · l) hlanes⟩, congrArg (look · _) htallies⟩
  unfold State.notPassed
  split
  · exact hself s rfl rfl
  split
  · exact hself s rfl rfl
  rename_i h hserved c hcar
  split
  · have hlane := retireCar_lane (s := s.setLane l { s.lane l with served := none }) hcar .withdrawn l
    rw [State.lane_setLane_self] at hlane
    refine ⟨⟨none, hlane⟩, ?_⟩
    rw [State.tally_count, if_neg (by simp), retireCar_lapsed hcar, aside_tally (by simp)]
    exact setAtRetirement_tally (by simp) s c
  · exact hself _ rfl rfl

section
variable {i : Instr}
  (hi : (∃ n : Fin 4, i = .entryPassTimerExpiry n ∧ l = entryLane n) ∨ (∃ n : Fin 2, i = .exitPassTimerExpiry n ∧ l = exitLane n))
include hi

theorem exec_passTimer : exec i s = .next (if (s.lane l).state = .opened ∧ (s.lane l).timer ≠ none then
    if (s.lane l).pass.level = .occupied then s.beginPassAtExpiry l
    else ((s.notPassed l).count (.lane l .noPass)).closeLane l
    else s) := by
  rcases hi with ⟨n, rfl, rfl⟩ | ⟨n, rfl, rfl⟩
  · refine congrArg Host.Outcome.next ?_
    have hentry : isEntryLane (entryLane n) = true := decide_eq_true n.isLt
    show s.entryExpiry (entryLane n) = _
    unfold State.entryExpiry State.notPassed
    simp only [Bool.and_eq_true, beq_iff_eq, Option.isSome_iff_ne_none, hentry, if_true] <;> rfl
  · refine congrArg Host.Outcome.next ?_
    have hexit : isEntryLane (exitLane n) = false := decide_eq_false (by simp [exitLane])
    show s.exitExpiry (exitLane n) = _
    unfold State.exitExpiry State.notPassed
    simp only [Bool.and_eq_true, beq_iff_eq, Option.isSome_iff_ne_none, hexit, if_false, Bool.false_eq_true] <;> rfl

end

/-- Settles O37: the timer by the lane's kind and the car it serves, and the lane that closes behind it. -/
theorem passTimersRunOut : Obligations.PassTimersRunOut := by
  intro s l i hi x closed count raised shut
  have hexec := exec_passTimer (s := s) hi
  refine ⟨fun h => ?_, fun hstate htimer hlevel => ?_, fun hstate htimer hlevel => ?_⟩
  · rw [hexec, if_neg fun ⟨hstate, htimer⟩ => h.elim (absurd hstate) htimer]
  · rw [hexec, if_pos ⟨hstate, htimer⟩, if_pos hlevel]
    rfl
  rw [if_pos ⟨hstate, htimer⟩, if_neg (by rw [show (s.lane l).pass.level = .clear from hlevel]; simp)] at hexec
  have hzero (b : BitVec 10) : ({ s.attention with causes := s.attention.causes ||| b } : Attention) =
      { s.attention with causes := s.attention.causes ||| 0#10 ||| b } := by rw [BitVec.or_zero]
  obtain ⟨u, hu⟩ : ∃ u, u = s.notPassed l := ⟨_, rfl⟩
  obtain ⟨⟨served, hlane⟩, htally⟩ := notPassed_lane s l
  rw [← hu] at hexec hlane htally
  have hcounted : (u.count (.lane l .noPass)).lane l = u.lane l := rfl
  obtain ⟨t, ht⟩ : ∃ t, t = (u.count (.lane l .noPass)).closeLane l := ⟨_, rfl⟩
  refine ⟨t, ht ▸ hexec, ?_, ?_, fun hwaits => ?_, fun h c hl hserved hcar => ?_, fun h c hl hserved hcar => ?_, fun hserved => ?_⟩
  · rw [ht, closeLane_self, hcounted, hlane]
    rfl
  · rw [ht, closeLane_eq]
    exact (State.tally_count _ _ _ _).trans ((if_pos rfl).trans (by rw [htally]))
  · rw [ht]
    refine closeLane_raises _ l ?_
    rw [hcounted, hlane]
    exact hwaits
  · have ht : t = s.passed l h c .withdrawn { x with served := none }
        (((s.setAtRetirement c).count (.field c.field .withdrawn)).count (.lane l .noPass)) := by
      rw [ht, hu, notPassed_entry hserved hl hcar, retireCar_lapsed hcar, lapsed_count (by simp), lapsed_count (by simp),
        lapsed_closeLane (by decide) rfl]
    have htally {k : Tally} (hkitchen : ∀ j, k ≠ .kitchen j) := passed_tally ht hkitchen
    obtain ⟨hgone, htouched, hcauses, hstall⟩ := passed_car (.inr rfl) ht
    have hraised := passed_attention ht
    have hwait : Lane.waitCause { x with served := none } = if x.arrival.level = .occupied then 1#10 else 0#10 := rfl
    rw [hwait] at hraised
    refine ⟨hgone, htouched, hcauses, hstall, ?_, fun hslot => ⟨passed_retired (.inr rfl) ht hslot ?_, hraised,
      fun k hk hno hlost hkitchen => ?_, fun l' hne => passed_others ht hne⟩⟩
    · rw [htally (by simp), State.tally_count, if_neg (by simp), State.tally_count, if_pos rfl, setAtRetirement_tally (by simp)]
    · rw [State.tally_count, if_neg (by simp), State.tally_count, if_neg (by simp)]
    · rw [htally hkitchen, State.tally_count, if_neg hno.symm, State.tally_count, if_neg hk.symm, setAtRetirement_tally hlost]
  · rw [notPassed_exit hserved hl hcar] at hu
    rw [ht, hu, closeLane_eq]
    rfl
  · rw [notPassed_free hserved] at hu
    rw [ht, hu, closeLane_eq]
    exact congrArg (fun a : Attention => ({ shut with attention := a } : State)) (hzero _)

end Sys2Proof.Machine
end

section
/-! PROOF. The cascade of a forced CLOSE FIELD (R86), record by record. -/

namespace Sys2Proof.Machine
variable {s t : State} {f : FieldNo} {h k : CarHandle} {hs : List CarHandle} {c : Car} {cause : RetireCause}

/-! ### Cars retired one by one -/

/-- The retirement of these cars in turn, within a forced CLOSE FIELD (R86). -/
def State.retireAll (s : State) (hs : List CarHandle) : State := s.forEach hs fun h acc => acc.retireCar h .forceClose

/-- These are live entries of one field, each once. -/
structure LiveIn (s : State) (f : FieldNo) (hs : List CarHandle) : Prop where
  once : hs.Nodup
  live : ∀ h ∈ hs, ∃ c, s.car h = some c ∧ c.field = f

theorem liveIn_carsOf (s : State) (f : FieldNo) : LiveIn s f (s.carsOf f) where
  once := (List.nodup_finRange 1024).filter _
  live h hh := by
    obtain ⟨c, hc, hf⟩ := (Option.any_eq_true ..).mp (List.mem_filter.mp hh).2
    exact ⟨c, hc, beq_iff_eq.mp hf⟩

theorem mem_carsOf {h : CarHandle} : h ∈ s.carsOf f ↔ ∃ c, s.car h = some c ∧ c.field = f := by
  unfold State.carsOf
  rw [List.mem_filter]
  simp only [List.mem_finRange, true_and, Option.any_eq_true, beq_iff_eq]

theorem LiveIn.rest (hlive : LiveIn s f (h :: hs)) (hcar : s.car h = some c) : LiveIn (s.retireCar h .forceClose) f hs where
  once := (List.nodup_cons.mp hlive.once).2
  live k hk := by
    have hne : k ≠ h := fun e => (List.nodup_cons.mp hlive.once).1 (e ▸ hk)
    obtain ⟨x, hx, hf⟩ := hlive.live k (List.mem_cons_of_mem _ hk)
    have e := (retireCar_others hcar .forceClose).2 k hne
    rw [hx, Option.map_some] at e
    obtain ⟨y, hy, e⟩ := Option.map_eq_some_iff.mp e
    exact ⟨y, hy, (congrArg Car.field e).trans hf⟩

/-- What each retirement keeps, the cascade keeps. -/
theorem retireAll_induct {P : State → Prop} (hstep : ∀ t h c, t.car h = some c → c.field = f → P t → P (t.retireCar h .forceClose))
    (hlive : LiveIn s f hs) (hs' : P s) : P (s.retireAll hs) := by
  induction hs generalizing s with
  | nil => exact hs'
  | cons h rest ih =>
    obtain ⟨c, hc, hf⟩ := hlive.live h List.mem_cons_self
    exact ih (hlive.rest hc) (hstep s h c hc hf hs')

theorem retireCar_listOf (hcar : s.car h = some c) (cause : RetireCause) (hne : k ≠ h) :
    (s.retireCar h cause).listOf k = s.listOf k := by
  have hkept := (bookStands_setAtRetirement s c).lists k
  rw [State.listOf, retireCar_car hcar, if_neg hne.symm]
  exact hkept

/-! ### The order book and the records aside from it -/

theorem ordersLoseCar_append (s : State) (os os' : List OrderHandle) :
    s.ordersLoseCar (os ++ os') = (s.ordersLoseCar os).ordersLoseCar os' := List.foldl_append ..

/-- The cascade is what the order book makes of all the cars' orders, with other records laid over it. -/
theorem retireAll_aside (hlive : LiveIn s f hs) : ∃ d : Aside, d.causes = (if hs = [] then 0#10 else 0x100#10) ∧
    s.retireAll hs = (s.ordersLoseCar (hs.flatMap s.listOf)).aside d := by
  induction hs generalizing s with
  | nil => exact ⟨s.besides, rfl, eq_aside (s := s) (t := s) rfl (laid_self _)⟩
  | cons h rest ih =>
    obtain ⟨c, hc, -⟩ := hlive.live h List.mem_cons_self
    obtain ⟨d, hcauses, hd⟩ := ih (hlive.rest hc)
    have hnames : rest.flatMap (s.retireCar h .forceClose).listOf = rest.flatMap s.listOf := by
      refine List.flatMap_congr fun k hk => retireCar_listOf hc _ ?_
      exact fun e => (List.nodup_cons.mp hlive.once).1 (e ▸ hk)
    have hlist : s.listOf h = c.orders := by rw [State.listOf, hc]; rfl
    refine ⟨{ d with causes := 0x100#10 ||| d.causes }, ?_, ?_⟩
    · rw [if_neg (List.cons_ne_nil _ _)]
      show 0x100#10 ||| d.causes = _
      rw [hcauses]
      split <;> decide
    · refine hd.trans ?_
      rw [hnames, List.flatMap_cons, hlist, ordersLoseCar_append, retireCar_aside hc]
      have hblind := blind_ordersLoseCar (rest.flatMap s.listOf) (s.ordersLoseCar c.orders) (s.retiredAside h c .forceClose)
      dsimp only at hblind
      rw [hblind, aside_aside]
      rfl

/-! ### Field units, entries and lanes -/

theorem retireAll_units (hlive : LiveIn s f hs) : (∀ g, g ≠ f → (s.retireAll hs).unit g = s.unit g) ∧
    (s.retireAll hs).unit f = { s.unit f with stalls := ((s.retireAll hs).unit f).stalls } := by
  refine retireAll_induct (P := fun t => (∀ g, g ≠ f → t.unit g = s.unit g) ∧
    t.unit f = { s.unit f with stalls := (t.unit f).stalls }) (fun t h c hcar hf ⟨hothers, hown⟩ => ?_) hlive ⟨fun _ _ => rfl, rfl⟩
  have hunits := retireCar_fieldUnits hcar .forceClose
  rw [if_pos rfl, hf] at hunits
  refine ⟨fun g hg => ?_, ?_⟩
  · exact ((congrArg (look · g) hunits).trans (look_put_ne _ _ hg.symm)).trans (hothers g hg)
  · have hunit : (t.retireCar h .forceClose).unit f = (t.unit f).setStall c.stall none :=
      (congrArg (look · f) hunits).trans (look_put_self _ _ _)
    rw [hunit]
    exact congrArg (fun u : FieldUnit => u.setStall c.stall none) hown

theorem retireCar_entry (hcar : s.car h = some c) (cause : RetireCause) (k : CarHandle) : (s.retireCar h cause).entry k =
    if k = h then { car := none, touched := if cause = .retire then (s.entry h).touched else true }
    else (s.setAtRetirement c).entry k := by
  rw [retireCar_aside hcar]
  by_cases e : k = h
  · rw [if_pos e, e]
    exact look_put_self _ _ _
  · rw [if_neg e]
    exact look_put_ne _ _ (Ne.symm e)

/-- The cars are gone and touched. -/
theorem retireAll_gone (hlive : LiveIn s f hs) (hmem : h ∈ hs) :
    (s.retireAll hs).car h = none ∧ ((s.retireAll hs).entry h).touched = true := by
  have hstays : ∀ {s : State} {ks : List CarHandle}, LiveIn s f ks → s.car h = none ∧ (s.entry h).touched = true →
      (s.retireAll ks).car h = none ∧ ((s.retireAll ks).entry h).touched = true := fun hks hgone => by
    refine retireAll_induct (P := fun t => t.car h = none ∧ (t.entry h).touched = true)
      (fun t k c hcar _ ⟨hnone, htouched⟩ => ?_) hks hgone
    have hne : h ≠ k := fun e => by rw [← e, hnone] at hcar; cases hcar
    have hkept := (retireCar_others hcar .forceClose).2 h hne
    rw [hnone, Option.map_none, Option.map_eq_none_iff] at hkept
    refine ⟨hkept, ?_⟩
    rw [retireCar_entry hcar, if_neg hne, setAtRetirement_touched]
    exact htouched
  induction hs generalizing s with
  | nil => cases hmem
  | cons k rest ih =>
    obtain ⟨c, hc, -⟩ := hlive.live k List.mem_cons_self
    rcases List.mem_cons.mp hmem with rfl | hmem
    · have hentry := (retireCar_entry hc .forceClose h).trans (if_pos rfl)
      exact hstays (s := s.retireCar h .forceClose) (hlive.rest hc) ⟨congrArg Entry.car hentry, congrArg Entry.touched hentry⟩
    · exact ih (hlive.rest hc) hmem

theorem retireAll_lanes (hlive : LiveIn s f hs) (l : LaneNo) :
    (∀ h ∈ hs, (s.lane l).served = some h → (s.retireAll hs).lane l = { s.lane l with served := none }) ∧
    ((∀ h ∈ hs, (s.lane l).served ≠ some h) → (s.retireAll hs).lane l = s.lane l) := by
  induction hs generalizing s with
  | nil => exact ⟨fun _ hh => (nomatch hh), fun _ => rfl⟩
  | cons k rest ih =>
    obtain ⟨c, hc, -⟩ := hlive.live k List.mem_cons_self
    have hlane := retireCar_lane hc .forceClose l
    obtain ⟨hserved, hfree⟩ := ih (hlive.rest hc)
    by_cases hk : (s.lane l).served = some k
    · rw [if_pos hk] at hlane
      have hnone : ((s.retireCar k .forceClose).lane l).served = none := by rw [hlane]
      have hrest : (s.retireAll (k :: rest)).lane l = { s.lane l with served := none } :=
        (hfree fun h _ e => by rw [hnone] at e; cases e).trans hlane
      exact ⟨fun _ _ _ => hrest, fun hno => absurd hk (hno k List.mem_cons_self)⟩
    · rw [if_neg hk] at hlane
      rw [hlane] at hserved hfree
      refine ⟨fun h hh e => hserved h ?_ e, fun hno => hfree fun h hh => hno h (List.mem_cons_of_mem _ hh)⟩
      rcases List.mem_cons.mp hh with rfl | hh
      · exact absurd e hk
      · exact hh

/-! ### Entries, sets and their tally, where the pool's law stands -/

theorem SetLaw.slot_car (hlaw : SetLaw s) (hcar : s.car h = some c) {n : SetHandle} {m : SetMark} (hlent : c.lent = some (n, m)) :
    (s.slot n).car = some h ∧ (s.slot n).state = m.state :=
  (hlaw.cars h n m).mp (by rw [hcar]; exact hlent)

theorem retireCar_entry_other (hlaw : SetLaw s) (hcar : s.car h = some c) (cause : RetireCause) (hne : k ≠ h) :
    (s.retireCar h cause).entry k = s.entry k := by
  rw [retireCar_entry hcar, if_neg hne]
  exact setAtRetirement_entry (fun n m hlent => (hlaw.slot_car hcar hlent).1) hne

theorem retireAll_entries (hlaw : SetLaw s) (hlive : LiveIn s f hs) (hnot : k ∉ hs) : (s.retireAll hs).entry k = s.entry k := by
  induction hs generalizing s with
  | nil => rfl
  | cons h rest ih =>
    obtain ⟨c, hc, -⟩ := hlive.live h List.mem_cons_self
    obtain ⟨hne, hrest⟩ := not_or.mp (mt List.mem_cons.mpr hnot)
    exact (ih (setLaw_retireCar hlaw h _) (hlive.rest hc) hrest).trans (retireCar_entry_other hlaw hc _ hne)

/-- A set whose car is retired (R128). -/
def State.slotLost (s : State) (n : SetHandle) : SetSlot := { s.slot n with state := .lost, car := none }

/-- A set whose issue is cancelled (R120). -/
def State.slotBack (s : State) (n : SetHandle) : SetSlot :=
  { s.slot n with state := s.byCharge (s.slot n).charge, car := none, timer := none }

theorem retireCar_slot (hlaw : SetLaw s) (hcar : s.car h = some c) (cause : RetireCause) (n : SetHandle) :
    ((s.slot n).car = some h →
      ((s.slot n).state = .lent → (s.retireCar h cause).slot n = s.slotLost n) ∧
      ((s.slot n).state = .issuing → (s.retireCar h cause).slot n = s.slotBack n)) ∧
    ((s.slot n).car ≠ some h → (s.retireCar h cause).slot n = s.slot n) := by
  have hsets := retireCar_sets hcar cause
  have hown {m : SetMark} (hn : (s.slot n).car = some h) (hm : (s.slot n).state = m.state) : c.lent = some (n, m) := by
    have e := (hlaw.cars h n m).mpr ⟨hn, hm⟩
    rwa [hcar] at e
  refine ⟨fun hn => ⟨fun hstate => ?_, fun hstate => ?_⟩, fun hn => ?_⟩
  · have hlose : s.setAtRetirement c = s.loseSet n := by rw [State.setAtRetirement, hown (m := .lent) hn hstate]
    rw [hlose, loseSet_sets] at hsets
    exact (congrArg (look · n) hsets).trans (look_put_self _ _ _)
  · have hcancel : s.setAtRetirement c = s.cancelIssue n := by rw [State.setAtRetirement, hown (m := .issuing) hn hstate]
    rw [hcancel, cancelIssue_sets] at hsets
    exact (congrArg (look · n) hsets).trans (look_put_self _ _ _)
  · rcases hlent : c.lent with _ | ⟨n', m⟩
    · rw [State.setAtRetirement, hlent] at hsets
      exact congrArg (look · n) hsets
    · have hne : n' ≠ n := fun e => hn (e ▸ (hlaw.slot_car hcar hlent).1)
      cases m with
      | lent =>
        have hlose : s.setAtRetirement c = s.loseSet n' := by rw [State.setAtRetirement, hlent]
        rw [hlose, loseSet_sets] at hsets
        exact (congrArg (look · n) hsets).trans (look_put_ne _ _ hne)
      | issuing =>
        have hcancel : s.setAtRetirement c = s.cancelIssue n' := by rw [State.setAtRetirement, hlent]
        rw [hcancel, cancelIssue_sets] at hsets
        exact (congrArg (look · n) hsets).trans (look_put_ne _ _ hne)

theorem retireCar_byCharge (s : State) (h : CarHandle) (cause : RetireCause) (charge : Nat) :
    (s.retireCar h cause).byCharge charge = s.byCharge charge := by
  have hlevel : (s.retireCar h cause).readyLevel = s.readyLevel := by simp
  rw [State.byCharge, hlevel]
  rfl

theorem retireAll_slots (hlaw : SetLaw s) (hlive : LiveIn s f hs) (n : SetHandle) :
    (∀ h ∈ hs, (s.slot n).car = some h →
      ((s.slot n).state = .lent → (s.retireAll hs).slot n = s.slotLost n) ∧
      ((s.slot n).state = .issuing → (s.retireAll hs).slot n = s.slotBack n)) ∧
    ((∀ h ∈ hs, (s.slot n).car ≠ some h) → (s.retireAll hs).slot n = s.slot n) := by
  induction hs generalizing s with
  | nil => exact ⟨fun _ hh => (nomatch hh), fun _ => rfl⟩
  | cons k rest ih =>
    obtain ⟨c, hc, -⟩ := hlive.live k List.mem_cons_self
    obtain ⟨hmine, hother⟩ := retireCar_slot hlaw hc .forceClose n
    obtain ⟨howned, hfree⟩ := ih (setLaw_retireCar hlaw k .forceClose) (hlive.rest hc)
    by_cases hk : (s.slot n).car = some k
    · have hstays {x : SetSlot} (hx : (s.retireCar k .forceClose).slot n = x) (hnone : x.car = none) :
          (s.retireAll (k :: rest)).slot n = x :=
        (hfree fun h _ e => by rw [hx, hnone] at e; cases e).trans hx
      obtain ⟨hlent, hissuing⟩ := hmine hk
      exact ⟨fun _ _ _ => ⟨fun e => hstays (hlent e) rfl, fun e => hstays (hissuing e) rfl⟩,
        fun hno => absurd hk (hno k List.mem_cons_self)⟩
    · have hslot := hother hk
      have hback : (s.retireCar k .forceClose).slotBack n = s.slotBack n := by
        unfold State.slotBack
        rw [hslot, retireCar_byCharge]
      have hlost : (s.retireCar k .forceClose).slotLost n = s.slotLost n := by
        unfold State.slotLost
        rw [hslot]
      rw [hslot, hback, hlost] at howned
      rw [hslot] at hfree
      refine ⟨fun h hh e => howned h ?_ e, fun hno => hfree fun h hh => hno h (List.mem_cons_of_mem _ hh)⟩
      rcases List.mem_cons.mp hh with rfl | hh
      · exact absurd e hk
      · exact hh

/-- The car has its set. -/
def State.hasSet (s : State) (h : CarHandle) : Bool := (s.car h).any fun c => c.lent.any fun n => n.2 == .lent

theorem retireAll_lost (hlaw : SetLaw s) (hbound : s.tally (.sets .lost) ≤ 65535) (hlive : LiveIn s f hs) :
    (s.retireAll hs).tally (.sets .lost) = min 65535 (s.tally (.sets .lost) + hs.countP s.hasSet) := by
  induction hs generalizing s with
  | nil => exact (min_eq_right hbound).symm
  | cons k rest ih =>
    obtain ⟨c, hc, -⟩ := hlive.live k List.mem_cons_self
    have htally : (s.retireCar k .forceClose).tally (.sets .lost) =
        min 65535 (s.tally (.sets .lost) + if s.hasSet k = true then 1 else 0) := by
      have hset : s.hasSet k = true ↔ ∃ n, c.lent = some (n, .lent) := by
        rw [State.hasSet, hc]
        rcases hlent : c.lent with _ | ⟨n, m⟩
        · simp [hlent]
        · cases m <;> simp [hlent]
      rw [retireCar_aside hc, aside_tally (by simp)]
      show look (s.setAtRetirement c).tallies _ = _
      rw [setAtRetirement_bank]
      by_cases hl : ∃ n, c.lent = some (n, .lent)
      · rw [if_pos hl, if_pos (hset.mpr hl)]
        exact look_put_self _ _ _
      · rw [if_neg hl, if_neg (mt hset.mp hl)]
        exact (min_eq_right hbound).symm
    have hsame : rest.countP (s.retireCar k .forceClose).hasSet = rest.countP s.hasSet := List.countP_congr fun h hh => by
      have hne : h ≠ k := fun e => (List.nodup_cons.mp hlive.once).1 (e ▸ hh)
      unfold State.hasSet State.car
      rw [retireCar_entry_other hlaw hc _ hne]
    refine (ih (setLaw_retireCar hlaw k _) (by rw [htally]; exact min_le_left _ _) (hlive.rest hc)).trans ?_
    rw [hsame, htally, List.countP_cons]
    omega

end Sys2Proof.Machine
end

section
/-! PROOF. What the loss of a car leaves of the orders on no list of it, and of the tally bank. -/

namespace Sys2Proof.Machine
variable {s t u : State} {o z : OrderHandle} {ord : Order}

/-- The change from `s` to `t` ends one order: the others keep all but stage, due mark, prep timer and trip, and a tally
changes only by cancels, waste and deferrals. -/
structure EndsOnly (o : OrderHandle) (s t : State) : Prop where
  others : ∀ z, z ≠ o → (t.order z).map Order.plain = (s.order z).map Order.plain
  tallies : ∀ k, k ≠ .kitchen .cancelled → k ≠ .kitchen .wasteLines → k ≠ .kitchen .stationDeferrals → t.tally k = s.tally k

namespace EndsOnly

theorem refl (o : OrderHandle) (s : State) : EndsOnly o s s := ⟨fun _ _ => rfl, fun _ _ _ _ => rfl⟩

theorem trans (h : EndsOnly o s t) (h' : EndsOnly o t u) : EndsOnly o s u :=
  ⟨fun z hz => (h'.others z hz).trans (h.others z hz), fun k h1 h2 h3 => (h'.tallies k h1 h2 h3).trans (h.tallies k h1 h2 h3)⟩

theorem of_keep (h : OrdersKeep Order.plain s t) (htallies : t.tallies = s.tallies) : EndsOnly o s t :=
  ⟨fun z _ => h z, fun _ _ _ _ => congrArg (look · _) htallies⟩

theorem setOrder (s : State) (o : OrderHandle) (x : Option Order) : EndsOnly o s (s.setOrder o x) :=
  ⟨fun _ hz => congrArg (Option.map Order.plain) (look_put_ne _ _ hz.symm), fun _ _ _ _ => rfl⟩

theorem count (s : State) {j : KitchenTally} (hj : j = .cancelled ∨ j = .wasteLines ∨ j = .stationDeferrals) (n : Nat) :
    EndsOnly o s (s.count (.kitchen j) n) :=
  ⟨fun _ _ => rfl, fun k h1 h2 h3 => by
    rw [State.tally_count, if_neg]
    rintro rfl
    rcases hj with rfl | rfl | rfl
    exacts [h1 rfl, h2 rfl, h3 rfl]⟩

theorem afterFall (s : State) : EndsOnly o s s.afterFall :=
  ⟨fun z _ => ordersKeep_afterFall s z, fun k _ _ h3 => (Checked.afterFall s).tallies k h3⟩

theorem touchCar (s : State) (car : Option CarHandle) : EndsOnly o s (s.touchCar car) := by
  cases car with
  | none => exact refl o s
  | some h => exact ⟨fun _ _ => rfl, fun _ _ _ _ => rfl⟩

theorem retireOrder (s : State) (o : OrderHandle) : EndsOnly o s (s.retireOrder o) := by
  unfold State.retireOrder
  cases s.order o with
  | none => exact refl o s
  | some ord =>
    dsimp only
    let w := ({ s with parked := s.parked.erase o, readyList := s.readyList.erase o } : State).withdrawLines fun l => l.1 == o
    have hw : EndsOnly o s w := of_keep (OrdersKeep.of_orders (by simp [w])) (by simp [w])
    have hfreed {v : State} (hv : EndsOnly o s v) : EndsOnly o s ((v.unlistOrder o ord.car).setOrder o none) := by
      refine (hv.trans ?_).trans (setOrder _ o none)
      cases ord.car with
      | none => exact refl o v
      | some h => exact ⟨fun _ _ => rfl, fun _ _ _ _ => rfl⟩
    have hoff : EndsOnly o s (match ord.trip with | none => w | some k => w.leaveTrip k o) := by
      cases ord.trip with
      | none => exact hw
      | some k => exact hw.trans (of_keep (ordersKeep_leaveTrip w k o) (by simp))
    split
    · exact (hfreed hoff).trans (afterFall _)
    · exact hfreed hoff

theorem settleCancel (s : State) (o : OrderHandle) (ord : Order) : EndsOnly o s (s.settleCancel o ord) := by
  have hpaid := ((count (o := o) s (.inl rfl) 1).trans (count _ (.inr (.inl rfl)) ord.waste))
  refine ((hpaid.trans ?_).trans (touchCar _ ord.car)).trans (retireOrder _ o)
  exact of_keep (OrdersKeep.of_orders (by simp)) (by simp)

theorem finishOrder (s : State) (o : OrderHandle) : EndsOnly o s (s.finishOrder o) := by
  unfold State.finishOrder
  cases s.order o with
  | none => exact refl o s
  | some ord =>
    dsimp only
    split
    · exact settleCancel s o ord
    · exact (setOrder s o _).trans (of_keep (ordersKeep_placeReady _ o ord.field) (by simp))

theorem cancelPreparing (s : State) (o : OrderHandle) (ord : Order) : EndsOnly o s (s.cancelPreparing o ord) := by
  unfold State.cancelPreparing
  dsimp only
  have hmarked (gone : OrderHandle × Nat → Bool) (x : Order) : EndsOnly o s ((s.withdrawLines gone).setOrder o (some x)) :=
    (of_keep (OrdersKeep.of_orders (by simp)) (by simp)).trans (setOrder _ o _)
  split <;> split
  · exact (hmarked _ _).trans (afterFall _)
  · exact ((hmarked _ _).trans (finishOrder _ o)).trans (afterFall _)
  · exact hmarked _ _
  · exact (hmarked _ _).trans (finishOrder _ o)

theorem cancelAtStage (s : State) (o : OrderHandle) (ord : Order) : EndsOnly o s (s.cancelAtStage o ord) := by
  have hcancelled := count (o := o) s (.inl rfl) 1
  unfold State.cancelAtStage
  cases ord.stage with
  | parked => exact (hcancelled.trans (touchCar _ ord.car)).trans (retireOrder _ o)
  | queued => exact (hcancelled.trans (touchCar _ ord.car)).trans (retireOrder _ o)
  | preparing => exact cancelPreparing s o ord
  | ready => exact ((hcancelled.trans (count _ (.inr (.inl rfl)) ord.quantities)).trans (touchCar _ ord.car)).trans (retireOrder _ o)
  | onTrip => exact setOrder s o _

theorem orderLosesCar (s : State) (o : OrderHandle) : EndsOnly o s (s.orderLosesCar o) := by
  unfold State.orderLosesCar
  cases s.order o with
  | none => exact refl o s
  | some ord =>
    dsimp only
    split
    · exact setOrder s o _
    · exact (setOrder s o _).trans (cancelAtStage _ o _)

end EndsOnly

theorem ordersLoseCar_others (s : State) (os : List OrderHandle) {z : OrderHandle} (hz : z ∉ os) :
    ((s.ordersLoseCar os).order z).map Order.plain = (s.order z).map Order.plain :=
  State.forEach_induct (fun t => (t.order z).map Order.plain = (s.order z).map Order.plain) s os _
    (fun o t ho h => ((EndsOnly.orderLosesCar t o).others z fun e => hz (e ▸ ho)).trans h) rfl

theorem ordersLoseCar_bank (s : State) (os : List OrderHandle) {k : Tally} (h1 : k ≠ .kitchen .cancelled)
    (h2 : k ≠ .kitchen .wasteLines) (h3 : k ≠ .kitchen .stationDeferrals) : (s.ordersLoseCar os).tally k = s.tally k :=
  State.forEach_keeps (fun t : State => t.tally k) s os _ fun o t => (EndsOnly.orderLosesCar t o).tallies k h1 h2 h3

end Sys2Proof.Machine
end

section
/-! PROOF. What becomes of the other orders once one of them is taken out of the book: the fall of a backlog. -/

namespace Sys2Proof.Machine
variable {s t u : State} {o z : OrderHandle} {ord : Order} {calls : FieldNo → ReleaseMode → Prop}

/-! ### Due marks and releases -/

/-- The parked list holds PARKED orders, each once, and a due mark stands on a PARKED order alone (R136, R139). -/
structure Marked (s : State) : Prop where
  once : s.parked.Nodup
  parked : ∀ z ∈ s.parked, ∃ ord, s.order z = some ord ∧ ord.stage = .parked
  due : ∀ z ord, s.order z = some ord → ord.due = true → ord.stage = .parked

theorem QueueLaw.marked (h : QueueLaw s) : Marked s := ⟨h.parkedOnce, fun z hz => (h.parked z).mp hz, h.due⟩

/-- A PARKED order as a due check and a release pass leave it: `calls` are the fields and modes that a mark is set for. -/
def Order.Follows (ord : Order) (calls : FieldNo → ReleaseMode → Prop) (prepLimit : Nat) (later : Option Order) : Prop :=
  (∃ due, (ord.due = true → due = true) ∧ (due = true → ord.due = true ∨ calls ord.field ord.mode) ∧
    later = some { ord with due := due }) ∨ later = some (ord.released prepLimit)

theorem Order.Follows.refl (ord : Order) (calls : FieldNo → ReleaseMode → Prop) (prepLimit : Nat) :
    ord.Follows calls prepLimit (some ord) := .inl ⟨ord.due, id, .inl, rfl⟩

/-- The change from `s` to `t` sets due marks and releases orders. -/
structure Fell (calls : FieldNo → ReleaseMode → Prop) (s t : State) : Prop where
  working : ∀ z ord, s.order z = some ord → ord.stage ≠ .parked → t.order z = some ord
  parked : ∀ z ord, s.order z = some ord → ord.stage = .parked → ord.Follows calls s.prepLimit (t.order z)
  trips : t.trips = s.trips

namespace Fell

theorem of_orders (horders : t.orders = s.orders) (htrips : t.trips = s.trips) : Fell calls s t :=
  have order (z : OrderHandle) : t.order z = s.order z := congrArg (look · z) horders
  ⟨fun z _ hz _ => (order z).trans hz, fun z ord hz _ => by rw [order, hz]; exact .refl ord _ _, htrips⟩

theorem trans (h : Fell calls s t) (h' : Fell calls t u) (hlimit : t.prepLimit = s.prepLimit) : Fell calls s u where
  working z ord hz hstage := h'.working z ord (h.working z ord hz hstage) hstage
  parked z ord hz hstage := by
    obtain ⟨due, hmono, hcalls, ht⟩ | ht := h.parked z ord hz hstage
    · obtain ⟨due', hmono', hcalls', hu⟩ | hu := h'.parked z _ ht hstage
      · exact .inl ⟨due', fun e => hmono' (hmono e), fun e => (hcalls' e).elim hcalls .inr, hu⟩
      · refine .inr (hu.trans ?_)
        rw [hlimit]
        rfl
    · exact .inr (h'.working z _ ht (fun e => nomatch e))
  trips := h'.trips.trans h.trips

theorem markDue (s : State) {which : Order → Bool}
    (hcalls : ∀ ord, which ord = true → (s.program ord.field).isDue ord.mode = true → calls ord.field ord.mode) :
    Fell calls s (s.markDue which) := by
  obtain ⟨hframe, hspec⟩ := s.markDue_spec which
  have hsame {z : OrderHandle} {ord : Order} (hz : s.order z = some ord) (hstage : ord.stage ≠ .parked) :
      (s.markDue which).order z = some ord := by
    refine ((hspec z).2 fun x hx _ hfalls => ?_).trans hz
    rw [hz] at hx
    cases hx
    exact hstage hfalls.2.1
  refine ⟨fun z ord hz hstage => hsame hz hstage, fun z ord hz hstage => ?_, (congrArg State.trips hframe :)⟩
  by_cases hfalls : z ∈ s.parked ∧
      which ord = true ∧ ord.stage = .parked ∧ ord.due = false ∧ (s.program ord.field).isDue ord.mode = true
  · obtain ⟨hmem, hfalls⟩ := hfalls
    exact .inl ⟨true, fun _ => rfl, fun _ => .inr (hcalls ord hfalls.1 hfalls.2.2.2), (hspec z).1 ord hz hmem hfalls⟩
  · have hstands : (s.markDue which).order z = s.order z := (hspec z).2 fun x hx hmem hf => by
      rw [hz] at hx
      cases hx
      exact hfalls ⟨hmem, hf⟩
    rw [hstands, hz]
    exact .refl ord _ _

end Fell

theorem marked_markDue (h : Marked s) (which : Order → Bool) : Marked (s.markDue which) := by
  obtain ⟨hframe, hspec⟩ := s.markDue_spec which
  have hparked : (s.markDue which).parked = s.parked := (congrArg State.parked hframe :)
  have hfell : Fell (fun _ _ => True) s (s.markDue which) := Fell.markDue s fun _ _ _ => trivial
  refine ⟨hparked ▸ h.once, fun z hz => ?_, fun z x hx hdue => ?_⟩
  · obtain ⟨ord, hord, hstage⟩ := h.parked z (hparked ▸ hz)
    by_cases hfalls : which ord = true ∧ ord.stage = .parked ∧ ord.due = false ∧ (s.program ord.field).isDue ord.mode = true
    · exact ⟨_, (hspec z).1 ord hord (hparked ▸ hz) hfalls, hstage⟩
    · refine ⟨ord, ((hspec z).2 fun x hx _ hf => ?_).trans hord, hstage⟩
      rw [hord] at hx
      cases hx
      exact hfalls hf
  · cases hz : s.order z with
    | none =>
      have hnone : (s.markDue which).order z = s.order z := (hspec z).2 fun y hy => by rw [hz] at hy; cases hy
      rw [hnone, hz] at hx
      cases hx
    | some ord =>
      by_cases hstage : ord.stage = .parked
      · obtain ⟨due, -, -, ht⟩ | ht := hfell.parked z ord hz hstage
        · rw [ht] at hx
          cases hx
          exact hstage
        · rw [ht] at hx
          cases hx
          cases hdue
      · rw [hfell.working z ord hz hstage] at hx
        cases hx
        exact h.due z _ hz hdue

theorem fell_releasePass (h : Marked s) : Fell calls s s.releasePass := by
  unfold State.releasePass
  split
  · exact Fell.of_orders rfl rfl
  rename_i hoff
  have hoff : s.hold = false := Bool.eq_false_iff.mpr hoff
  have hlive : ∀ z ∈ s.parked, s.order z ≠ none := fun z hz e => by
    obtain ⟨ord, hord, -⟩ := h.parked z hz
    rw [hord] at e
    cases e
  obtain ⟨walked, left, released, -, hwalk, -⟩ := releaseWalk_walk h.once hlive (Walk.start hoff) hoff rfl
  have hdue {z : OrderHandle} {ord : Order} (hz : s.order z = some ord) (hmem : z ∈ released) : ord.due = true := by
    obtain ⟨before, after, hsplit⟩ := List.append_of_mem (hwalk.sub.subset hmem)
    have e := ((hwalk.each before z after hsplit).mp hmem).1
    unfold State.dueAt at e
    rw [hz] at e
    exact e
  refine ⟨fun z ord hz hstage => ?_, fun z ord hz hstage => ?_, (congrArg State.trips hwalk.frame :)⟩
  · exact (hwalk.others z fun hmem => hstage (h.due z ord hz (hdue hz hmem))).trans hz
  · by_cases hmem : z ∈ released
    · right
      rw [hwalk.queued z hmem, hz]
      rfl
    · rw [hwalk.others z hmem, hz]
      exact .refl ord _ _

theorem marked_congr (h : Marked s) (horders : t.orders = s.orders) (hparked : t.parked = s.parked) : Marked t := by
  have order (z : OrderHandle) : t.order z = s.order z := congrArg (look · z) horders
  refine ⟨hparked ▸ h.once, fun z hz => ?_, fun z ord hz => h.due z ord ((order z).symm.trans hz)⟩
  obtain ⟨ord, hord, hstage⟩ := h.parked z (hparked ▸ hz)
  exact ⟨ord, (order z).trans hord, hstage⟩

theorem fell_afterFall (h : Marked s) : Fell (fun f m => (s.program f).isDue m = true) s s.afterFall := by
  have hheld : Fell (fun f m => (s.program f).isDue m = true) s s.evaluateHold := Fell.of_orders (by simp) (by simp)
  have hmarkedHold : Marked s.evaluateHold := marked_congr h (by simp) (by simp)
  have hdue : Fell (fun f m => (s.program f).isDue m = true) s s.evaluateHoldAndDue ∧ Marked s.evaluateHoldAndDue ∧
      s.evaluateHoldAndDue.prepLimit = s.prepLimit := by
    unfold State.evaluateHoldAndDue
    dsimp only
    split
    · refine ⟨hheld.trans (Fell.markDue _ fun ord _ hdue => ?_) (by simp), marked_markDue hmarkedHold _, by simp⟩
      rwa [show s.evaluateHold.program ord.field = s.program ord.field from congrArg (look · ord.field) (by simp)] at hdue
    · exact ⟨hheld, hmarkedHold, by simp⟩
  exact hdue.1.trans (fell_releasePass hdue.2.1) hdue.2.2

/-- The due check of a field whose programs the state shows (R139). -/
theorem fell_dueCheckField (h : Marked s) (f : FieldNo) : Fell (fun g _ => g = f) s (s.dueCheckField f) := by
  unfold State.dueCheckField State.dueCheck
  split
  · refine (Fell.markDue s fun ord hf _ => beq_iff_eq.mp hf).trans (fell_releasePass (marked_markDue h _)) ?_
    exact (congrArg State.prepLimit (s.markDue_spec _).1 :)
  · exact Fell.of_orders rfl rfl

end Sys2Proof.Machine
end

section
/-! PROOF. What becomes of the other orders once one of them is taken out of the book: the trip that it leaves. -/

namespace Sys2Proof.Machine
variable {s t u v b : State} {o z : OrderHandle} {ord : Order} {k : TripHandle}

/-! ### Orders on a trip that others join -/

/-- The change from `s` to `t` seats ready orders on one trip, and may close it. -/
structure Reseated (k : TripHandle) (s t : State) : Prop where
  orders : ∀ z ord, s.order z = some ord →
    (∃ st, t.order z = some { ord with stage := st } ∧ (st = .onTrip ∨ st = ord.stage) ∧
      (z ∉ (s.trip k).orders → st = ord.stage)) ∨
    (z ∈ s.readyList ∧ ∃ st, t.order z = some { ord with trip := some k, stage := st } ∧ (st = .onTrip ∨ st = ord.stage))
  free : ∀ z, s.order z = none → t.order z = none
  trips : ∀ j, j ≠ k → t.trip j = s.trip j
  parked : t.parked = s.parked
  programs : t.programs = s.programs
  prepLimit : t.prepLimit = s.prepLimit
  stations : t.stations = s.stations

theorem closeTrip_seats (s : State) (k : TripHandle) :
    (∀ z ord, s.order z = some ord → ∃ st, (s.closeTrip k).order z = some { ord with stage := st } ∧
      (st = .onTrip ∨ st = ord.stage) ∧ (z ∉ (s.trip k).orders → st = ord.stage)) ∧
    (∀ z, s.order z = none → (s.closeTrip k).order z = none) ∧ ∀ j, j ≠ k → (s.closeTrip k).trip j = s.trip j := by
  unfold State.closeTrip
  split
  · exact ⟨fun z ord hz => ⟨ord.stage, hz, .inr rfl, fun _ => rfl⟩, fun _ hz => hz, fun _ _ => rfl⟩
  split
  · obtain ⟨horders, hframe⟩ := s.dispatch_spec k
    refine ⟨fun z ord hz => ?_, fun z hz => ?_, fun j hj => ?_⟩
    · rw [horders, hz]
      split
      · rename_i hmem
        exact ⟨.onTrip, rfl, .inl rfl, fun hnot => absurd hmem hnot⟩
      · exact ⟨ord.stage, rfl, .inr rfl, fun _ => rfl⟩
    · rw [horders, hz]
      split <;> rfl
    · exact (congrArg (look · j) (congrArg State.trips hframe :)).trans (look_put_ne _ _ hj.symm)
  · exact ⟨fun z ord hz => ⟨ord.stage, hz, .inr rfl, fun _ => rfl⟩, fun _ hz => hz, fun j hj => look_put_ne _ _ hj.symm⟩

/-- Orders that join are marked with the trip, which may close behind them. -/
theorem joinTrip_marked (b : State) (k : TripHandle) (os : List OrderHandle) : ∃ marked : State,
    (b.joinTrip k os = marked ∨ b.joinTrip k os = marked.closeTrip k) ∧
    (∀ z, marked.order z = if z ∈ os then (b.order z).map fun ord => { ord with trip := some k } else b.order z) ∧
    (marked.trip k).orders = (b.trip k).orders ++ os ∧ ∀ j, j ≠ k → marked.trip j = b.trip j := by
  unfold State.joinTrip
  dsimp only
  generalize (if ((b.trip k).state == .gathering && !os.isEmpty) = true then some (b.window * 1000) else (b.trip k).timer) = timer
  obtain ⟨hmarked, hframe⟩ := (b.setTrip k { b.trip k with orders := (b.trip k).orders ++ os, timer := timer }).forEach_modOrder os
    (fun ord => { ord with trip := some k }) fun _ => rfl
  have htrips : _ = put b.trips k { b.trip k with orders := (b.trip k).orders ++ os, timer := timer } :=
    (congrArg State.trips hframe :)
  refine ⟨_, ?_, hmarked, ?_, fun j hj => ?_⟩
  · split
    · exact .inr rfl
    · exact .inl rfl
  · exact congrArg Trip.orders ((congrArg (look · k) htrips).trans (look_put_self _ _ _))
  · exact (congrArg (look · j) htrips).trans (look_put_ne _ _ hj.symm)

/-- Ready orders join the trip, whose other members were on it before. -/
theorem reseated_joinTrip {os : List OrderHandle} (horders : b.orders = s.orders)
    (htrips : ∃ x : Trip, b.trips = put s.trips k x ∧ ∀ z ∈ x.orders, z ∈ (s.trip k).orders)
    (hos : ∀ z ∈ os, z ∈ s.readyList) (hparked : b.parked = s.parked) (hprograms : b.programs = s.programs)
    (hlimit : b.prepLimit = s.prepLimit) (hstations : b.stations = s.stations) : Reseated k s (b.joinTrip k os) := by
  obtain ⟨x, hx, hmembers⟩ := htrips
  have order (z : OrderHandle) : b.order z = s.order z := congrArg (look · z) horders
  have htrip : b.trip k = x := (congrArg (look · k) hx).trans (look_put_self _ _ _)
  have hother (j : TripHandle) (hj : j ≠ k) : b.trip j = s.trip j :=
    (congrArg (look · j) hx).trans (look_put_ne _ _ hj.symm)
  obtain ⟨marked, hjoin, hmarked, hjoined, hleft⟩ := joinTrip_marked b k os
  obtain ⟨hseats, hfree, hclosed⟩ := closeTrip_seats marked k
  have hmember {z : OrderHandle} (hz : z ∉ os) (hnot : z ∉ (s.trip k).orders) : z ∉ (marked.trip k).orders := by
    rw [hjoined, htrip]
    exact fun h => (List.mem_append.mp h).elim (fun h => hnot (hmembers z h)) hz
  refine ⟨fun z ord hz => ?_, fun z hz => ?_, fun j hj => ?_, (by simp [hparked]), (by simp [hprograms]), (by simp [hlimit]),
    (by simp [hstations])⟩
  · have hz' := hmarked z
    rw [order, hz] at hz'
    by_cases hmem : z ∈ os
    · rw [if_pos hmem] at hz'
      refine .inr ⟨hos z hmem, ?_⟩
      rcases hjoin with e | e
      · exact ⟨ord.stage, by rw [e]; exact hz', .inr rfl⟩
      · obtain ⟨st, hst, hstage, -⟩ := hseats z _ hz'
        exact ⟨st, by rw [e]; exact hst, hstage⟩
    · rw [if_neg hmem] at hz'
      left
      rcases hjoin with e | e
      · exact ⟨ord.stage, by rw [e]; exact hz', .inr rfl, fun _ => rfl⟩
      · obtain ⟨st, hst, hstage, hsame⟩ := hseats z ord hz'
        exact ⟨st, by rw [e]; exact hst, hstage, fun hnot => hsame (hmember hmem hnot)⟩
  · have hz' : marked.order z = none := by
      rw [hmarked, order, hz]
      split <;> rfl
    rcases hjoin with e | e <;> rw [e]
    · exact hz'
    · exact hfree z hz'
  · rcases hjoin with e | e <;> rw [e]
    · exact (hleft j hj).trans (hother j hj)
    · exact ((hclosed j hj).trans (hleft j hj)).trans (hother j hj)

theorem reseated_setTrip (s : State) (k : TripHandle) (x : Trip) : Reseated k s (s.setTrip k x) :=
  ⟨fun _ ord hz => .inl ⟨ord.stage, hz, .inr rfl, fun _ => rfl⟩, fun _ hz => hz, fun _ hj => look_put_ne _ _ hj.symm, rfl, rfl, rfl, rfl⟩

theorem reseated_leaveTrip (s : State) (k : TripHandle) (o : OrderHandle) : Reseated k s (s.leaveTrip k o) := by
  unfold State.leaveTrip
  dsimp only
  split
  · unfold State.reformTrip
    split
    · exact reseated_setTrip s k {}
    split
    · exact reseated_setTrip s k {}
    · refine reseated_joinTrip rfl ⟨{ state := .gathering, field := some _, orders := [], timer := none }, put_put _ _ _ _,
        fun _ hz => (nomatch hz)⟩ (fun z hz => ?_) rfl rfl rfl rfl
      exact (List.mem_filter.mp (List.mem_of_mem_take hz)).1
  split
  · unfold State.refillTrip
    split
    · exact reseated_setTrip s k _
    · refine reseated_joinTrip rfl ⟨{ s.trip k with orders := (s.trip k).orders.erase o }, rfl,
        fun z hz => List.mem_of_mem_erase hz⟩ (fun z hz => ?_) rfl rfl rfl rfl
      exact (List.mem_filter.mp (List.mem_of_mem_take hz)).1
  · exact reseated_setTrip s k _

/-! ### An order taken out of the book -/

/-- The change from `s` to `v` takes an order out of the book, or out of what it waits for, before a fall of a backlog is
followed up. -/
structure Loosed (o : OrderHandle) (s v : State) : Prop where
  working : ∀ z ord, z ≠ o → s.order z = some ord → ord.stage ≠ .ready → v.order z = some ord
  ready : ∀ z ord, z ≠ o → s.order z = some ord → ord.stage = .ready → ord.trip = none →
    v.order z = some ord ∨
      ∃ k st, (s.trip k).state ≠ .out ∧ o ∈ (s.trip k).orders ∧
        v.order z = some { ord with trip := some k, stage := st } ∧ st ≠ .parked
  seated : ∀ z ord, z ≠ o → s.order z = some ord → ord.stage = .ready → ord.trip ≠ none →
    ∃ st, v.order z = some { ord with stage := st } ∧ st ≠ .parked
  free : ∀ z, z ≠ o → s.order z = none → v.order z = none
  own : ∀ x, v.order o = some x → x.due = false ∧ x.stage ≠ .parked
  trips : ∀ k, o ∉ (s.trip k).orders ∨ (s.trip k).state = .out → v.trip k = s.trip k
  parked : v.parked = s.parked.erase o
  programs : v.programs = s.programs
  prepLimit : v.prepLimit = s.prepLimit

/-- The order stands changed: no other order and no trip is. -/
theorem loosed_of_same (hq : QueueLaw s) (ho : s.order o = some ord) (hstage : ord.stage ≠ .parked)
    (hothers : ∀ z, z ≠ o → v.order z = s.order z) (hown : ∃ x, v.order o = some x ∧ x.due = ord.due ∧ x.stage = ord.stage)
    (htrips : v.trips = s.trips) (hparked : v.parked = s.parked) (hprograms : v.programs = s.programs)
    (hlimit : v.prepLimit = s.prepLimit) : Loosed o s v where
  working z x hz hx _ := (hothers z hz).trans hx
  ready z x hz hx _ _ := .inl ((hothers z hz).trans hx)
  seated z x hz hx hst _ := ⟨x.stage, (hothers z hz).trans hx, by simp [hst]⟩
  free z hz hx := (hothers z hz).trans hx
  own x hx := by
    obtain ⟨y, hy, hdue, hst⟩ := hown
    rw [hx] at hy
    cases hy
    exact ⟨Bool.eq_false_iff.mpr fun e => hstage (hq.due o ord ho (hdue.symm.trans e)), hst ▸ hstage⟩
  trips k _ := congrArg (look · k) htrips
  parked := by
    rw [hparked, List.erase_of_not_mem]
    intro hmem
    obtain ⟨x, hx, hparked⟩ := (hq.parked o).mp hmem
    rw [ho] at hx
    cases hx
    exact hstage hparked
  programs := hprograms
  prepLimit := hlimit

/-- The slot of an order freed, and the trip that it leaves (R151, R159). -/
theorem loosed_freed (ht : TripLaw s) (ho : s.order o = some ord) (hstage : ord.stage ≠ .onTrip)
    (hothers : ∀ z, z ≠ o → b.order z = s.order z) (htrips : b.trips = s.trips) (hready : b.readyList = s.readyList)
    (hparked : b.parked = s.parked) (hprograms : b.programs = s.programs) (hlimit : b.prepLimit = s.prepLimit)
    (entries : Vector Entry 1024) : Loosed o s (((b.untold o).offTrip o ord.trip).freed o entries) := by
  have hreadyOnly {z : OrderHandle} {x : Order} (hx : s.order z = some x) (hz : z ∈ (b.untold o).readyList) :
      x.stage = .ready ∧ x.trip = none := by
    have hmem : z ∈ s.readyList := hready ▸ List.mem_of_mem_erase hz
    obtain ⟨y, hy, h⟩ := (ht.ready z).mp hmem
    rw [hx] at hy
    cases hy
    exact h
  have hfreed {z : OrderHandle} (hz : z ≠ o) (off : State) : (off.freed o entries).order z = off.order z := look_put_ne _ _ hz.symm
  have hnone (off : State) : (off.freed o entries).order o = none := look_put_self _ _ _
  cases htrip : ord.trip with
  | none =>
    refine ⟨fun z x hz hx _ => ?_, fun z x hz hx _ _ => .inl ?_, fun z x hz hx hst _ => ⟨x.stage, ?_, by simp [hst]⟩, fun z hz hx => ?_,
      fun x hx => ?_, fun k _ => congrArg (look · k) htrips, congrArg (·.erase o) hparked, hprograms, hlimit⟩
    · exact (hothers z hz ▸ hfreed hz (b.untold o)).trans hx
    · exact (hothers z hz ▸ hfreed hz (b.untold o)).trans hx
    · exact (hothers z hz ▸ hfreed hz (b.untold o)).trans hx
    · exact (hothers z hz ▸ hfreed hz (b.untold o)).trans hx
    · exact nomatch (hnone _).symm.trans hx
  | some k =>
    have hseat := reseated_leaveTrip (b.untold o) k o
    have hmem : o ∈ (s.trip k).orders := (ht.members k o).mpr ⟨ord, ho, htrip⟩
    have hout : (s.trip k).state ≠ .out := fun e => by
      have h := (ht.stages o ord k ho htrip).2
      rw [if_pos e] at h
      exact hstage h
    have hbtrip (j : TripHandle) : (b.untold o).trip j = s.trip j := congrArg (look · j) htrips
    have hfate {z : OrderHandle} {x : Order} (hz : z ≠ o) (hx : s.order z = some x) :
        (∃ st, ((b.untold o).leaveTrip k o).order z = some { x with stage := st } ∧ (st = .onTrip ∨ st = x.stage) ∧
          (z ∉ (s.trip k).orders → st = x.stage)) ∨
        (x.stage = .ready ∧ x.trip = none) ∧ ∃ st, ((b.untold o).leaveTrip k o).order z = some { x with trip := some k, stage := st } ∧
          (st = .onTrip ∨ st = x.stage) := by
      have h := hseat.orders z x ((hothers z hz).trans hx)
      rw [hbtrip] at h
      exact h.imp id fun ⟨hlist, hst⟩ => ⟨hreadyOnly hx hlist, hst⟩
    have hactive {st st' : Stage} (hready : st' = .ready) (h : st = .onTrip ∨ st = st') : st ≠ .parked := by
      rcases h with rfl | rfl
      · simp
      · simp [hready]
    have hsame {z : OrderHandle} {x : Order} (hz : z ≠ o) (hx : s.order z = some x) (hnot : z ∉ (s.trip k).orders)
        (hloose : ¬ (x.stage = .ready ∧ x.trip = none)) : ((b.untold o).leaveTrip k o).order z = some x := by
      obtain ⟨st, hst, -, hs⟩ | ⟨h, -⟩ := hfate hz hx
      · rw [hst, hs hnot]
      · exact absurd h hloose
    have hstages {z : OrderHandle} {x : Order} (hx : s.order z = some x) (hz : z ∈ (s.trip k).orders) : x.stage = .ready := by
      obtain ⟨y, hy, hk⟩ := (ht.members k z).mp hz
      rw [hx] at hy
      cases hy
      have h := (ht.stages z x k hx hk).2
      rwa [if_neg hout] at h
    refine ⟨fun z x hz hx hst => ?_, fun z x hz hx hst hno => ?_, fun z x hz hx hst hon => ?_, fun z hz hx => ?_, fun x hx => ?_,
      fun j hj => ?_, ?_, ?_, ?_⟩
    · exact (hfreed hz _).trans (hsame hz hx (fun h => hst (hstages hx h)) fun h => hst h.1)
    · obtain ⟨st, h, -, hs⟩ | ⟨-, st, h, hstage⟩ := hfate hz hx
      · refine .inl ((hfreed hz _).trans ?_)
        rw [State.offTrip, h, hs fun hz => ?_]
        obtain ⟨y, hy, hk⟩ := (ht.members k z).mp hz
        rw [hx] at hy
        cases hy
        rw [hno] at hk
        cases hk
      · exact .inr ⟨k, st, hout, hmem, (hfreed hz _).trans h, hactive hst hstage⟩
    · obtain ⟨st, h, hstage, -⟩ | ⟨h, -⟩ := hfate hz hx
      · exact ⟨st, (hfreed hz _).trans h, hactive hst hstage⟩
      · exact absurd h.2 hon
    · exact (hfreed hz _).trans (hseat.free z ((hothers z hz).trans hx))
    · exact nomatch (hnone _).symm.trans hx
    · have hne : j ≠ k := by
        rintro rfl
        exact hj.elim (fun h => h hmem) hout
      exact (hseat.trips j hne).trans (hbtrip j)
    · exact hseat.parked.trans (congrArg (·.erase o) hparked)
    · exact hseat.programs.trans hprograms
    · exact hseat.prepLimit.trans hlimit

end Sys2Proof.Machine
end

section
/-! PROOF. What becomes of the orders that are on no list of the cars that a forced CLOSE FIELD retires, before the field
goes DARK. -/

namespace Sys2Proof.Machine
variable {s t u v : State} {o z : OrderHandle} {ord : Order} {k : TripHandle} {told : List OrderHandle}

/-- What telling the order book of these orders leaves of the others, and of the trips (R86, R154, R171). -/
structure Aftermath (s t : State) (told : List OrderHandle) : Prop where
  working : ∀ z ord, s.order z = some ord → z ∉ told → ord.stage = .queued ∨ ord.stage = .preparing ∨ ord.stage = .onTrip →
    t.order z = some ord
  parked : ∀ z ord, s.order z = some ord → z ∉ told → ord.stage = .parked →
    ord.Follows (fun g m => (s.program g).isDue m = true) s.prepLimit (t.order z)
  ready : ∀ z ord, s.order z = some ord → z ∉ told → ord.stage = .ready → ord.trip = none →
    t.order z = some ord ∨ ∃ k st, (s.trip k).state ≠ .out ∧ (∃ o ∈ told, o ∈ (s.trip k).orders) ∧
      t.order z = some { ord with trip := some k, stage := st }
  seated : ∀ z ord, s.order z = some ord → z ∉ told → ord.stage = .ready → ord.trip ≠ none →
    ∃ st, t.order z = some { ord with stage := st }
  free : ∀ z, s.order z = none → t.order z = none
  unparked : ∀ z ∈ told, ∀ x, t.order z = some x → x.stage ≠ .parked
  trips : ∀ k, (∀ z ∈ (s.trip k).orders, z ∉ told) → t.trip k = s.trip k
  out : ∀ k, (s.trip k).state = .out → t.trip k = s.trip k
  dry : (∀ z ∈ told, ∀ n j, (z, j) ∉ (s.station n).queue) → t.stations = s.stations ∧
    ∀ z ord, s.order z = some ord → z ∉ told → ord.stage = .parked → t.order z = some ord
  programs : t.programs = s.programs
  prepLimit : t.prepLimit = s.prepLimit

/-- An order READY or on its way, where its trip is known. -/
theorem TripLaw.stage_of_trip (h : TripLaw s) (ho : s.order o = some ord) (htrip : ord.trip ≠ none) :
    ord.stage = .ready ∨ ord.stage = .onTrip := by
  obtain ⟨k, hk⟩ := Option.ne_none_iff_exists'.mp htrip
  have e := (h.stages o ord k ho hk).2
  split at e
  · exact .inr e
  · exact .inl e

namespace Aftermath

theorem of_free (h : ∀ z ∈ told, s.order z = none) : Aftermath s s told where
  working _ _ hz _ _ := hz
  parked _ ord hz _ _ := hz ▸ Order.Follows.refl ord _ _
  ready _ _ hz _ _ _ := .inl hz
  seated _ ord hz _ _ _ := ⟨ord.stage, hz⟩
  free _ hz := hz
  unparked z hz _ hx := nomatch (h z hz).symm.trans hx
  trips _ _ := rfl
  out _ _ := rfl
  dry _ := ⟨rfl, fun _ _ hz _ _ => hz⟩
  programs := rfl
  prepLimit := rfl

/-- A seated order stays seated. -/
theorem seats (h : Aftermath s t told) (ht : TripLaw s) (hz : s.order z = some ord) (hnot : z ∉ told) (htrip : ord.trip ≠ none) :
    ∃ st, t.order z = some { ord with stage := st } := by
  rcases ht.stage_of_trip hz htrip with e | e
  · exact h.seated z ord hz hnot e htrip
  · exact ⟨ord.stage, h.working z ord hz hnot (.inr (.inr e))⟩

/-- An order that is PARKED afterwards was PARKED before. -/
theorem parked_before (h : Aftermath s t told) (ht : TripLaw t) {x : Order} (hnot : z ∉ told) (hx : t.order z = some x)
    (hparked : x.stage = .parked) : ∃ y, s.order z = some y ∧ y.stage = .parked := by
  cases hy : s.order z with
  | none =>
    rw [h.free z hy] at hx
    cases hx
  | some y =>
    refine ⟨y, rfl, ?_⟩
    have hseat : x.trip = none := by
      by_contra htrip
      rcases ht.stage_of_trip hx htrip with e | e <;> rw [hparked] at e <;> cases e
    have hsame (e : t.order z = some y) : y.stage = .parked := by
      rw [hx] at e
      cases e
      exact hparked
    cases hst : y.stage with
    | parked => rfl
    | queued => exact hst ▸ hsame (h.working z y hy hnot (.inl hst))
    | preparing => exact hst ▸ hsame (h.working z y hy hnot (.inr (.inl hst)))
    | onTrip => exact hst ▸ hsame (h.working z y hy hnot (.inr (.inr hst)))
    | ready =>
      by_cases htrip : y.trip = none
      · obtain e | ⟨k, st, -, -, e⟩ := h.ready z y hy hnot hst htrip
        · exact hst ▸ hsame e
        · rw [hx] at e
          cases e
          cases hseat
      · obtain ⟨st, e⟩ := h.seated z y hy hnot hst htrip
        rw [hx] at e
        cases e
        exact absurd hseat htrip

theorem trans {told' : List OrderHandle} (h : Aftermath s u told) (h' : Aftermath u t told') (hu : TripLaw u) (ht : TripLaw t) :
    Aftermath s t (told ++ told') := by
  have hnot {z : OrderHandle} (hz : z ∉ told ++ told') : z ∉ told ∧ z ∉ told' :=
    ⟨fun e => hz (List.mem_append_left _ e), fun e => hz (List.mem_append_right _ e)⟩
  have hkept {k : TripHandle} (hk : ∀ z ∈ (s.trip k).orders, z ∉ told) : u.trip k = s.trip k := h.trips k hk
  have hcalls {g : FieldNo} {m : ReleaseMode} : (u.program g).isDue m = true ↔ (s.program g).isDue m = true := by
    rw [State.program, h.programs]
    rfl
  refine ⟨fun z ord hz hn hst => ?_, fun z ord hz hn hst => ?_, fun z ord hz hn hst hno => ?_, fun z ord hz hn hst hon => ?_,
    fun z hz => h'.free z (h.free z hz), fun z hz x hx => ?_, fun k hk => ?_, fun k hk => ?_, fun hdry => ?_,
    h'.programs.trans h.programs, h'.prepLimit.trans h.prepLimit⟩
  · exact h'.working z ord (h.working z ord hz (hnot hn).1 hst) (hnot hn).2 hst
  · obtain ⟨due, hmono, hdue, hu'⟩ | hu' := h.parked z ord hz (hnot hn).1 hst
    · obtain ⟨due', hmono', hdue', ht'⟩ | ht' := h'.parked z _ hu' (hnot hn).2 hst
      · exact .inl ⟨due', fun e => hmono' (hmono e), fun e => (hdue' e).elim hdue fun e => .inr (hcalls.mp e), ht'⟩
      · exact .inr (ht'.trans (by rw [h.prepLimit]; rfl))
    · exact .inr (h'.working z _ hu' (hnot hn).2 (.inl rfl))
  · obtain hu' | ⟨k, st, hout, hmem, hu'⟩ := h.ready z ord hz (hnot hn).1 hst hno
    · refine (h'.ready z ord hu' (hnot hn).2 hst hno).imp id fun ⟨k, st, hout, ⟨o, ho, hmem⟩, ht'⟩ => ⟨k, st, ?_, ?_, ht'⟩
      · exact fun e => hout ((congrArg Trip.state (h.out k e)).trans e)
      · by_cases hk : ∀ z ∈ (s.trip k).orders, z ∉ told
        · exact ⟨o, List.mem_append_right _ ho, hkept hk ▸ hmem⟩
        · push Not at hk
          obtain ⟨o', hmem', ho'⟩ := hk
          exact ⟨o', List.mem_append_left _ ho', hmem'⟩
    · obtain ⟨st', ht'⟩ := h'.seats hu hu' (hnot hn).2 (by simp)
      obtain ⟨o, ho, hk⟩ := hmem
      exact .inr ⟨k, st', hout, ⟨o, List.mem_append_left _ ho, hk⟩, ht'⟩
  · obtain ⟨st, hu'⟩ := h.seated z ord hz (hnot hn).1 hst hon
    have hseated := h'.seats hu hu' (hnot hn).2 hon
    exact hseated
  · by_cases hz' : z ∈ told'
    · exact h'.unparked z hz' x hx
    · have hz : z ∈ told := (List.mem_append.mp hz).resolve_right hz'
      intro hparked
      obtain ⟨y, hy, hst⟩ := h'.parked_before ht hz' hx hparked
      exact h.unparked z hz y hy hst
  · have hk' : ∀ z ∈ (s.trip k).orders, z ∉ told := fun z hz => (hnot (hk z hz)).1
    refine (h'.trips k fun z hz => ?_).trans (hkept hk')
    rw [hkept hk'] at hz
    exact (hnot (hk z hz)).2
  · exact (h'.out k ((congrArg Trip.state (h.out k hk)).trans hk)).trans (h.out k hk)
  · obtain ⟨hstations, hstand⟩ := h.dry fun z hz => hdry z (List.mem_append_left _ hz)
    obtain ⟨hstations', hstand'⟩ := h'.dry fun z hz n j => by
      rw [State.station, hstations]
      exact hdry z (List.mem_append_right _ hz) n j
    exact ⟨hstations'.trans hstations, fun z ord hz hn hst => hstand' z ord (hstand z ord hz (hnot hn).1 hst) (hnot hn).2 hst⟩

end Aftermath

theorem Loosed.marked (h : Loosed o s v) (hq : QueueLaw s) : Marked v := by
  refine ⟨h.parked ▸ hq.parkedOnce.erase o, fun z hz => ?_, fun z x hx hdue => ?_⟩
  · obtain ⟨hz, hmem⟩ := hq.parkedOnce.mem_erase_iff.mp (h.parked ▸ hz)
    obtain ⟨ord, hord, hstage⟩ := (hq.parked z).mp hmem
    exact ⟨ord, h.working z ord hz hord (by simp [hstage]), hstage⟩
  · by_cases hz : z = o
    · subst hz
      rw [(h.own x hx).1] at hdue
      cases hdue
    · cases hy : s.order z with
      | none => rw [h.free z hz hy] at hx; cases hx
      | some y =>
        by_cases hready : y.stage = .ready
        · have hidle : y.due = true → False := fun e => by
            have := hq.due z y hy e
            rw [hready] at this
            cases this
          have hkept : x.due = y.due := by
            by_cases htrip : y.trip = none
            · obtain e | ⟨k, st, -, -, e, -⟩ := h.ready z y hz hy hready htrip <;> rw [hx] at e <;> cases e <;> rfl
            · obtain ⟨st, e, -⟩ := h.seated z y hz hy hready htrip
              rw [hx] at e
              cases e
              rfl
          exact absurd (hkept ▸ hdue) hidle
        · have e := h.working z y hz hy hready
          rw [hx] at e
          cases e
          exact hq.due z _ hy hdue

/-- An order is taken out, and what follows a fall follows where it left a queue. -/
theorem Loosed.aftermath (h : Loosed o s v) (hq : QueueLaw s) (ho : s.order o = some ord)
    (hend : (t = v ∧ ((∀ n j, (o, j) ∉ (s.station n).queue) → v.stations = s.stations)) ∨
      (t = v.afterFall ∧ ∃ n j, (o, j) ∈ (s.station n).queue)) : Aftermath s t [o] := by
  have hmarked := h.marked hq
  have hfell : Fell (fun f m => (v.program f).isDue m = true) v t := by
    rcases hend with ⟨rfl, -⟩ | ⟨rfl, -⟩
    · exact Fell.of_orders rfl rfl
    · exact fell_afterFall hmarked
  have hfree {z : OrderHandle} (hz : v.order z = none) : t.order z = none := by
    rcases hend with ⟨rfl, -⟩ | ⟨rfl, -⟩
    · exact hz
    · exact ((Unparked.afterFall v).orders z (.inr hz)).trans hz
  have hother {z : OrderHandle} (hz : z ∉ [o]) : z ≠ o := fun e => hz (e ▸ List.mem_singleton_self _)
  have hprogram (g : FieldNo) : v.program g = s.program g := congrArg (look · g) h.programs
  have htrip (k : TripHandle) (hk : o ∉ (s.trip k).orders ∨ (s.trip k).state = .out) : t.trip k = s.trip k :=
    (congrArg (look · k) hfell.trips).trans (h.trips k hk)
  refine ⟨fun z ord hz hn hst => ?_, fun z ord hz hn hst => ?_, fun z ord hz hn hst hno => ?_, fun z ord hz hn hst hon => ?_,
    fun z hz => ?_, fun z hz x hx => ?_, fun k hk => ?_, fun k hk => htrip k (.inr hk), fun hdry => ?_, ?_, ?_⟩
  · exact hfell.working z ord (h.working z ord (hother hn) hz (by rcases hst with e | e | e <;> simp [e]))
      (by rcases hst with e | e | e <;> simp [e])
  · have hfollows := hfell.parked z ord (h.working z ord (hother hn) hz (by simp [hst])) hst
    simp only [hprogram, h.prepLimit] at hfollows
    exact hfollows
  · obtain e | ⟨k, st, hout, hmem, e, hstage⟩ := h.ready z ord (hother hn) hz hst hno
    · exact .inl (hfell.working z ord e (by simp [hst]))
    · exact .inr ⟨k, st, hout, ⟨o, List.mem_singleton_self _, hmem⟩, hfell.working z _ e hstage⟩
  · obtain ⟨st, e, hstage⟩ := h.seated z ord (hother hn) hz hst hon
    exact ⟨st, hfell.working z _ e hstage⟩
  · refine hfree (h.free z ?_ hz)
    rintro rfl
    rw [ho] at hz
    cases hz
  · obtain rfl := List.mem_singleton.mp hz
    cases hv : v.order z with
    | none => rw [hfree hv] at hx; cases hx
    | some y =>
      have hy := (h.own y hv).2
      rw [hfell.working z y hv hy] at hx
      cases hx
      exact hy
  · exact htrip k (.inl fun hmem => hk o hmem (List.mem_singleton_self _))
  · rcases hend with ⟨rfl, hstations⟩ | ⟨-, n, j, hmem⟩
    · exact ⟨hstations (hdry o (List.mem_singleton_self _)), fun z ord hz hn hst => h.working z ord (hother hn) hz (by simp [hst])⟩
    · exact absurd hmem (hdry o (List.mem_singleton_self _) n j)
  · rcases hend with ⟨rfl, -⟩ | ⟨rfl, -⟩
    · exact h.programs
    · exact Eq.trans (by simp) h.programs
  · rcases hend with ⟨rfl, -⟩ | ⟨rfl, -⟩
    · exact h.prepLimit
    · exact Eq.trans (by simp) h.prepLimit

/-! ### The orders of a retired car -/

/-- The retirement of an order that is not on its way. -/
theorem loosed_retireOrder {b : State} {x : Order} (ht : TripLaw s) (ho : s.order o = some ord) (hstage : ord.stage ≠ .onTrip)
    (hx : b.order o = some x) (htrip : x.trip = ord.trip) (hothers : ∀ z, z ≠ o → b.order z = s.order z)
    (htrips : b.trips = s.trips) (hready : b.readyList = s.readyList) (hparked : b.parked = s.parked)
    (hprograms : b.programs = s.programs) (hlimit : b.prepLimit = s.prepLimit) :
    ∃ v, Loosed o s v ∧ ((∃ n k, (o, k) ∈ (b.station n).queue) → b.retireOrder o = v.afterFall) ∧
      ((¬ ∃ n k, (o, k) ∈ (b.station n).queue) → b.retireOrder o = v ∧ v.stations = b.stations) := by
  obtain ⟨hfell, hstood⟩ := b.retireOrder_spec o x hx
  refine ⟨((b.untold o).offTrip o ord.trip).freed o (b.unlisted o x.car),
    loosed_freed ht ho hstage hothers htrips hready hparked hprograms hlimit _, fun h => ?_, fun h => ⟨?_, ?_⟩⟩
  · rw [← htrip]
    exact hfell h
  · rw [← htrip]
    exact hstood h
  · refine (offTrip_frame (b.untold o) o ord.trip).2.2.trans (table_ext fun n => (look_ofFn _ n).trans ?_)
    have hqueue : ((b.station n).queue.filter fun e => !(e.1 == o)) = (b.station n).queue := List.filter_eq_self.mpr fun e he => by
      have hne : e.1 ≠ o := fun eq => h ⟨n, e.2, eq ▸ he⟩
      simp [hne]
    rw [hqueue]
    rfl

/-- The cancel of a PREPARING order without a car. -/
theorem aftermath_cancelPreparing (h : ListsLaw s) (ho : s.order o = some ord) (hstage : ord.stage = .preparing) :
    Aftermath s ((s.carless o ord).cancelAtStage o ord.carless) [o] := by
  obtain ⟨hq, ht⟩ := h
  obtain ⟨-, -, -, hpendFell, hpendStood, hsettleFell, hsettleStood⟩ := (s.carless o ord).cancelAtStage_spec o ord.carless
  let x : Order := { ord.carless with cancelPending := true, timer := none }
  let w : State := { s.carless o ord with
    stations := Vector.ofFn fun n => { s.station n with
      queue := (s.station n).queue.filter fun e => !(e.1 == o && ord.carless.lines[e.2]?.map OrderLine.state == some .waiting) }
    orders := put (s.carless o ord).orders o (some x) }
  have hw (z : OrderHandle) (hz : z ≠ o) : w.order z = s.order z := (look_put_ne _ _ hz.symm).trans (look_put_ne _ _ hz.symm)
  obtain ⟨n, k, hmem⟩ := hq.unfinished o ord ho (.inr hstage)
  by_cases hstove : ∃ n k, (o, k) ∈ (s.station n).queue ∧
      ((o, k).1 == o && ord.carless.lines[(o, k).2]?.map OrderLine.state == some .waiting) = false
  · have hloosed : Loosed o s w := loosed_of_same hq ho (by simp [hstage]) hw ⟨x, look_put_self _ _ _, rfl, rfl⟩ rfl rfl rfl rfl
    refine hloosed.aftermath hq ho ?_
    by_cases hfell : ∃ n k, (o, k) ∈ (s.station n).queue ∧
        ((o, k).1 == o && ord.carless.lines[(o, k).2]?.map OrderLine.state == some .waiting) = true
    · exact .inr ⟨hpendFell hstage hstove hfell, n, k, hmem⟩
    · exact .inl ⟨hpendStood hstage hstove hfell, fun hdry => absurd hmem (hdry n k)⟩
  · let noted : Attention := { s.attention with
      causes := s.attention.causes ||| 0x40#10
      notes := if s.attention.notes.length < 8 then s.attention.notes ++ [(o, .cancelSettled)] else s.attention.notes
      overflow := if s.attention.notes.length < 8 then s.attention.overflow else true }
    let b := w.toldCancel none
      (s.wasteBank ((ord.lines.filter fun l => l.state == .finished).map OrderLine.quantity).sum) noted
    have hempty : ¬ ∃ n k, (o, k) ∈ (b.station n).queue := by
      rintro ⟨n, k, hmem⟩
      have hqueue : (b.station n).queue = (s.station n).queue.filter fun e =>
          !(e.1 == o && ord.carless.lines[e.2]?.map OrderLine.state == some .waiting) := congrArg Station.queue (look_ofFn _ n)
      rw [hqueue, List.mem_filter, Bool.not_eq_true'] at hmem
      exact hstove ⟨n, k, hmem.1, hmem.2⟩
    obtain ⟨v, hloosed, -, hstood⟩ := loosed_retireOrder (b := b) ht ho (by simp [hstage]) (look_put_self _ _ _) rfl hw rfl rfl rfl rfl rfl
    refine hloosed.aftermath hq ho (.inr ⟨?_, n, k, hmem⟩)
    have hfell : ∃ n k, (o, k) ∈ (s.station n).queue ∧
        ((o, k).1 == o && ord.carless.lines[(o, k).2]?.map OrderLine.state == some .waiting) = true := by
      refine ⟨n, k, hmem, ?_⟩
      by_contra hno
      exact hstove ⟨n, k, hmem, Bool.eq_false_iff.mpr hno⟩
    refine (hsettleFell hstage hstove hfell).trans (congrArg State.afterFall ?_)
    exact (hstood hempty).1

/-- What the loss of a car makes of one order leaves the others so. -/
theorem aftermath_orderLosesCar (h : ListsLaw s) (o : OrderHandle) : Aftermath s (s.orderLosesCar o) [o] := by
  cases ho : s.order o with
  | none =>
    have hsame : s.orderLosesCar o = s := by rw [State.orderLosesCar, ho]
    rw [hsame]
    exact Aftermath.of_free fun z hz => by rwa [List.mem_singleton.mp hz]
  | some ord =>
    have hothers (z : OrderHandle) (hz : z ≠ o) : (s.carless o ord).order z = s.order z := look_put_ne _ _ hz.symm
    by_cases hstands : ord.stage = .onTrip ∨ ord.cancelPending = true
    · rw [orderLosesCar_stands ho hstands]
      have hparked : ord.stage ≠ .parked := fun e => by
        rcases hstands with hst | hcancel
        · rw [e] at hst
          cases hst
        · rw [(h.1.waiting o ord ho (.inl e)).1] at hcancel
          cases hcancel
      exact (loosed_of_same h.1 ho hparked hothers ⟨ord.carless, look_put_self _ _ _, rfl, rfl⟩ rfl rfl rfl rfl).aftermath h.1 ho
        (.inl ⟨rfl, fun _ => rfl⟩)
    · rw [not_or, Bool.not_eq_true] at hstands
      rw [orderLosesCar_cancels ho hstands.1 hstands.2]
      have hretires {b : State} (hb : b = { s.carless o ord with tallies := b.tallies, entries := b.entries, attention := b.attention })
          (ht : (s.carless o ord).cancelAtStage o ord.carless = b.retireOrder o) :
          Aftermath s ((s.carless o ord).cancelAtStage o ord.carless) [o] := by
        have horder (z : OrderHandle) : b.order z = (s.carless o ord).order z := (congrArg (fun u : State => u.order z) hb :)
        have hstation (n : StationNo) : b.station n = s.station n := (congrArg (fun u : State => u.station n) hb :)
        obtain ⟨v, hloosed, hfell, hstood⟩ := loosed_retireOrder (b := b) h.2 ho hstands.1
          ((horder o).trans (order_carless s o ord)) rfl (fun z hz => (horder z).trans (hothers z hz))
          (congrArg State.trips hb :) (congrArg State.readyList hb :) (congrArg State.parked hb :) (congrArg State.programs hb :)
          (congrArg State.prepLimit hb :)
        refine hloosed.aftermath h.1 ho ?_
        by_cases hlines : ∃ n k, (o, k) ∈ (b.station n).queue
        · refine .inr ⟨ht.trans (hfell hlines), ?_⟩
          simpa only [hstation] using hlines
        · obtain ⟨hv, hstations⟩ := hstood hlines
          exact .inl ⟨ht.trans hv, fun _ => hstations.trans (congrArg State.stations hb :)⟩
      obtain ⟨hloose, hready⟩ := cancelAtStage_retires (order_carless s o ord)
      cases hst : ord.stage with
      | parked => exact hretires rfl (hloose (.inl hst)).1
      | queued => exact hretires rfl (hloose (.inr hst)).1
      | preparing => exact aftermath_cancelPreparing h ho hst
      | ready => exact hretires rfl (hready hst).1
      | onTrip => exact absurd hst hstands.1

theorem aftermath_ordersLoseCar (h : ListsLaw s) (os : List OrderHandle) :
    Aftermath s (s.ordersLoseCar os) os ∧ ListsLaw (s.ordersLoseCar os) := by
  induction os generalizing s with
  | nil => exact ⟨Aftermath.of_free fun _ hz => (nomatch hz), h⟩
  | cons o rest ih =>
    have hstep := listsLaw_orderLosesCar h o
    obtain ⟨hrest, hlaw⟩ := ih hstep
    exact ⟨(aftermath_orderLosesCar h o).trans hrest hstep.2 hlaw.2, hlaw⟩

end Sys2Proof.Machine
end

section
/-! PROOF. The orders on no list of a retired car once the field has gone DARK (R86, R154, R161, R171). -/

namespace Sys2Proof.Machine
variable {s t u : State} {z : OrderHandle} {ord : Order} {f : FieldNo}

/-! ### Trips held for the field go out -/

/-- What the trips held for a field leave as they go OUT: each trip as it was or OUT, each order but its stage. -/
structure SentOut (f : FieldNo) (s t : State) : Prop where
  trips : ∀ k, t.trip k = s.trip k ∨ (s.trip k).state = .fieldHold ∧ (s.trip k).field = some f ∧ (t.trip k).state = .out
  orders : ∀ z ord, s.order z = some ord →
    (ord.stage ≠ .ready ∨ ord.trip = none → t.order z = some ord) ∧ ∃ st, t.order z = some { ord with stage := st }

theorem SentOut.refl (f : FieldNo) (s : State) : SentOut f s s :=
  ⟨fun _ => .inl rfl, fun _ ord hz => ⟨fun _ => hz, ord.stage, hz⟩⟩

theorem sentOut_dispatch (ht : TripLaw s) (h : SentOut f s t) {k : TripHandle} (hstate : (t.trip k).state = .fieldHold)
    (hfield : (t.trip k).field = some f) : SentOut f s (t.dispatch k) := by
  have hk : t.trip k = s.trip k := (h.trips k).resolve_right fun e => by
    rw [e.2.2] at hstate
    cases hstate
  obtain ⟨horders, hframe⟩ := t.dispatch_spec k
  have htrips : (t.dispatch k).trips = put t.trips k { t.trip k with state := .out, timer := none } := (congrArg State.trips hframe :)
  refine ⟨fun j => ?_, fun z ord hz => ?_⟩
  · by_cases hj : j = k
    · subst hj
      rw [hk] at hstate hfield
      exact .inr ⟨hstate, hfield, congrArg Trip.state ((congrArg (look · j) htrips).trans (look_put_self _ _ _))⟩
    · rw [show (t.dispatch k).trip j = t.trip j from (congrArg (look · j) htrips).trans (look_put_ne _ _ (Ne.symm hj))]
      exact h.trips j
  · obtain ⟨hsame, st, hst⟩ := h.orders z ord hz
    rw [horders]
    by_cases hmem : z ∈ (t.trip k).orders
    · rw [if_pos hmem]
      refine ⟨fun hor => ?_, .onTrip, by rw [hst]; rfl⟩
      rw [hk] at hmem hstate
      obtain ⟨y, hy, htrip⟩ := (ht.members k z).mp hmem
      rw [hz] at hy
      cases hy
      have hready := (ht.stages z _ k hz htrip).2
      rw [if_neg (by rw [hstate]; simp)] at hready
      rcases hor with e | e
      · exact absurd hready e
      · rw [htrip] at e
        cases e
    · rw [if_neg hmem]
      exact ⟨hsame, st, hst⟩

theorem sentOut_releaseFieldHold (ht : TripLaw s) (f : FieldNo) : SentOut f s (s.releaseFieldHold f) := by
  unfold State.releaseFieldHold
  split
  · refine State.forEach_induct (SentOut f s) s _ _ (fun k t _ h => ?_) (SentOut.refl f s)
    split
    · rename_i hheld
      rw [Bool.and_eq_true, beq_iff_eq, beq_iff_eq] at hheld
      exact sentOut_dispatch ht h hheld.1 hheld.2
    · exact h
  · exact SentOut.refl f s

/-! ### The change to DARK -/

/-- A due check that finds no PARKED order of the field does nothing. -/
theorem dueCheckField_idle (h : ∀ z ∈ s.parked, ∀ ord, s.order z = some ord → ord.field ≠ f) : s.dueCheckField f = s := by
  refine if_neg fun hdue => ?_
  obtain ⟨z, hz, hdue⟩ := List.any_eq_true.mp hdue
  obtain ⟨ord, hord, hdue⟩ := (Option.any_eq_true ..).mp hdue
  rw [Bool.and_eq_true, beq_iff_eq] at hdue
  exact h z hz ord hord hdue.1

/-- The orders that the book is not told of, once it has been told of the others and of the change to DARK. -/
theorem othersStand_fieldChange {told : List OrderHandle} (hs : ListsLaw s) (h : Aftermath s u told) (hu : ListsLaw u)
    {y : State} (horders : y.orders = u.orders) (hparked : y.parked = u.parked) (htrips : y.trips = u.trips)
    (hstations : y.stations = u.stations) (hready : y.readyList = u.readyList) (hlimit : y.prepLimit = u.prepLimit) :
    OthersStand s (y.fieldChange f) f told := by
  have order (z : OrderHandle) : y.order z = u.order z := congrArg (look · z) horders
  have hy : ListsLaw y := ⟨queueLaw_stands (OrdersKeep.of_orders horders) hparked hstations hu.1,
    tripLaw_congr (OrdersKeep.of_orders horders) (trips_stand htrips) hready hu.2⟩
  have hlaw : ListsLaw (y.fieldChange f) := reportable_listsLaw.fieldChange f hy
  let noted := y.raiseSegment f
  have hnoted : ListsLaw noted := reportable_listsLaw.frame hy ⟨rfl, rfl, rfl, rfl, rfl, rfl, rfl, rfl, rfl⟩
  have hchecked : ListsLaw (noted.dueCheckField f) := reportable_listsLaw.dueCheckField f hnoted
  have hfell : Fell (fun g _ => g = f) noted (noted.dueCheckField f) := fell_dueCheckField hnoted.1.marked f
  have hsent : SentOut f (noted.dueCheckField f) (y.fieldChange f) := sentOut_releaseFieldHold hchecked.2 f
  generalize y.fieldChange f = t at hlaw hsent
  have hworks {z : OrderHandle} {x : Order} (hz : u.order z = some x) (hst : x.stage ≠ .parked) :
      (noted.dueCheckField f).order z = some x := hfell.working z x ((order z).trans hz) hst
  have hstands {z : OrderHandle} {x : Order} (hz : u.order z = some x) (hst : x.stage ≠ .parked)
      (hfree : x.stage ≠ .ready ∨ x.trip = none) : t.order z = some x := (hsent.orders z x (hworks hz hst)).1 hfree
  have hseated {z : OrderHandle} {x : Order} (hz : u.order z = some x) (hst : x.stage ≠ .parked) :
      ∃ st, t.order z = some { x with stage := st } := (hsent.orders z x (hworks hz hst)).2
  have htrip (k : TripHandle) (hk : (u.trip k).state = .fieldHold → (u.trip k).field ≠ some f) : t.trip k = u.trip k := by
    have hsame : (noted.dueCheckField f).trip k = u.trip k :=
      (congrArg (look · k) hfell.trips).trans (congrArg (look · k) htrips)
    refine ((hsent.trips k).resolve_right fun e => ?_).trans hsame
    rw [hsame] at e
    exact hk e.1 e.2.1
  have hnotParked {z : OrderHandle} {x : Order} (hz : u.order z = some x) (hon : x.trip ≠ none) : x.stage ≠ .parked := fun e => by
    rcases hu.2.stage_of_trip hz hon with e' | e' <;> rw [e] at e' <;> cases e'
  refine ⟨fun z ord hz hn hst => ?_, fun z ord hz hn hst => ?_, fun hdry hnone z ord hz hn hst => ?_, fun z ord hz hn hmem => ?_,
    fun k hk => ?_, fun k hk hheld => ⟨?_, fun z hz => ?_⟩⟩
  · refine hstands (h.working z ord hz hn hst) ?_ (.inl ?_) <;> rcases hst with e | e | e <;> simp [e]
  · have hreleased (ht : t.order z = some (ord.released s.prepLimit)) : z ∉ t.parked := fun hmem => by
      obtain ⟨x, hx, hx'⟩ := (hlaw.1.parked z).mp hmem
      rw [ht] at hx
      cases hx
      cases hx'
    obtain ⟨due, hmono, hdue, hz'⟩ | hz' := h.parked z ord hz hn hst
    · obtain ⟨due', hmono', hdue', hm⟩ | hm := hfell.parked z _ ((order z).trans hz') hst
      · have ht := (hsent.orders z _ hm).1 (.inl (by simp [hst]))
        refine .inl ⟨due', ht, (hlaw.1.parked z).mpr ⟨_, ht, hst⟩, fun e => hmono' (hmono e), fun e => ?_⟩
        rcases hdue' e with e | e
        · exact (hdue e).imp id .inr
        · exact .inr (.inl e)
      · have ht := (hsent.orders z _ hm).1 (.inl (fun e => nomatch e))
        rw [show noted.prepLimit = s.prepLimit from hlimit.trans h.prepLimit] at ht
        exact .inr ⟨ht, hreleased ht⟩
    · have ht := hstands hz' (fun e => nomatch e) (.inl fun e => nomatch e)
      exact .inr ⟨ht, hreleased ht⟩
  · obtain ⟨-, hsame⟩ := h.dry hdry
    have hidle : noted.dueCheckField f = noted := dueCheckField_idle fun o ho x hx hfield => by
      obtain ⟨x', hx', hst'⟩ := (hu.1.parked o).mp (hparked ▸ ho)
      have hx : u.order o = some x := (order o).symm.trans hx
      rw [hx] at hx'
      cases hx'
      by_cases hmem : o ∈ told
      · exact h.unparked o hmem x hx hst'
      · obtain ⟨y, hy, hy'⟩ := h.parked_before hu.2 hmem hx hst'
        have e := hsame o y hy hmem hy'
        rw [hx] at e
        cases e
        exact hmem (hnone o x hy hy' hfield)
    refine (hsent.orders z ord ?_).1 (.inl (by simp [hst]))
    rw [hidle]
    exact (order z).trans (hsame z ord hz hn hst)
  · obtain ⟨x, hx, hst, hno⟩ := (hs.2.ready z).mp hmem
    rw [hz] at hx
    cases hx
    obtain hz' | ⟨k, st, hout, hold, hz'⟩ := h.ready z ord hz hn hst hno
    · have ht := hstands hz' (by simp [hst]) (.inr hno)
      exact .inl ⟨ht, (hlaw.2.ready z).mpr ⟨ord, ht, hst, hno⟩⟩
    · obtain ⟨st', ht⟩ := hseated hz' (hnotParked hz' (by simp))
      obtain ⟨hfield, hstage⟩ := hlaw.2.stages z _ k ht rfl
      have hstage : st' = if (t.trip k).state = .out then .onTrip else .ready := hstage
      refine .inr ⟨k, hout, hold, (hlaw.2.members k z).mpr ⟨_, ht, rfl⟩, hfield, ?_⟩
      rw [← hstage]
      exact ht
  · refine (htrip k fun e => ?_).trans (h.out k hk)
    rw [h.out k hk, hk] at e
    cases e
  · refine (htrip k fun e => ?_).trans (h.trips k hk)
    rw [h.trips k hk] at e ⊢
    exact hheld e
  · have hkept : t.trip k = s.trip k := by
      refine (htrip k fun e => ?_).trans (h.trips k hk)
      rw [h.trips k hk] at e ⊢
      exact hheld e
    obtain ⟨ord, hord, hon⟩ := (hs.2.members k z).mp hz
    have hne : ord.trip ≠ none := by simp [hon]
    obtain ⟨st, hz'⟩ := h.seats hs.2 hord (hk z hz) hne
    obtain ⟨st', ht⟩ := hseated hz' (hnotParked hz' hne)
    have hstage : st' = _ := (hlaw.2.stages z _ k ht hon).2
    rw [hkept, ← (hs.2.stages z ord k hord hon).2] at hstage
    rw [ht, hord, hstage]

end Sys2Proof.Machine
end

section
/-! PROOF. The change to DARK, and the cars of a field and their sum (R85, R87). -/

namespace Sys2Proof.Machine
variable {s t : State} {f : FieldNo} {h : CarHandle} {c : Car}

/-! ### The change to DARK -/

/-- The program unit of a DARK field. -/
def State.darkProgram (s : State) (f : FieldNo) : ProgramUnit := { carrier := (s.program f).carrier }

/-- The timebase of a DARK field (R94). -/
def State.darkTimebase (s : State) (f : FieldNo) : Timebase := { settings := (s.timebase f).settings }

/-- The full sign of a field off. -/
def State.signOff (s : State) (f : FieldNo) : State := { s with fieldUnits := put s.fieldUnits f { s.unit f with full := false } }

theorem goDark_eq (s : State) (f : FieldNo) :
    s.goDark f = ((s.signOff f).shown f (s.darkProgram f) (s.darkTimebase f)).fieldChange f := rfl

theorem goDark_changed (s : State) (f : FieldNo) :
    FieldChanged (s.signOff f) (s.goDark f) f (s.darkProgram f) (s.darkTimebase f) := fieldChanged_shown _ f _ _

theorem workCloseField_of_field (s : State) (f : FieldNo) (force : Nat) : workCloseField f force s = s.checked
      [(isFlag force, .badArg),
       ((s.program f).state == .opened || (s.program f).state == .ended, .state),
       (force == 1 || (s.unit f).occupancy == 0, .occupied)]
      (if force = 1 then
        ((s.cascade f).goDark f).ok (be2 (s.carsOf f).length ++ [(s.cascadeReport f).lost, (s.cascadeReport f).issuesCancelled] ++
          be2 (s.cascadeReport f).orders)
       else (s.goDark f).ok (be2 0 ++ [0, 0] ++ be2 0)) := by
  unfold workCloseField
  rw [State.withHandle_fin]

/-! ### The cars of a field and their sum -/

theorem filter_filterMap_car (p : Car → Bool) (hs : List CarHandle) :
    (hs.filterMap s.car).filter p = (hs.filter fun h => (s.car h).any p).filterMap s.car := by
  induction hs with
  | nil => rfl
  | cons h rest ih =>
    rw [List.filterMap_cons, List.filter_cons]
    cases hc : s.car h with
    | none => simpa using ih
    | some c =>
      dsimp only
      rw [List.filter_cons, Option.any_some]
      by_cases hp : p c = true
      · rw [if_pos hp, if_pos hp, List.filterMap_cons, hc, ih]
      · rw [if_neg hp, if_neg hp, ih]

/-- The live entries of a field. -/
def State.carList (s : State) (f : FieldNo) : List Car := ((List.finRange 1024).filterMap s.car).filter fun c => c.field == f

theorem carList_eq (s : State) (f : FieldNo) : s.carList f = (s.carsOf f).filterMap s.car := filter_filterMap_car _ _

/-- The handles on the lists of a field's cars. -/
def State.namesOf (s : State) (f : FieldNo) : List OrderHandle := (s.carsOf f).flatMap s.listOf

theorem namesOf_eq (s : State) (f : FieldNo) : (s.carList f).flatMap Car.orders = s.namesOf f := by
  rw [carList_eq, State.namesOf]
  induction s.carsOf f with
  | nil => rfl
  | cons h rest ih =>
    rw [List.filterMap_cons, List.flatMap_cons, ← ih, State.listOf]
    cases s.car h <;> rfl

theorem carList_eq_nil (s : State) (f : FieldNo) : s.carList f = [] ↔ s.carsOf f = [] := by
  rw [carList_eq, List.filterMap_eq_nil_iff]
  constructor
  · intro hnone
    refine List.eq_nil_iff_forall_not_mem.mpr fun h hh => ?_
    obtain ⟨c, hc, -⟩ := mem_carsOf.mp hh
    rw [hnone h hh] at hc
    cases hc
  · intro e h hh
    rw [e] at hh
    cases hh

theorem mem_namesOf {o : OrderHandle} : o ∈ s.namesOf f ↔ ∃ h c, s.car h = some c ∧ c.field = f ∧ o ∈ c.orders := by
  unfold State.namesOf
  rw [List.mem_flatMap]
  constructor
  · rintro ⟨h, hh, ho⟩
    obtain ⟨c, hc, hf⟩ := mem_carsOf.mp hh
    rw [State.listOf, hc] at ho
    exact ⟨h, c, hc, hf, ho⟩
  · rintro ⟨h, c, hc, hf, ho⟩
    refine ⟨h, mem_carsOf.mpr ⟨c, hc, hf⟩, ?_⟩
    rw [State.listOf, hc]
    exact ho

/-- A sum over the cars of a field. -/
theorem sum_carList (s : State) (f : FieldNo) (g : Car → Nat) :
    ((s.carsOf f).filterMap fun h => (s.car h).map g).sum =
      (((List.finRange 1024).filterMap s.car).map fun c => if c.field = f then g c else 0).sum := by
  unfold State.carsOf
  induction List.finRange 1024 with
  | nil => rfl
  | cons h rest ih =>
    rw [List.filter_cons, List.filterMap_cons]
    cases hc : s.car h with
    | none => simpa using ih
    | some c =>
      rw [Option.any_some]
      by_cases hf : c.field = f
      · rw [if_pos (by simpa using hf), List.filterMap_cons, hc]
        simp only [Option.map_some, List.sum_cons, List.map_cons, hf, if_true]
        rw [ih]
      · rw [if_neg (by simpa using hf)]
        simp only [List.sum_cons, List.map_cons, hf, if_false, Nat.zero_add]
        exact ih

/-- How many of a field's cars are so. -/
def State.carCount (s : State) (f : FieldNo) (p : Car → Bool) : Nat := countOf fun h => (s.car h).any fun c => c.field == f && p c

theorem sum_flags (s : State) (f : FieldNo) (p : Car → Bool) :
    ((s.carsOf f).filterMap fun h => (s.car h).map fun c => flag (p c)).sum = s.carCount f p := by
  unfold State.carCount countOf State.carsOf
  induction List.finRange 1024 with
  | nil => rfl
  | cons h rest ih =>
    rw [List.filter_cons, List.countP_cons]
    cases hc : s.car h with
    | none => simpa using ih
    | some c =>
      simp only [Option.any_some, Bool.and_eq_true, beq_iff_eq]
      by_cases hf : c.field = f
      · rw [if_pos hf, List.filterMap_cons, hc]
        simp only [Option.map_some, List.sum_cons, hf, true_and]
        rw [ih, Nat.add_comm]
        cases p c <;> rfl
      · rw [if_neg hf]
        simp only [hf, false_and, if_false, Nat.add_zero]
        exact ih

theorem carCount_length (s : State) (f : FieldNo) : (s.carsOf f).length = s.carCount f fun _ => true := by
  unfold State.carsOf State.carCount countOf
  rw [List.countP_eq_length_filter]
  simp only [Bool.and_true]

theorem cascadeReport_eq (s : State) (f : FieldNo) : s.cascadeReport f =
    { lost := s.carCount f fun c => c.lent.any fun n => n.2 == .lent
      issuesCancelled := s.carCount f fun c => c.lent.any fun n => n.2 == .issuing
      orders := (((List.finRange 1024).filterMap s.car).map fun c => if c.field = f then c.orders.length else 0).sum } := by
  have hmap (r : RetireReport → Nat) : ((s.carsOf f).filterMap fun h => (s.car h).map Car.report).map r =
      (s.carsOf f).filterMap fun h => (s.car h).map fun c => r c.report := by
    rw [List.map_filterMap]
    simp only [Option.map_map, Function.comp_def]
  unfold State.cascadeReport
  dsimp only
  rw [hmap, hmap, hmap, ← sum_flags, ← sum_flags, ← sum_carList]
  rfl

end Sys2Proof.Machine
end

section
/-! PROOF. What a forced CLOSE FIELD leaves, record by record (R86, R87). -/

namespace Sys2Proof.Machine

/-! ### A field that goes DARK -/

theorem FieldUnit.full_off {u v : FieldUnit} (h : u = { v with stalls := u.stalls }) :
    { u with full := false } = { v with stalls := u.stalls, full := false } := congrArg (fun w : FieldUnit => { w with full := false }) h

theorem aside_order (s : State) (d : Aside) (o : OrderHandle) : (s.aside d).order o = s.order o := rfl

theorem shown_book (s : State) (f : FieldNo) (p : ProgramUnit) (x : Timebase) : (s.shown f p x).orders = s.orders ∧
    (s.shown f p x).parked = s.parked ∧ (s.shown f p x).trips = s.trips ∧ (s.shown f p x).stations = s.stations ∧
    (s.shown f p x).readyList = s.readyList ∧ (s.shown f p x).prepLimit = s.prepLimit := ⟨rfl, rfl, rfl, rfl, rfl, rfl⟩

theorem othersStand_aside {s t : State} {f : FieldNo} {told : List OrderHandle} (h : OthersStand s t f told) (d : Aside) :
    OthersStand s (t.aside d) f told := ⟨h.working, h.parked, h.notWithdrawn, h.ready, h.out, h.trips⟩

section
variable {c t : State} {f : FieldNo} {p : ProgramUnit} {x : Timebase} (h : FieldChanged (c.signOff f) t f p x)
include h

theorem darkened_records : t.entries = c.entries ∧ t.lanes = c.lanes ∧ t.sets = c.sets ∧
    t.fieldUnits = put c.fieldUnits f { c.unit f with full := false } :=
  ⟨(congrArg State.entries h.rest.frame :), (congrArg State.lanes h.rest.frame :), (congrArg State.sets h.rest.frame :),
    (congrArg State.fieldUnits h.rest.frame :)⟩

theorem darkened_entry (k : CarHandle) : t.entry k = c.entry k := congrArg (look · k) (darkened_records h).1

theorem darkened_lane (l : LaneNo) : t.lane l = c.lane l := congrArg (look · l) (darkened_records h).2.1

theorem darkened_slot (n : SetHandle) : t.slot n = c.slot n := congrArg (look · n) (darkened_records h).2.2.1

theorem darkened_unit (g : FieldNo) : t.unit g = if f = g then { c.unit f with full := false } else c.unit g :=
  (congrArg (look · g) (darkened_records h).2.2.2).trans (look_put _ _ _ _)

theorem darkened_tally {k : Tally} (hk : k ≠ .kitchen .stationDeferrals) : t.tally k = c.tally k := h.tallies k hk

theorem darkened_order (o : OrderHandle) : (t.order o).map Order.kept = (c.order o).map Order.kept := h.rest.orders o

/-- Over records aside from the order book, the change is the book's. -/
theorem darkened_aside {b : State} {d : Aside} (hc : c = b.aside d) : ∃ e : Aside, e.causes = d.causes ∧
    t = ((b.shown f p x).fieldChange f).aside e := by
  subst hc
  refine ⟨{ d with fieldUnits := put d.fieldUnits f { look d.fieldUnits f with full := false } }, rfl, ?_⟩
  exact h.reported.trans (blind_fieldChange f (b.shown f p x)
    { d with fieldUnits := put d.fieldUnits f { look d.fieldUnits f with full := false } })

end

/-! ### What a forced CLOSE FIELD leaves -/

section
variable (s : State) (f : FieldNo)

/-- A forced CLOSE FIELD's work (R85, R86, R87). -/
def State.forcedDark : State := (s.cascade f).goDark f

/-- The order book told of the orders of a field's cars. -/
def State.bookTold : State := s.ordersLoseCar (s.namesOf f)

/-- The cause that the retired cars raise. -/
def State.goneCause : BitVec 10 := if s.carsOf f = [] then 0#10 else 0x100#10

theorem cascade_eq : s.cascade f = s.retireAll (s.carsOf f) := rfl

theorem cascade_aside : ∃ d : Aside, d.causes = s.goneCause f ∧ s.cascade f = (s.bookTold f).aside d :=
  retireAll_aside (liveIn_carsOf s f)

theorem cascade_program : (s.cascade f).program f = s.program f := congrArg (look · f) (by simp)

theorem cascade_timebase : (s.cascade f).timebase f = s.timebase f := congrArg (look · f) (by simp)

theorem forcedDark_changed :
    FieldChanged ((s.cascade f).signOff f) (s.forcedDark f) f (s.darkProgram f) (s.darkTimebase f) := by
  have h := goDark_changed (s.cascade f) f
  unfold State.darkProgram State.darkTimebase at h
  rw [cascade_program, cascade_timebase] at h
  exact h

/-- The book told of the orders, and of the change to DARK. -/
def State.bookDark : State := ((s.bookTold f).shown f (s.darkProgram f) (s.darkTimebase f)).fieldChange f

theorem forcedDark_aside : ∃ e : Aside, e.causes = s.goneCause f ∧ s.forcedDark f = (s.bookDark f).aside e := by
  obtain ⟨d, hcauses, hd⟩ := cascade_aside s f
  obtain ⟨e, he, ht⟩ := darkened_aside (forcedDark_changed s f) hd
  exact ⟨e, he.trans hcauses, ht⟩

theorem forcedDark_units : (∀ g, g ≠ f → (s.forcedDark f).unit g = s.unit g) ∧
    (s.forcedDark f).unit f = { s.unit f with stalls := ((s.cascade f).unit f).stalls, full := false } := by
  obtain ⟨hothers, hown⟩ := retireAll_units (liveIn_carsOf s f)
  rw [← cascade_eq] at hothers hown
  have hunit := darkened_unit (forcedDark_changed s f)
  refine ⟨fun g hg => ?_, ?_⟩
  · rw [hunit, if_neg hg.symm]
    exact hothers g hg
  · rw [hunit, if_pos rfl]
    exact FieldUnit.full_off hown

theorem Stall.exists_index (i : Fin 512) : ∃ st : Stall, st.index = i :=
  ⟨⟨⟨i.val / 32, by omega⟩, ⟨i.val % 32, by omega⟩⟩, Fin.ext (Nat.div_add_mod' i.val 32)⟩

/-- No stall of the field is taken. -/
theorem forcedDark_free (hlaw : StallLaw s) : ((s.cascade f).unit f).stalls = Vector.replicate 512 none := by
  have hcascade := stallLaw_cascade hlaw f
  refine table_ext fun i => ?_
  obtain ⟨st, rfl⟩ := Stall.exists_index i
  have hnone : look (Vector.replicate 512 (none : Option CarHandle)) st.index = none := by simp [look]
  rw [hnone]
  cases hat : look ((s.cascade f).unit f).stalls st.index with
  | none => rfl
  | some h =>
    obtain ⟨c, hc, hf, -⟩ := hcascade.named f st h hat
    exact absurd hf (cascade_empties s f h c hc)

variable {s f} {h : CarHandle} {c : Car}

theorem forcedDark_gone (hcar : s.car h = some c) (hf : c.field = f) :
    (s.forcedDark f).car h = none ∧ ((s.forcedDark f).entry h).touched = true := by
  obtain ⟨hnone, htouched⟩ := retireAll_gone (liveIn_carsOf s f) (mem_carsOf.mpr ⟨c, hcar, hf⟩)
  have hentry := darkened_entry (forcedDark_changed s f) h
  exact ⟨(congrArg Entry.car hentry).trans hnone, (congrArg Entry.touched hentry).trans htouched⟩

theorem forcedDark_entries (hlaw : SetLaw s) (hother : ∀ c, s.car h = some c → c.field ≠ f) :
    (s.forcedDark f).entry h = s.entry h := by
  refine (darkened_entry (forcedDark_changed s f) h).trans (retireAll_entries hlaw (liveIn_carsOf s f) fun hmem => ?_)
  obtain ⟨c, hc, hf⟩ := mem_carsOf.mp hmem
  exact hother c hc hf

theorem forcedDark_lanes (l : LaneNo) :
    (∀ h ∈ s.carsOf f, (s.lane l).served = some h → (s.forcedDark f).lane l = { s.lane l with served := none }) ∧
    ((∀ h ∈ s.carsOf f, (s.lane l).served ≠ some h) → (s.forcedDark f).lane l = s.lane l) := by
  rw [darkened_lane (forcedDark_changed s f)]
  exact retireAll_lanes (liveIn_carsOf s f) l

theorem forcedDark_slots (hlaw : SetLaw s) (n : SetHandle) :
    (∀ h ∈ s.carsOf f, (s.slot n).car = some h →
      ((s.slot n).state = .lent → (s.forcedDark f).slot n = s.slotLost n) ∧
      ((s.slot n).state = .issuing → (s.forcedDark f).slot n = s.slotBack n)) ∧
    ((∀ h ∈ s.carsOf f, (s.slot n).car ≠ some h) → (s.forcedDark f).slot n = s.slot n) := by
  rw [darkened_slot (forcedDark_changed s f)]
  exact retireAll_slots hlaw (liveIn_carsOf s f) n

theorem forcedDark_lost (hlaw : SetLaw s) (hbound : s.tally (.sets .lost) ≤ 65535) : (s.forcedDark f).tally (.sets .lost) =
    min 65535 (s.tally (.sets .lost) + s.carCount f fun c => c.lent.any fun n => n.2 == .lent) := by
  rw [darkened_tally (forcedDark_changed s f) (by simp)]
  refine (retireAll_lost hlaw hbound (liveIn_carsOf s f)).trans ?_
  have hcount : (s.carsOf f).countP s.hasSet = s.carCount f fun c => c.lent.any fun n => n.2 == .lent := by
    unfold State.carsOf State.carCount countOf
    rw [List.countP_filter]
    refine List.countP_congr fun h _ => ?_
    unfold State.hasSet
    cases s.car h with
    | none => simp
    | some c => simp [and_comm]
  rw [hcount]

theorem forcedDark_bank {k : Tally} (hlost : k ≠ .sets .lost) (h1 : k ≠ .kitchen .cancelled) (h2 : k ≠ .kitchen .wasteLines)
    (h3 : k ≠ .kitchen .stationDeferrals) : (s.forcedDark f).tally k = s.tally k := by
  rw [darkened_tally (forcedDark_changed s f) h3]
  by_cases hkitchen : ∃ j, k = .kitchen j
  · obtain ⟨j, rfl⟩ := hkitchen
    obtain ⟨d, -, hd⟩ := cascade_aside s f
    rw [hd, aside_tally_kitchen]
    exact ordersLoseCar_bank s _ h1 h2 h3
  · have hk : ∀ j, k ≠ .kitchen j := fun j e => hkitchen ⟨j, e⟩
    rw [cascade_eq]
    refine retireAll_induct (P := fun t => t.tally k = s.tally k) (fun t h c hcar _ ht => ?_) (liveIn_carsOf s f) rfl
    rw [retireCar_aside hcar, aside_tally hk]
    exact (setAtRetirement_tally hlost t c).trans ht

theorem forcedDark_orders (o : OrderHandle) :
    ((s.forcedDark f).order o).map Order.kept = ((s.bookTold f).order o).map Order.kept := by
  obtain ⟨d, -, hd⟩ := cascade_aside s f
  refine (darkened_order (forcedDark_changed s f) o).trans ?_
  rw [hd, aside_order]

/-- The orders of the retired cars lose them. -/
theorem forcedDark_carless {o : OrderHandle} {ord : Order} (ho : o ∈ s.namesOf f) (hord : (s.forcedDark f).order o = some ord) :
    ord.car = none := by
  have hkept := forcedDark_orders (s := s) (f := f) o
  have hrefs := (ordersLoseCar_refs s (s.namesOf f)).1 o
  rw [if_pos ho] at hrefs
  rw [hord, Option.map_some] at hkept
  obtain ⟨x, hx, e⟩ := Option.map_eq_some_iff.mp hkept.symm
  have hcar : x.car = ord.car := congrArg Prod.fst e
  rw [State.carOf, show (s.ordersLoseCar (s.namesOf f)).order o = some x from hx] at hrefs
  exact hcar.symm.trans hrefs

/-- The other orders keep all but stage, due mark, prep timer and trip. -/
theorem forcedDark_kept {o : OrderHandle} {ord : Order} (ho : s.order o = some ord) (hnot : o ∉ s.namesOf f) :
    ∃ ord', (s.forcedDark f).order o = some ord' ∧ Order.kept { ord' with trip := ord.trip } = ord.kept := by
  have hplain := ordersLoseCar_others s (s.namesOf f) hnot
  rw [ho, Option.map_some] at hplain
  obtain ⟨x, hx, e⟩ := Option.map_eq_some_iff.mp hplain
  have hkept := forcedDark_orders (s := s) (f := f) o
  rw [State.bookTold, hx, Option.map_some] at hkept
  obtain ⟨y, hy, e'⟩ := Option.map_eq_some_iff.mp hkept
  refine ⟨y, hy, ?_⟩
  simp only [Order.kept, Order.plain, Prod.mk.injEq] at e e' ⊢
  obtain ⟨e1, e2, e3, e4, e5, e6, e7⟩ := e
  obtain ⟨h1, h2, h3, h4, h5, h6, -, h8⟩ := e'
  exact ⟨h1.trans e1, h2.trans e2, h3.trans e3, h4.trans e4, h5.trans e5, h6.trans e6, trivial, h8.trans e7⟩

theorem forcedDark_others (hq : QueueLaw s) (ht : TripLaw s) : OthersStand s (s.forcedDark f) f (s.namesOf f) := by
  obtain ⟨haftermath, hlaw⟩ := aftermath_ordersLoseCar ⟨hq, ht⟩ (s.namesOf f)
  obtain ⟨horders, hparked, htrips, hstations, hready, hlimit⟩ :=
    shown_book (s.ordersLoseCar (s.namesOf f)) f (s.darkProgram f) (s.darkTimebase f)
  obtain ⟨e, -, he⟩ := forcedDark_aside s f
  rw [he]
  exact othersStand_aside (othersStand_fieldChange ⟨hq, ht⟩ haftermath hlaw horders hparked htrips hstations hready hlimit) e

end

theorem noted_aside (s : State) (x : BitVec 10) :
    ({ s with attention := s.attention.plus x } : State) = s.aside { s.besides with causes := x } :=
  congrArg (fun v : Vector Nat 64 => ({ s with tallies := v, attention := s.attention.plus x } : State)) (laid_self _).symm

theorem fieldChange_noted (s : State) (f : FieldNo) (x : BitVec 10) :
    ({ s with attention := s.attention.plus x } : State).fieldChange f = (s.fieldChange f).aside { s.besides with causes := x } := by
  rw [noted_aside]
  exact blind_fieldChange f s _

theorem shown_noted (b : State) (f : FieldNo) (p : ProgramUnit) (x : Timebase) (causes : BitVec 10) :
    ({ b.shown f p x with attention := b.attention.plus causes } : State).fieldChange f =
      ((b.shown f p x).fieldChange f).aside { (b.shown f p x).besides with causes := causes } :=
  fieldChange_noted (b.shown f p x) f causes

/-- Two states of one order book and of the same causes differ in the records aside from it. -/
theorem eq_of_book {b t u : State} {d e : Aside} (ht : t = b.aside d) (hu : u = b.aside e) (hcauses : d.causes = e.causes) :
    (∀ j, t.tally (.kitchen j) = u.tally (.kitchen j)) ∧ t = { u with
      fieldUnits := t.fieldUnits, entries := t.entries, lanes := t.lanes, sets := t.sets, tallies := t.tallies } := by
  subst ht hu
  refine ⟨fun j => (aside_tally_kitchen b d j).trans (aside_tally_kitchen b e j).symm, ?_⟩
  exact congrArg (fun x : BitVec 10 => ({ b.aside d with attention := b.attention.plus x } : State)) hcauses

theorem frame_of_book {b o k t : State} {e : Aside}
    (ho : o = { b with
      tallies := o.tallies, orders := o.orders, parked := o.parked, stations := o.stations, hold := o.hold, trips := o.trips
      readyList := o.readyList, attention := o.attention })
    (hk : k = { o with
      programs := k.programs, timebases := k.timebases, tallies := k.tallies, orders := k.orders, parked := k.parked
      stations := k.stations, hold := k.hold, trips := k.trips, attention := k.attention })
    (ht : t = k.aside e) : t = { b with
      fieldUnits := t.fieldUnits, entries := t.entries, lanes := t.lanes, tallies := t.tallies, programs := t.programs
      timebases := t.timebases, sets := t.sets, orders := t.orders, parked := t.parked, stations := t.stations, hold := t.hold
      trips := t.trips, readyList := t.readyList, attention := t.attention } := by
  subst ht
  rw [ho] at hk
  rw [hk]
  rfl

section
variable (s : State) (f : FieldNo)

theorem forcedDark_frame : s.forcedDark f = { s with
    fieldUnits := (s.forcedDark f).fieldUnits, entries := (s.forcedDark f).entries, lanes := (s.forcedDark f).lanes
    tallies := (s.forcedDark f).tallies, programs := (s.forcedDark f).programs, timebases := (s.forcedDark f).timebases
    sets := (s.forcedDark f).sets, orders := (s.forcedDark f).orders, parked := (s.forcedDark f).parked
    stations := (s.forcedDark f).stations, hold := (s.forcedDark f).hold, trips := (s.forcedDark f).trips
    readyList := (s.forcedDark f).readyList, attention := (s.forcedDark f).attention } := by
  obtain ⟨e, -, he⟩ := forcedDark_aside s f
  have htold := ordersLoseCar_frame_eq s (s.namesOf f)
  have hdark := (fieldChanged_shown (s.ordersLoseCar (s.namesOf f)) f (s.darkProgram f) (s.darkTimebase f)).rest.frame
  rw [State.bookDark, State.bookTold] at he
  exact frame_of_book htold hdark he

/-- The book told of the orders and of the change to DARK, with TOUCHED raised where a car was retired. -/
theorem forcedDark_closed :
    let closed := ({ (s.bookTold f).shown f (s.darkProgram f) (s.darkTimebase f) with
      attention := (s.bookTold f).attention.plus (s.goneCause f) } : State).fieldChange f
    (∀ j, (s.forcedDark f).tally (.kitchen j) = closed.tally (.kitchen j)) ∧ s.forcedDark f = { closed with
      fieldUnits := (s.forcedDark f).fieldUnits, entries := (s.forcedDark f).entries, lanes := (s.forcedDark f).lanes
      sets := (s.forcedDark f).sets, tallies := (s.forcedDark f).tallies } := by
  intro closed
  obtain ⟨e, hcauses, he⟩ := forcedDark_aside s f
  have hclosed := shown_noted (s.bookTold f) f (s.darkProgram f) (s.darkTimebase f) (s.goneCause f)
  rw [State.bookDark] at he
  refine eq_of_book he hclosed ?_
  dsimp only
  exact hcauses

theorem forcedDark_touched (hgone : s.carsOf f ≠ []) : (s.forcedDark f).attention.causes.getLsbD 8 = true := by
  obtain ⟨e, hcauses, he⟩ := forcedDark_aside s f
  have hattention : (s.forcedDark f).attention = (s.bookDark f).attention.plus (s.goneCause f) := by
    rw [he, ← hcauses]
    rfl
  rw [hattention, State.goneCause, if_neg hgone]
  exact (BitVec.getLsbD_or ..).trans (Bool.or_true _)

end

end Sys2Proof.Machine
end

section
/-! PROOF. CLOSE FIELD (O31). -/

namespace Sys2Proof.Machine

theorem FieldUnit.full_off_stalls {u v : FieldUnit} {x : Vector (Option CarHandle) 512}
    (h : u = { v with stalls := x, full := false }) : u = { v with stalls := u.stalls, full := false } := by
  subst h
  rfl

section
variable (s : State) (f : FieldNo)

theorem closeField_refuses (force : Nat) (hforce : force ≤ 1) :
    ((s.program f).state ≠ .opened → (s.program f).state ≠ .ended → workCloseField f force s = s.deny .state) ∧
    ((s.program f).state = .opened ∨ (s.program f).state = .ended →
      ((s.unit f).occupancy ≠ 0 → workCloseField f 0 s = s.deny .occupied) ∧
      ((s.unit f).occupancy = 0 → workCloseField f 0 s = (s.goDark f).ok [0, 0, 0, 0, 0, 0]) ∧
      workCloseField f 1 s = (s.forcedDark f).ok (be2 (s.carsOf f).length ++
        [(s.cascadeReport f).lost, (s.cascadeReport f).issuesCancelled] ++ be2 (s.cascadeReport f).orders)) := by
  refine ⟨fun hopened hended => ?_, fun hstate => ?_⟩
  · rw [workCloseField_of_field, State.checked_holds _ (by simpa [isFlag] using hforce)]
    exact State.checked_fails _ (by simp [hopened, hended]) _ _ _
  · have hlit : ((s.program f).state == .opened || (s.program f).state == .ended) = true := by simpa using hstate
    refine ⟨fun hcars => ?_, fun hempty => ?_, ?_⟩
    · rw [workCloseField_of_field, State.checked_holds _ (by rfl), State.checked_holds _ hlit]
      exact State.checked_fails _ (by simpa using hcars) _ _ _
    · rw [workCloseField_of_field, State.checked_holds _ (by rfl), State.checked_holds _ hlit,
        State.checked_holds _ (by simpa using hempty)]
      rfl
    · rw [workCloseField_of_field, State.checked_holds _ (by rfl), State.checked_holds _ hlit, State.checked_holds _ (by rfl),
        State.checked_nil, if_pos rfl]
      rfl

theorem forcedDark_fields {g : FieldNo} (hg : g ≠ f) :
    (s.forcedDark f).program g = s.program g ∧ (s.forcedDark f).timebase g = s.timebase g := by
  obtain ⟨hprogram, htimebase⟩ := (forcedDark_changed s f).rest.others g hg
  refine ⟨hprogram.trans (congrArg (look · g) ?_), htimebase.trans (congrArg (look · g) ?_)⟩
  · simp [State.signOff]
  · simp [State.signOff]

theorem bookTold_units : (s.bookTold f).programs = s.programs ∧ (s.bookTold f).timebases = s.timebases :=
  have h := ordersLoseCar_frame_eq s (s.namesOf f)
  ⟨(congrArg State.programs h :), (congrArg State.timebases h :)⟩

/-- The change to DARK is reported with TOUCHED raised where a car was retired. -/
theorem forcedDark_reported {told : State} {cars : List Car} (htold : told = s.bookTold f)
    (hcars : cars = [] ↔ s.carsOf f = []) :
    let closed : State := State.fieldChange
      { told with
        programs := put s.programs f { carrier := (s.program f).carrier }
        timebases := put s.timebases f { settings := (s.timebase f).settings }
        attention :=
          if cars = [] then told.attention
          else { told.attention with causes := told.attention.causes ||| 0x100#10 } } f
    (∀ j, (s.forcedDark f).tally (.kitchen j) = closed.tally (.kitchen j)) ∧ s.forcedDark f = { closed with
      fieldUnits := (s.forcedDark f).fieldUnits, entries := (s.forcedDark f).entries, lanes := (s.forcedDark f).lanes
      sets := (s.forcedDark f).sets, tallies := (s.forcedDark f).tallies } := by
  obtain ⟨hprograms, htimebases⟩ := bookTold_units s f
  have hattention : (if cars = [] then told.attention
      else { told.attention with causes := told.attention.causes ||| 0x100#10 }) = told.attention.plus (s.goneCause f) := by
    unfold State.goneCause
    by_cases hempty : cars = []
    · rw [if_pos hempty, if_pos (hcars.mp hempty), plus_zero]
    · rw [if_neg hempty, if_neg (mt hcars.mpr hempty)]
      rfl
  have hclosed := forcedDark_closed s f
  generalize s.forcedDark f = t at *
  intro closed
  have hsame : closed = ({ (s.bookTold f).shown f (s.darkProgram f) (s.darkTimebase f) with
      attention := (s.bookTold f).attention.plus (s.goneCause f) } : State).fieldChange f := by
    rw [← htold] at hprograms htimebases ⊢
    refine congrArg (State.fieldChange · f) ?_
    rw [hattention, ← hprograms, ← htimebases]
    rfl
  rw [hsame]
  exact hclosed

end

/-- Settles O31: without force the change to DARK alone; with force, the cascade first, record by record. -/
theorem closeFieldDarkensTheField : Obligations.CloseFieldDarkensTheField := by
  refine ⟨fun s field force hp h => ?_, fun s f hp => ?_⟩
  · refine denied_of_records rfl hp fun port attention => ?_
    show workCloseField field force _ = _
    unfold workCloseField
    by_cases hfield : field < 4
    · rw [State.withHandle_of_lt _ hfield]
      exact State.checked_fails _ (by simpa [isFlag] using h.resolve_left (by omega)) _ _ _
    · exact State.withHandle_of_ge _ (Nat.le_of_not_lt hfield) _
  intro dark stopped
  refine ⟨fun hopened hended => ⟨?_, ?_⟩, fun hstate => ⟨fun hcars => ?_, fun hempty => ?_, ?_⟩⟩
  · exact denied_of_records rfl hp fun port attention =>
      (closeField_refuses (s.facing port attention) f 0 (by decide)).1 hopened hended
  · exact denied_of_records rfl hp fun port attention =>
      (closeField_refuses (s.facing port attention) f 1 (by decide)).1 hopened hended
  · exact denied_of_records rfl hp fun port attention =>
      ((closeField_refuses (s.facing port attention) f 0 (by decide)).2 hstate).1 hcars
  · obtain ⟨port, attention, e⟩ := s.atWork_shape (.closeField f 0)
    refine ⟨(s.atWork (.closeField f 0)).goDark f, exec_of_work_eq_ok rfl hp ?_, ?_⟩ <;> rw [e]
    · exact ((closeField_refuses (s.facing port attention) f 0 (by decide)).2 hstate).2.1 hempty
    · exact goDark_changed (s.facing port attention) f
  obtain ⟨port, attention, e⟩ := s.atWork_shape (.closeField f 1)
  have hwork := ((closeField_refuses (s.facing port attention) f 1 (by decide)).2 hstate).2.2
  rw [carCount_length, cascadeReport_eq] at hwork
  rw [e]
  let b := s.facing port attention
  intro retired gone lost cars names told closed
  have hgone {h : CarHandle} : h ∈ b.carsOf f ↔ gone h := mem_carsOf
  have hnames : names = b.namesOf f := namesOf_eq b f
  have hcars : cars = [] ↔ b.carsOf f = [] := carList_eq_nil b f
  have hset (h : SetLaw s) : SetLaw b := setLaw_congr (s := s) rfl rfl (fun _ => rfl) h
  have hchanged := forcedDark_changed b f
  have hunits := forcedDark_units b f
  have hvacant {h : CarHandle} {c : Car} (hcar : s.car h = some c) (hf : c.field = f) := forcedDark_gone (s := b) hcar hf
  have hentries {h : CarHandle} (hlaw : SetLaw s) (hother : ∀ c, s.car h = some c → c.field ≠ f) :=
    forcedDark_entries (hset hlaw) hother
  have hlanes (l : LaneNo) := forcedDark_lanes (s := b) (f := f) l
  have hslots (hlaw : SetLaw s) (n : SetHandle) := forcedDark_slots (f := f) (hset hlaw) n
  have hcarless {o : OrderHandle} {ord : Order} (ho : o ∈ b.namesOf f) := forcedDark_carless (ord := ord) ho
  have hkept {o : OrderHandle} {ord : Order} (ho : s.order o = some ord) := forcedDark_kept (s := b) (f := f) ho
  have hothers (hq : QueueLaw b) (ht : TripLaw b) := forcedDark_others (f := f) hq ht
  have hlost (hlaw : SetLaw s) := forcedDark_lost (f := f) (hset hlaw)
  have hbank {k : Tally} (hk : k ≠ .sets .lost) := forcedDark_bank (s := b) (f := f) hk
  have hfields (g : FieldNo) (hg : g ≠ f) := forcedDark_fields b f hg
  have hfree (hlaw : StallLaw s) : ((b.cascade f).unit f).stalls = Vector.replicate 512 none := forcedDark_free b f
    ⟨hlaw.configuration, hlaw.configured, hlaw.parked, hlaw.placed, hlaw.lit, hlaw.named⟩
  have hreported := forcedDark_reported b f (told := told) (congrArg b.ordersLoseCar hnames) hcars
  have htouched := forcedDark_touched b f
  have hframe := forcedDark_frame b f
  obtain ⟨t, ht⟩ : ∃ t, t = b.forcedDark f := ⟨_, rfl⟩
  simp only [show s.facing port attention = b from rfl, ← ht] at *
  refine ⟨t, _, ?_, rfl, hchanged.program, hchanged.timebase, fun g hg => ⟨hunits.1 g hg, ?_⟩, ?_, fun hlaw => ?_,
    fun h c hcar hf => hvacant hcar hf, fun hlaw h hother => hentries hlaw hother,
    fun l h hserved hh => (hlanes l).1 h (hgone.mpr hh) hserved,
    fun l hfree => (hlanes l).2 fun h hh hserved => hfree h hserved (hgone.mp hh),
    fun hlaw n h hslot hh => (hslots hlaw n).1 h (hgone.mpr hh) hslot,
    fun hlaw n hfree => (hslots hlaw n).2 fun h hh hslot => hfree h hslot (hgone.mp hh),
    fun h c o hcar hf ho ord hord => hcarless (mem_namesOf.mpr ⟨h, c, hcar, hf, ho⟩) hord,
    fun o ord ho hnot => hkept ho ?_, fun hq htrip => ?_,
    fun hlaw hbound => hlost hlaw hbound, fun k hk h1 h2 h3 => hbank hk h1 h2 h3,
    hchanged.raised.1, hchanged.raised.2, ?_, ?_, ?_, hframe⟩
  · exact exec_of_work_eq_ok rfl hp (e ▸ hwork)
  · exact hfields g hg
  · exact FieldUnit.full_off_stalls hunits.2
  · exact hfree hlaw ▸ hunits.2
  · exact fun hmem => (mem_namesOf.mp hmem).elim fun h ⟨c, hcar, hf, ho⟩ => hnot h c hcar hf ho
  · obtain ⟨hworking, hparked, hnotWithdrawn, hready, hout, htrips⟩ := hothers
      (queueLaw_stands (s := s) (OrdersKeep.of_orders rfl) rfl rfl hq)
      (tripLaw_congr (s := s) (OrdersKeep.of_orders rfl) (trips_stand rfl) rfl htrip)
    exact hnames ▸ ⟨hworking, hparked, hnotWithdrawn, hready, hout, htrips⟩
  · exact fun ⟨h, hh⟩ => htouched (List.ne_nil_of_mem (hgone.mpr hh))
  · exact hreported.1
  · exact hreported.2

end Sys2Proof.Machine
end
